-- ==== Sys2Proof/Word.lean ====
section
/-! DEFINITION. The word types of the Stavrak (R2, R115, R204) and their plainest arithmetic. -/
namespace Sys2Proof

/-- A 64-bit scalar word (R115). -/
abbrev Word := BitVec 64
/-- One byte of memory (R2). -/
abbrev Byte := BitVec 8
/-- A four-byte lane, deposit word or accumulator element (R152, R204). -/
abbrev Lane := BitVec 32
/-- A vector row of 128 bytes; byte 0 is bits 7:0 (R2, R204). -/
abbrev Row := BitVec 1024

/-- `1` for true, `0` for false, at any width. -/
def Bool.toBits (w : Nat) (b : Bool) : BitVec w := if b then 1 else 0

/-- Least power of two not below `n` (at least 1), found in at most `fuel` doublings. -/
def pow2Ceil (n : Nat) : Nat → Nat → Nat
  | 0, p => p
  | fuel + 1, p => if n ≤ p then p else pow2Ceil n fuel (2 * p)

/-- Greatest power of two not above `n` (1 when `n` is 0), found in at most `fuel` doublings. -/
def pow2Floor (n : Nat) : Nat → Nat → Nat
  | 0, p => p
  | fuel + 1, p => if n < 2 * p then p else pow2Floor n fuel (2 * p)

/-- `⌈a ÷ b⌉`. -/
def ceilDiv (a b : Nat) : Nat := (a + b - 1) / b

end Sys2Proof
end

