-- ==== Sys2Proof/Config.lean ====
section
/-! DEFINITION. What an implementation fixes and the values the spec leaves open. An opaque constant
here has no body: no proof can learn its value (log 5). -/
namespace Sys2Proof.Config

/-- The package number of the modelled package (R339, R358); one package is modelled (log 15). -/
opaque pkg : Nat

/-- The package of the load-store domain that a frame of 64 KiB beyond the tiers is homed in (R257; log 15). -/
opaque farHome : Nat → Nat

/-- A fresh word for a value the spec leaves open, by the counter of `State.fresh` (log 5). -/
opaque freeWord : Nat → BitVec 64
/-- Whether an SPC atomic fails spuriously at its home (R254, status 2), by the free-value counter. -/
opaque spcFails : Nat → Bool
/-- Whether the device merges a QNT add with the one before it to the same location (R269); free (log 5). -/
opaque qntMerges : Nat → Bool
/-- Which two of the values that remain an ARRIVAL reduction combines next (R346, log 16), by the collective's draw, the element
and the number of values. -/
opaque treePick : Nat → Nat → Nat → Nat × Nat
/-- The payload bytes a member of a collective sent under an algorithm other than DIRECT (R347, R360), by the free-value counter. -/
opaque splicePayload : Nat → BitVec 64
/-- Whether the security processor verifies a firmware image (R396); the image's layout and the keys
are not in the spec. -/
opaque firmwareVerifies : List (BitVec 8) → Bool
/-- The sequence number a firmware image carries (R396); its place in the image is not in the spec. -/
opaque firmwareSeq : List (BitVec 8) → BitVec 32
/-- What the host's memory holds at a bus address (R386), by the free-value counter and the length. -/
opaque hostBytes : Nat → Nat → List (BitVec 8)
/-- What a line of memory deciphers to once the key pair it was written under is gone (R389, R392), by the pair's number and the line. -/
opaque unkeyed : Nat → Nat → BitVec 512
/-- SHA-384 of a list of bytes (R397); the spec names the function and does not define it. -/
opaque sha384 : List (BitVec 8) → BitVec 384
/-- The RSA-3072 signature of a report (R397), 384 bytes. -/
opaque rsaSign : List (BitVec 8) → BitVec 3072
/-- The SLH-DSA-SHA2-192s signature of a report (R397), 16,224 bytes. -/
opaque slhSign : List (BitVec 8) → BitVec 129792
/-- A telemetry reading of a stack's management core (R311), by the free-value counter and the reading. -/
opaque telemetry : Nat → Nat → BitVec 64
/-- An entry of a stack's repair log (R311), by the stack and the entry's number. -/
opaque repairEntry : Nat → Nat → BitVec 64
/-- How many entries a stack's repair log holds (R311). -/
opaque repairCount : Nat → Nat
/-- The default scrub period in ms of a stack (R311). -/
opaque scrubDefault : BitVec 32

end Sys2Proof.Config
end

