-- ==== Sys2Proof/Machine/Maps.lean ====
section
/-! DEFINITION. Maps as lists of keys and values in ascending key order, and the byte memory: the one place
that says what a key that is not listed reads as. -/
namespace Sys2Proof.Machine

/-- The value at key `k`, `d` where the map lists none. -/
def mapGet {α : Type} (d : α) : List (Nat × α) → Nat → α
  | [], _ => d
  | (j, v) :: m, k => if j = k then v else mapGet d m k

/-- The value at key `k` where the map lists one. -/
def mapFind {α : Type} : List (Nat × α) → Nat → Option α
  | [], _ => none
  | (j, v) :: m, k => if j = k then some v else mapFind m k

/-- The map with `v` at key `k`, keys kept ascending. -/
def mapSet {α : Type} : List (Nat × α) → Nat → α → List (Nat × α)
  | [], k, v => [(k, v)]
  | (j, w) :: m, k, v =>
    if j = k then (k, v) :: m else if k < j then (k, v) :: (j, w) :: m else (j, w) :: mapSet m k v

/-- The map without key `k`. -/
def mapErase {α : Type} (m : List (Nat × α)) (k : Nat) : List (Nat × α) := m.filter (fun e => e.1 != k)

/-- Whether a key is listed. -/
def mapHas {α : Type} (m : List (Nat × α)) (k : Nat) : Bool := m.any (fun e => e.1 == k)

/-- What an address that memory does not list reads as (log 4). -/
def unlistedByte : Byte := 0

/-- One byte of physical memory. -/
def memByte (m : List Host.Cell) (a : Nat) : Byte := mapGet unlistedByte m a

/-- Physical memory with one byte written; a byte equal to what an unlisted address reads as is not listed. -/
def memSetByte (m : List Host.Cell) (a : Nat) (b : Byte) : List Host.Cell :=
  if b = unlistedByte then mapErase m a else mapSet m a b

/-- The `n` bytes from address `a`, lowest first. -/
def memBytes (m : List Host.Cell) (a : Nat) : Nat → List Byte
  | 0 => []
  | n + 1 => memByte m a :: memBytes m (a + 1) n

/-- Memory with a list of bytes written from address `a` on. -/
def memSetBytes (m : List Host.Cell) (a : Nat) : List Byte → List Host.Cell
  | [] => m
  | b :: bs => memSetBytes (memSetByte m a b) (a + 1) bs

/-- The little-endian number of a list of bytes (R2). -/
def leNat : List Byte → Nat
  | [] => 0
  | b :: bs => b.toNat + 256 * leNat bs

/-- The `n` little-endian bytes of a number (R2). -/
def leBytes : Nat → Nat → List Byte
  | 0, _ => []
  | n + 1, v => BitVec.ofNat 8 v :: leBytes n (v / 256)

/-- The little-endian value of `n` bytes at `a` (R2). -/
def memNat (m : List Host.Cell) (a n : Nat) : Nat := leNat (memBytes m a n)

/-- Memory with the low `n` bytes of `v` written at `a` (R2). -/
def memSetNat (m : List Host.Cell) (a n v : Nat) : List Host.Cell := memSetBytes m a (leBytes n v)

/-- Whether keys are strictly ascending. -/
def keysRising {α : Type} : List (Nat × α) → Bool
  | [] => true
  | [_] => true
  | (a, _) :: (b, w) :: m => a < b && keysRising ((b, w) :: m)

/-- The canonical form of memory: addresses strictly rising, and no byte listed that an unlisted address
reads as. -/
def Memory.wf (m : List Host.Cell) : Bool := keysRising m && m.all (fun c => c.2 != unlistedByte)

/-- The bytes `lo` to `lo + n - 1` of a list of bytes as a number, absent bytes reading zero. -/
def fieldNat (bs : List Byte) (lo n : Nat) : Nat := leNat ((bs.drop lo).take n)

/-- The signed value of a number of `n` bits. -/
def signedNat (n v : Nat) : Int := if 2 * (v % 2 ^ n) < 2 ^ n then (v % 2 ^ n : Nat) else ((v % 2 ^ n : Nat) : Int) - (2 ^ n : Nat)

/-- A list of granules with one more, each once. -/
def addDirty (m : List (Nat × Nat)) (x : Nat × Nat) : List (Nat × Nat) := if m.contains x then m else x :: m

/-- A list of granules with more of them, each once. -/
def addDirties (m : List (Nat × Nat)) : List (Nat × Nat) → List (Nat × Nat)
  | [] => m
  | x :: xs => addDirties (addDirty m x) xs

/-- The element at place `k` of a list, if it has one. -/
def nth {α : Type} : List α → Nat → Option α
  | [], _ => none
  | x :: _, 0 => some x
  | _ :: xs, k + 1 => nth xs k

/-- The list without place `k`. -/
def dropAt {α : Type} : List α → Nat → List α
  | [], _ => []
  | _ :: xs, 0 => xs
  | x :: xs, k + 1 => x :: dropAt xs k

/-- The list with place `k` replaced. -/
def setAt {α : Type} : List α → Nat → α → List α
  | [], _, _ => []
  | _ :: xs, 0, y => y :: xs
  | x :: xs, k + 1, y => x :: setAt xs k y

/-- The numbers `a` to `a + n - 1`. -/
def span (a : Nat) : Nat → List Nat
  | 0 => []
  | n + 1 => a :: span (a + 1) n

/-- The first number of `a` to `a + n - 1` that passes a test. -/
def firstIn (p : Nat → Bool) (a : Nat) : Nat → Option Nat
  | 0 => none
  | n + 1 => if p a then some a else firstIn p (a + 1) n

end Sys2Proof.Machine
end

