-- ==== Sys2Proof/Fields.lean ====
section
/-! DEFINITION. The operand structures of instruction words, command quads and fabric messages:
the fields of R35, R39, R42, R100, R185 to R194, R227, and the row of a remote epilogue (R198). -/
namespace Sys2Proof

/-- A command quad cw0 to cw3 (R42). -/
structure Quad where
  cw0 : Word
  cw1 : Word
  cw2 : Word
  cw3 : Word
  deriving DecidableEq, Repr

/-- The unit, by core and unit slot, whose port a command stands in (R276). -/
structure Poster where
  core : Nat
  slot : Nat
  deriving DecidableEq, Repr

/-- The fields of an ordinary vector word (R35); MOD is fixed by the table row or stands beside it. -/
structure VWord where
  typ : BitVec 4
  dst : BitVec 16
  a : BitVec 16
  b : BitVec 16
  c : BitVec 16
  kpred : BitVec 4
  take : BitVec 4
  give : BitVec 4
  rnd : BitVec 2
  sat : Bool
  course : Bool
  deriving DecidableEq, Repr

/-- The fields of VLDT and VSTT (R227): `row` is DST of VLDT and SRCA of VSTT. -/
structure VTile where
  typ : BitVec 4
  row : BitVec 16
  handle : BitVec 12
  trow : BitVec 12
  tseg : BitVec 7
  tstr : BitVec 3
  kpred : BitVec 4
  take : BitVec 4
  give : BitVec 4
  course : Bool
  deriving DecidableEq, Repr

/-- The fields every matrix data word shares (R39, R185): MARK, tokens, knot and stamp. -/
structure MIssue where
  mark : Bool
  take : BitVec 4
  give : BitVec 4
  knot : BitVec 4
  stampen : Bool
  stamp : BitVec 40
  deriving DecidableEq, Repr

/-- The fields a matrix control word may carry beside its own (R100): MARK and a stamp. -/
structure MCtl where
  mark : Bool
  stampen : Bool
  stamp : BitVec 40
  deriving DecidableEq, Repr

/-- The fields of MMAC (R185, R192). -/
structure MmacF where
  fmt : BitVec 4
  hw : BitVec 12
  ha : BitVec 12
  hc : BitVec 12
  sha : BitVec 8
  shc : BitVec 8
  dprec : BitVec 4
  nega : Bool
  negw : Bool
  accdis : Bool
  mm1 : BitVec 11
  kr0 : BitVec 3
  krm1 : BitVec 3
  nc0 : BitVec 4
  ncm1 : BitVec 4
  deriving DecidableEq, Repr

/-- The fields of MEPI without its remote destination (R185, R194). -/
structure MepiF where
  fmt : BitVec 4
  hw : BitVec 12
  ha : BitVec 12
  hc : BitVec 12
  sha : BitVec 8
  shc : BitVec 8
  sat : Bool
  rnd : BitVec 2
  scm : BitVec 3
  bias : Bool
  act : BitVec 4
  aow : Bool
  ranked : Bool
  zacc : Bool
  cls : BitVec 4
  deriving DecidableEq, Repr

/-- The remote destination of MEPI (R194). -/
structure MDest where
  pkg : BitVec 12
  core : BitVec 9
  gen : BitVec 8
  deriving DecidableEq, Repr

/-- One element of a remote epilogue row: tile row, tile column and raw bits (R194, R198). -/
structure RowElem where
  r : Int
  c : Int
  bits : Lane
  deriving DecidableEq, Repr

/-- A destination row of a remote MEPI as handed to egress (R198), with the word it belongs to and what its splice report
names. -/
structure RemoteRow where
  srcPkg : Nat
  srcCore : Nat
  srcSub : Nat
  srcSlot : Nat
  srcUid : Nat
  srcId : Nat
  pc : BitVec 14
  srcRow : Nat
  dstPkg : Nat
  core : Nat
  handle : BitVec 12
  gen : BitVec 8
  fmt : BitVec 4
  cls : BitVec 4
  add : Bool
  ranked : Bool
  elems : List RowElem
  deriving DecidableEq, Repr

/-- A mailbox window of 64 bytes as eight words (R385, R386): word 0 holds the command. -/
structure Window where
  w0 : Word
  w1 : Word
  w2 : Word
  w3 : Word
  w4 : Word
  w5 : Word
  w6 : Word
  w7 : Word
  deriving DecidableEq, Repr

/-- The inlet page of a gatherer channel as a virtual function shows it to the host (R328, R393). -/
structure Inlet where
  fn : Nat
  chan : Nat
  deriving DecidableEq, Repr

/-- An instruction stream of the agent in focus (R18): the one a decode fate falls in. -/
inductive Stream where
  | scalar | vector | matrix
  deriving DecidableEq, Repr

/-- The operations of the vector pipes, by opcode and form (R37, R103, R222, R225). -/
inductive VOp where
  | add | sub | mul | fma | fms | nfma | min | max | abs | neg | scale
  | rcp | rsq | exp2 | log2 | tanh | sigm | sinpi | cospi
  | and | or | xor | not | shl | shr | sra | clmul | clmulh | popc
  | cmpeq | cmplt | cmple | sel | cls | cvt | rnd
  | rsum | rmax | rmin | rarg | csum
  | mov | bcastElem | bcastRow0 | trn | rot | packCat | packZip
  | unpkLo | unpkHi | unpkEven | unpkOdd | perm
  | ldt | stt | knotAny | knotAll | nop
  deriving DecidableEq, Repr

end Sys2Proof
end

