-- ==== Sys2Proof/Machine/Formats.lean ====
section
/-! DEFINITION. The element format codes of R45 and what every stream reads from a code: its width,
its kind, the integers it holds, and the types each vector operation takes (R38). -/
namespace Sys2Proof

/-- The element formats of R45, in code order. -/
inductive Fmt where
  | f32 | bf16 | f16 | e4m3 | e5m2 | i32 | i16 | i8 | n32 | n16 | n8 | i4 | t2
  deriving DecidableEq, Repr

/-- The format of a code; 13 to 15 are reserved (R45). -/
def fmtOfNat : Nat → Option Fmt
  | 0 => some .f32 | 1 => some .bf16 | 2 => some .f16 | 3 => some .e4m3 | 4 => some .e5m2
  | 5 => some .i32 | 6 => some .i16 | 7 => some .i8 | 8 => some .n32 | 9 => some .n16
  | 10 => some .n8 | 11 => some .i4 | 12 => some .t2 | _ => none

/-- The format a 4-bit code names (R45). -/
def fmtOfCode (c : BitVec 4) : Option Fmt := fmtOfNat c.toNat

/-- The code of a format (R45). -/
def fmtCode : Fmt → BitVec 4
  | .f32 => 0 | .bf16 => 1 | .f16 => 2 | .e4m3 => 3 | .e5m2 => 4 | .i32 => 5 | .i16 => 6
  | .i8 => 7 | .n32 => 8 | .n16 => 9 | .n8 => 10 | .i4 => 11 | .t2 => 12

/-- Bits of one element (R45). -/
def fmtBits : Fmt → Nat
  | .f32 | .i32 | .n32 => 32
  | .bf16 | .f16 | .i16 | .n16 => 16
  | .e4m3 | .e5m2 | .i8 | .n8 => 8
  | .i4 => 4
  | .t2 => 2

/-- Whether a format is floating (R45, R61). -/
def fmtFloat : Fmt → Bool
  | .f32 | .bf16 | .f16 | .e4m3 | .e5m2 => true
  | _ => false

/-- Whether an integer format is unsigned (R45). -/
def fmtUnsigned : Fmt → Bool
  | .n32 | .n16 | .n8 => true
  | _ => false

/-- Least and greatest integer an integer format holds (R45, R46, R61). -/
def fmtRange : Fmt → Int × Int
  | .i32 => (-2147483648, 2147483647)
  | .i16 => (-32768, 32767)
  | .i8 => (-128, 127)
  | .n32 => (0, 4294967295)
  | .n16 => (0, 65535)
  | .n8 => (0, 255)
  | .i4 => (-8, 7)
  | .t2 => (-1, 1)
  | _ => (0, 0)

/-- The types an operation takes (R38). -/
def vopTakes : VOp → Fmt → Bool
  | .add, f | .sub, f | .mul, f | .min, f | .max, f | .abs, f | .neg, f
  | .cmpeq, f | .cmplt, f | .cmple, f | .sel, f | .rmax, f | .rmin, f | .rarg, f =>
    match f with
    | .f32 | .bf16 | .f16 | .i32 | .i16 | .i8 | .n32 | .n16 | .n8 => true
    | _ => false
  | .fma, f | .fms, f | .nfma, f | .scale, f | .rnd, f | .rcp, f | .rsq, f | .exp2, f
  | .log2, f | .tanh, f | .sigm, f | .sinpi, f | .cospi, f =>
    match f with
    | .f32 | .bf16 | .f16 => true
    | _ => false
  | .and, f | .or, f | .xor, f | .not, f | .shl, f | .shr, f | .sra, f | .popc, f =>
    match f with
    | .i32 | .i16 | .i8 | .n32 | .n16 | .n8 => true
    | _ => false
  | .clmul, f | .clmulh, f =>
    match f with
    | .n32 | .n16 | .n8 => true
    | _ => false
  | .cls, f =>
    match f with
    | .f32 | .bf16 | .f16 | .e4m3 | .e5m2 => true
    | _ => false
  | .rsum, f | .csum, f =>
    match f with
    | .f32 | .bf16 | .f16 | .i32 | .n32 => true
    | _ => false
  | .mov, f | .bcastElem, f | .bcastRow0, f | .trn, f | .rot, f | .perm, f =>
    match f with
    | .i4 | .t2 => false
    | _ => true
  | .cvt, _ | .packCat, _ | .packZip, _ | .unpkLo, _ | .unpkHi, _ | .unpkEven, _ | .unpkOdd, _
  | .ldt, _ | .stt, _ => true
  | .knotAny, f | .knotAll, f | .nop, f => f == .f32

/-- The vector opcode of an operation (R37). -/
def vopOpcode : VOp → Nat
  | .add => 0x01 | .sub => 0x02 | .mul => 0x03 | .fma => 0x04 | .fms => 0x05 | .nfma => 0x06
  | .min => 0x07 | .max => 0x08 | .abs => 0x09 | .neg => 0x0A | .scale => 0x0B
  | .rcp => 0x10 | .rsq => 0x11 | .exp2 => 0x12 | .log2 => 0x13 | .tanh => 0x14 | .sigm => 0x15
  | .sinpi => 0x16 | .cospi => 0x17
  | .and => 0x20 | .or => 0x21 | .xor => 0x22 | .not => 0x23 | .shl => 0x24 | .shr => 0x25
  | .sra => 0x26 | .clmul => 0x27 | .clmulh => 0x28 | .popc => 0x29
  | .cmpeq => 0x30 | .cmplt => 0x31 | .cmple => 0x32 | .sel => 0x33 | .cls => 0x34
  | .cvt => 0x38 | .rnd => 0x39
  | .rsum => 0x40 | .rmax => 0x41 | .rmin => 0x42 | .rarg => 0x43 | .csum => 0x44
  | .mov => 0x50 | .bcastElem | .bcastRow0 => 0x51 | .trn => 0x52 | .rot => 0x53
  | .packCat | .packZip => 0x54 | .unpkLo | .unpkHi | .unpkEven | .unpkOdd => 0x55 | .perm => 0x56
  | .ldt => 0x60 | .stt => 0x61 | .knotAny | .knotAll => 0x74 | .nop => 0x77

/-- The MOD field an operation's form fixes (R209, R222, R225). -/
def vopMod : VOp → Nat
  | .bcastRow0 | .packZip | .unpkHi => 1
  | .unpkEven => 2
  | .unpkOdd => 3
  | _ => 0

/-- Whether an operation reads SRCB (R209). -/
def vopUsesB : VOp → Bool
  | .add | .sub | .mul | .min | .max | .fma | .fms | .nfma | .scale | .and | .or | .xor | .shl
  | .shr | .sra | .clmul | .clmulh | .cmpeq | .cmplt | .cmple | .sel | .rot | .perm | .packCat
  | .packZip => true
  | _ => false

/-- Whether an operation reads SRCC (R209). -/
def vopUsesC : VOp → Bool
  | .fma | .fms | .nfma | .sel => true
  | _ => false

/-- Whether an operation uses RND with a type (R209): always, or with a floating type only. -/
def vopUsesRnd (op : VOp) (f : Fmt) (src : Option Fmt) : Bool :=
  match op with
  | .add | .sub | .mul | .min | .max | .abs | .neg | .rsum | .csum => fmtFloat f
  | .fma | .fms | .nfma | .scale | .rcp | .rsq | .exp2 | .log2 | .tanh | .sigm | .sinpi | .cospi
  | .rnd => true
  | .cvt => fmtFloat f || (match src with | some g => fmtFloat g | none => false)
  | _ => false

/-- Whether an operation uses SAT (R209). -/
def vopUsesSat : VOp → Bool
  | .add | .sub | .mul | .min | .max | .abs | .neg | .fma | .fms | .nfma | .scale | .rcp | .rsq
  | .exp2 | .log2 | .tanh | .sigm | .sinpi | .cospi | .cvt | .rnd | .rsum | .csum => true
  | _ => false

/-- The pipe classes of R92. -/
inductive VClass where
  | move | simple | convert | multiply | rearrange | colSum | rowReduce | tile | special | control | none
  deriving DecidableEq, Repr

/-- The class of an operation (R92). -/
def vopClass : VOp → VClass
  | .mov | .bcastElem | .bcastRow0 => .move
  | .add | .sub | .min | .max | .abs | .neg | .and | .or | .xor | .not | .shl | .shr | .sra | .popc
  | .cmpeq | .cmplt | .cmple | .sel | .cls => .simple
  | .cvt | .rnd => .convert
  | .mul | .fma | .fms | .nfma | .scale | .clmul | .clmulh => .multiply
  | .trn | .rot | .packCat | .packZip | .unpkLo | .unpkHi | .unpkEven | .unpkOdd | .perm => .rearrange
  | .csum => .colSum
  | .rsum | .rmax | .rmin | .rarg => .rowReduce
  | .ldt | .stt => .tile
  | .rcp | .rsq | .exp2 | .log2 | .tanh | .sigm | .sinpi | .cospi => .special
  | .knotAny | .knotAll => .control
  | .nop => .none

/-- The latency L of a class (R92). -/
def vclassLatency : VClass → Nat
  | .move => 1 | .simple => 2 | .convert => 3 | .multiply => 4 | .rearrange => 3 | .colSum => 4
  | .rowReduce => 6 | .tile => 6 | .special => 8 | .control => 0 | .none => 0

/-- The pipe of a class: 0 is A, 1 is B, none takes no pipe (R92). R13 counts 64 FP32 FMA of a core in a clock, which two pipes of 32 lanes
would do; R92 puts the multiply class on pipe A alone, and is followed (log 57). -/
def vclassPipe : VClass → Option Nat
  | .move | .simple | .convert | .multiply => some 0
  | .rearrange | .colSum | .rowReduce | .tile | .special => some 1
  | .control | .none => Option.none

/-- The exact value of a constant-table entry as numerator and denominator (R47); the four irrational
entries c60 to c63 are none here. -/
def constRat (i : Nat) : Option (Int × Nat) :=
  if i < 16 then some (i, 1)
  else if i < 24 then some (-((i : Int) - 15), 1)
  else if i < 32 then some (1, 2 ^ (i - 23))
  else if i < 40 then some (2 ^ (i - 28), 1)
  else if i < 48 then some (1, 2 ^ (i - 31))
  else match i with
    | 48 => some (1, 3) | 49 => some (1, 5) | 50 => some (1, 6) | 51 => some (1, 7)
    | 52 => some (1, 9) | 53 => some (1, 10) | 54 => some (1, 12) | 55 => some (1, 24)
    | 56 => some (1, 48) | 57 => some (1, 96) | 58 => some (1, 127) | 59 => some (1, 255)
    | _ => none

/-- The integer a constant entry holds; entries 24 to 31 and 40 to 63 hold none (R47, R48). -/
def constInt (i : Nat) : Option Int :=
  match constRat i with
  | some (n, 1) => some n
  | _ => none

end Sys2Proof
end

