-- ==== Sys2Proof/Syntax.lean ====
section
/-! DEFINITION. The instructions and steps of the Stavrak: one constructor for each row of
spec/opcode_table.json. Scalar, vector and matrix words carry the fields of
R24 to R43; an engine command carries its poster and its quad; each of the part's own steps carries
what tells it from another step of its kind. -/
namespace Sys2Proof

/-- A row of the opcode table with its operands. -/
inductive Instr where
  /-- TRAP (R134). Raises TRAP with EVAL set to ra. -/
  | trap (ra : BitVec 5)
  /-- ADD (R126). rd := ra + rb, wrapped to 64 bits. -/
  | add (rd : BitVec 5) (ra : BitVec 5) (rb : BitVec 5)
  /-- SUB (R126). rd := ra - rb, wrapped to 64 bits. -/
  | sub (rd : BitVec 5) (ra : BitVec 5) (rb : BitVec 5)
  /-- AND (R126). Bitwise AND of ra and rb. -/
  | and (rd : BitVec 5) (ra : BitVec 5) (rb : BitVec 5)
  /-- OR (R126). Bitwise OR of ra and rb. -/
  | or (rd : BitVec 5) (ra : BitVec 5) (rb : BitVec 5)
  /-- XOR (R126). Bitwise XOR of ra and rb. -/
  | xor (rd : BitVec 5) (ra : BitVec 5) (rb : BitVec 5)
  /-- ANDN (R126). ra AND NOT rb. -/
  | andn (rd : BitVec 5) (ra : BitVec 5) (rb : BitVec 5)
  /-- ORN (R126). ra OR NOT rb. -/
  | orn (rd : BitVec 5) (ra : BitVec 5) (rb : BitVec 5)
  /-- SLL (R126). Shifts ra left by rb[5:0]. -/
  | sll (rd : BitVec 5) (ra : BitVec 5) (rb : BitVec 5)
  /-- SRL (R126). Shifts ra right logically by rb[5:0]. -/
  | srl (rd : BitVec 5) (ra : BitVec 5) (rb : BitVec 5)
  /-- SRA (R126). Shifts ra right arithmetically by rb[5:0]. -/
  | sra (rd : BitVec 5) (ra : BitVec 5) (rb : BitVec 5)
  /-- ROL (R126). Rotates ra left by rb[5:0]. -/
  | rol (rd : BitVec 5) (ra : BitVec 5) (rb : BitVec 5)
  /-- ROR (R126). Rotates ra right by rb[5:0]. -/
  | ror (rd : BitVec 5) (ra : BitVec 5) (rb : BitVec 5)
  /-- MUL (R126). Low 64 bits of ra times rb. -/
  | mul (rd : BitVec 5) (ra : BitVec 5) (rb : BitVec 5)
  /-- MULH (R126). High 64 bits of the signed product. -/
  | mulh (rd : BitVec 5) (ra : BitVec 5) (rb : BitVec 5)
  /-- MULHU (R126). High 64 bits of the unsigned product. -/
  | mulhu (rd : BitVec 5) (ra : BitVec 5) (rb : BitVec 5)
  /-- DIV (R127). Signed division truncated towards zero, with fixed results for the borderline cases. -/
  | div (rd : BitVec 5) (ra : BitVec 5) (rb : BitVec 5)
  /-- DIVU (R127). Unsigned division. -/
  | divu (rd : BitVec 5) (ra : BitVec 5) (rb : BitVec 5)
  /-- REM (R127). Signed remainder with the sign of the dividend. -/
  | rem (rd : BitVec 5) (ra : BitVec 5) (rb : BitVec 5)
  /-- REMU (R127). Unsigned remainder. -/
  | remu (rd : BitVec 5) (ra : BitVec 5) (rb : BitVec 5)
  /-- MIN (R126). Signed least of ra and rb. -/
  | min (rd : BitVec 5) (ra : BitVec 5) (rb : BitVec 5)
  /-- MAX (R126). Signed greatest of ra and rb. -/
  | max (rd : BitVec 5) (ra : BitVec 5) (rb : BitVec 5)
  /-- MINU (R126). Unsigned least of ra and rb. -/
  | minu (rd : BitVec 5) (ra : BitVec 5) (rb : BitVec 5)
  /-- MAXU (R126). Unsigned greatest of ra and rb. -/
  | maxu (rd : BitVec 5) (ra : BitVec 5) (rb : BitVec 5)
  /-- SLT (R126). 1 if ra < rb signed, else 0. -/
  | slt (rd : BitVec 5) (ra : BitVec 5) (rb : BitVec 5)
  /-- SLTU (R126). 1 if ra < rb unsigned, else 0. -/
  | sltu (rd : BitVec 5) (ra : BitVec 5) (rb : BitVec 5)
  /-- CLZ (R126). Counts leading zero bits of ra. -/
  | clz (rd : BitVec 5) (ra : BitVec 5)
  /-- CTZ (R126). Counts trailing zero bits of ra. -/
  | ctz (rd : BitVec 5) (ra : BitVec 5)
  /-- POPC (R126). Counts set bits of ra. -/
  | popc (rd : BitVec 5) (ra : BitVec 5)
  /-- BREV (R126). Reverses the bits of ra. -/
  | brev (rd : BitVec 5) (ra : BitVec 5)
  /-- CLMUL (R126). Low 64 bits of the carry-less product. -/
  | clmul (rd : BitVec 5) (ra : BitVec 5) (rb : BitVec 5)
  /-- CLMULH (R126). High 64 bits of the carry-less product. -/
  | clmulh (rd : BitVec 5) (ra : BitVec 5) (rb : BitVec 5)
  /-- SEXT_B (R126). Sign-extends ra[7:0]. -/
  | sextB (rd : BitVec 5) (ra : BitVec 5)
  /-- SEXT_H (R126). Sign-extends ra[15:0]. -/
  | sextH (rd : BitVec 5) (ra : BitVec 5)
  /-- SEXT_W (R126). Sign-extends ra[31:0]. -/
  | sextW (rd : BitVec 5) (ra : BitVec 5)
  /-- ZEXT_B (R126). Zero-extends ra[7:0]. -/
  | zextB (rd : BitVec 5) (ra : BitVec 5)
  /-- ZEXT_H (R126). Zero-extends ra[15:0]. -/
  | zextH (rd : BitVec 5) (ra : BitVec 5)
  /-- ZEXT_W (R126). Zero-extends ra[31:0]. -/
  | zextW (rd : BitVec 5) (ra : BitVec 5)
  /-- ADDI (R128). Adds the sign-extended immediate to ra. -/
  | addi (rd : BitVec 5) (ra : BitVec 5) (imm : BitVec 16)
  /-- ANDI (R128). ANDs ra with the sign-extended immediate. -/
  | andi (rd : BitVec 5) (ra : BitVec 5) (imm : BitVec 16)
  /-- ORI (R128). ORs ra with the sign-extended immediate. -/
  | ori (rd : BitVec 5) (ra : BitVec 5) (imm : BitVec 16)
  /-- XORI (R128). XORs ra with the sign-extended immediate. -/
  | xori (rd : BitVec 5) (ra : BitVec 5) (imm : BitVec 16)
  /-- SLTI (R128). Signed set-less-than against the immediate. -/
  | slti (rd : BitVec 5) (ra : BitVec 5) (imm : BitVec 16)
  /-- SLTIU (R128). Unsigned set-less-than against the sign-extended immediate. -/
  | sltiu (rd : BitVec 5) (ra : BitVec 5) (imm : BitVec 16)
  /-- SLLI (R129). Shifts ra left by SHAMT. -/
  | slli (rd : BitVec 5) (ra : BitVec 5) (sh : BitVec 6)
  /-- SRLI (R129). Shifts ra right logically by SHAMT. -/
  | srli (rd : BitVec 5) (ra : BitVec 5) (sh : BitVec 6)
  /-- SRAI (R129). Shifts ra right arithmetically by SHAMT. -/
  | srai (rd : BitVec 5) (ra : BitVec 5) (sh : BitVec 6)
  /-- HSET (R130). Writes the sign-extended immediate shifted to halfword h. -/
  | hset (rd : BitVec 5) (half : BitVec 2) (imm : BitVec 16)
  /-- HINS (R130). Replaces halfword h of rd with the immediate. -/
  | hins (rd : BitVec 5) (half : BitVec 2) (imm : BitVec 16)
  /-- BEQ (R131). Branches if ra equals rb. -/
  | beq (ra : BitVec 5) (rb : BitVec 5) (off : BitVec 16)
  /-- BNE (R131). Branches if ra differs from rb. -/
  | bne (ra : BitVec 5) (rb : BitVec 5) (off : BitVec 16)
  /-- BLT (R131). Branches if ra < rb signed. -/
  | blt (ra : BitVec 5) (rb : BitVec 5) (off : BitVec 16)
  /-- BGE (R131). Branches if ra >= rb signed. -/
  | bge (ra : BitVec 5) (rb : BitVec 5) (off : BitVec 16)
  /-- BLTU (R131). Branches if ra < rb unsigned. -/
  | bltu (ra : BitVec 5) (rb : BitVec 5) (off : BitVec 16)
  /-- BGEU (R131). Branches if ra >= rb unsigned. -/
  | bgeu (ra : BitVec 5) (rb : BitVec 5) (off : BitVec 16)
  /-- JAL (R132). Jumps PC-relative and links to s31. -/
  | jal (off : BitVec 26)
  /-- JALR (R132). Jumps to ra plus immediate, checks alignment and links to rd. -/
  | jalr (rd : BitVec 5) (ra : BitVec 5) (imm : BitVec 16)
  /-- LDB (R250). Loads a sign-extended byte. -/
  | ldb (rd : BitVec 5) (ra : BitVec 5) (cls : BitVec 4) (off : BitVec 12)
  /-- LDH (R250). Loads a sign-extended halfword. -/
  | ldh (rd : BitVec 5) (ra : BitVec 5) (cls : BitVec 4) (off : BitVec 12)
  /-- LDW (R250). Loads a sign-extended word. -/
  | ldw (rd : BitVec 5) (ra : BitVec 5) (cls : BitVec 4) (off : BitVec 12)
  /-- LDD (R250). Loads a doubleword. -/
  | ldd (rd : BitVec 5) (ra : BitVec 5) (cls : BitVec 4) (off : BitVec 12)
  /-- LDBU (R250). Loads a zero-extended byte. -/
  | ldbu (rd : BitVec 5) (ra : BitVec 5) (cls : BitVec 4) (off : BitVec 12)
  /-- LDHU (R250). Loads a zero-extended halfword. -/
  | ldhu (rd : BitVec 5) (ra : BitVec 5) (cls : BitVec 4) (off : BitVec 12)
  /-- LDWU (R250). Loads a zero-extended word. -/
  | ldwu (rd : BitVec 5) (ra : BitVec 5) (cls : BitVec 4) (off : BitVec 12)
  /-- STB (R250). Stores a byte. -/
  | stb (rs : BitVec 5) (ra : BitVec 5) (cls : BitVec 4) (off : BitVec 12)
  /-- STH (R250). Stores a halfword. -/
  | sth (rs : BitVec 5) (ra : BitVec 5) (cls : BitVec 4) (off : BitVec 12)
  /-- STW (R250). Stores a word. -/
  | stw (rs : BitVec 5) (ra : BitVec 5) (cls : BitVec 4) (off : BitVec 12)
  /-- STD (R250). Stores a doubleword. -/
  | std (rs : BitVec 5) (ra : BitVec 5) (cls : BitVec 4) (off : BitVec 12)
  /-- AMO_ADD (R253). Atomic add at the home, returning the old value per use. -/
  | amoAdd (rd : BitVec 5) (ra : BitVec 5) (rb : BitVec 5) (cls : BitVec 4) (use : BitVec 3) (size : BitVec 1)
  /-- AMO_AND (R253). Atomic AND at the home. -/
  | amoAnd (rd : BitVec 5) (ra : BitVec 5) (rb : BitVec 5) (cls : BitVec 4) (use : BitVec 3) (size : BitVec 1)
  /-- AMO_OR (R253). Atomic OR at the home. -/
  | amoOr (rd : BitVec 5) (ra : BitVec 5) (rb : BitVec 5) (cls : BitVec 4) (use : BitVec 3) (size : BitVec 1)
  /-- AMO_XOR (R253). Atomic XOR at the home. -/
  | amoXor (rd : BitVec 5) (ra : BitVec 5) (rb : BitVec 5) (cls : BitVec 4) (use : BitVec 3) (size : BitVec 1)
  /-- AMO_MIN (R253). Atomic signed minimum at the home. -/
  | amoMin (rd : BitVec 5) (ra : BitVec 5) (rb : BitVec 5) (cls : BitVec 4) (use : BitVec 3) (size : BitVec 1)
  /-- AMO_MAX (R253). Atomic signed maximum at the home. -/
  | amoMax (rd : BitVec 5) (ra : BitVec 5) (rb : BitVec 5) (cls : BitVec 4) (use : BitVec 3) (size : BitVec 1)
  /-- AMO_SWAP (R253). Atomic swap at the home; with SPC it returns a status under R254. -/
  | amoSwap (rd : BitVec 5) (ra : BitVec 5) (rb : BitVec 5) (cls : BitVec 4) (use : BitVec 3) (size : BitVec 1)
  /-- CAS (R253). Compare-and-swap at the home; with SPC it returns a status under R254. -/
  | cas (rd : BitVec 5) (ra : BitVec 5) (rb : BitVec 5) (cls : BitVec 4) (use : BitVec 3) (size : BitVec 1)
  /-- FENCE (R264). Holds later accesses of after-mask classes until earlier before-mask accesses within scope are performed. -/
  | fence (scope : BitVec 2) (ball : BitVec 1) (aall : BitVec 1) (ra : BitVec 5) (rb : BitVec 5)
  /-- BKNOT_SET (R99). Branches when the knot is set. -/
  | bknotSet (k : BitVec 4) (off : BitVec 16)
  /-- BKNOT_CLR (R99). Branches when the knot is clear. -/
  | bknotClr (k : BitVec 4) (off : BitVec 16)
  /-- BSTAT_SET (R288). Branches when a flag of the unit's port at an engine is set. -/
  | bstatSet (eng : BitVec 4) (flag : BitVec 2) (off : BitVec 16)
  /-- BSTAT_CLR (R288). Branches when a flag of the unit's port at an engine is clear. -/
  | bstatClr (eng : BitVec 4) (flag : BitVec 2) (off : BitVec 16)
  /-- GETSR (R139). Reads a special register into rd. -/
  | getsr (rd : BitVec 5) (sr : BitVec 12)
  /-- PUTSR (R139). Writes ra to a special register, subject to privilege and reserved-bit checks. -/
  | putsr (ra : BitVec 5) (sr : BitVec 12)
  /-- RDTIME (R402). Reads TNS in the issue clock. -/
  | rdtime (rd : BitVec 5)
  /-- RDCYC (R402). Reads CYC in the issue clock. -/
  | rdcyc (rd : BitVec 5)
  /-- SLEEPUNTIL (R402). Waits until TNS reaches ra. -/
  | sleepuntil (ra : BitVec 5)
  /-- TALLOC (R158). Allocates a tile handle and places and clears its storage, or returns a status or waits. -/
  | talloc (rd : BitVec 5) (ra : BitVec 5)
  /-- TFREE (R159). Waits for words and commands naming the handle, then frees it. -/
  | tfree (ra : BitVec 5)
  /-- TINFO (R160). Returns one word of a tile-table entry. -/
  | tinfo (rd : BitVec 5) (ra : BitVec 5)
  /-- TSETF_EMPTY (R161). Empties a SCRATCH tile, resets ARRIVAL and sets TARGET. -/
  | tsetfEmpty (ra : BitVec 5) (rb : BitVec 5)
  /-- TSETF_FULL (R161). Marks a SCRATCH tile full and releases the unit's writes into it. -/
  | tsetfFull (ra : BitVec 5) (rb : BitVec 5)
  /-- TSETF_TARGET (R161). Sets TARGET of a SCRATCH tile, flipping it full if ARRIVAL already reaches it. -/
  | tsetfTarget (ra : BitVec 5) (rb : BitVec 5)
  /-- TWAIT (R162). Waits until a tile is full or its ARRIVAL reaches a count, acquiring the counted deposits. -/
  | twait (ra : BitVec 5) (rb : BitVec 5)
  /-- SHAPE_W (R164). Reads 16 bytes from memory into a shape record. -/
  | shapeW (ra : BitVec 5) (rb : BitVec 5)
  /-- PORT_W (R277). Writes a staging word of the unit's port at an engine. -/
  | portW (ra : BitVec 5) (eng : BitVec 4) (word : BitVec 2)
  /-- PORT_GO (R278). Checks, translates and posts the staged command quad to the engine. -/
  | portGo (rd : BitVec 5) (eng : BitVec 4)
  /-- PORT_CUT (R283). Removes unstarted commands with TAG >= TMIN and optionally restarts a halted queue. -/
  | portCut (ra : BitVec 5) (eng : BitVec 4)
  /-- EVQ_POP (R286). Pops the oldest completion record, optionally storing it, and acquires its command. -/
  | evqPop (rd : BitVec 5) (ra : BitVec 5)
  /-- TSK_ARM (R316). Reads and checks a TCB and arms the task as READY or WAIT. -/
  | tskArm (ra : BitVec 5)
  /-- TSK_SIG_DEC (R319). Decrements a TCB's dependence count as a release does. -/
  | tskSigDec (ra : BitVec 5)
  /-- TSK_SIG_WAKE (R319). Sets the event latch of a running task's unit. -/
  | tskSigWake (ra : BitVec 5)
  /-- TSK_END (R321). Ends the unit with a chosen completion status, acting as HALT. -/
  | tskEnd (ra : BitVec 5)
  /-- TSK_RETRY (R321). Makes a HELD task READY again. -/
  | tskRetry (ra : BitVec 5)
  /-- HL_CANCEL (R322). Sets CXL on a node and cancels every task under it. -/
  | hlCancel (ra : BitVec 5) (rb : BitVec 5)
  /-- HL_CANCEL_RESET (R322). Clears DONE, FAIL and CXL of a node with no live tasks. -/
  | hlCancelReset (ra : BitVec 5) (rb : BitVec 5)
  /-- HL_READ (R323). Reads a counter or CXL of a hierarchy node. -/
  | hlRead (rd : BitVec 5) (ra : BitVec 5) (rb : BitVec 5)
  /-- KNOT_SET (R98). Sets a knot of the core. -/
  | knotSet (num : BitVec 4)
  /-- KNOT_CLR (R98). Clears a knot of the core. -/
  | knotClr (num : BitVec 4)
  /-- KNOT_WAIT (R98). Waits until a knot is set. -/
  | knotWait (num : BitVec 4)
  /-- TOK_GIVE (R94). Waits for room and adds a token to a queue. -/
  | tokGive (num : BitVec 4)
  /-- TOK_TAKE (R94). Waits for a token and takes it, acquiring the givers' writes. -/
  | tokTake (num : BitVec 4)
  /-- BAR_ARRIVE (R334). Releases the unit's accesses and arrives at a route-tag barrier for its core. -/
  | barArrive (num : BitVec 4)
  /-- BAR_WAIT (R334). Waits until the barrier's phase passes the unit's arrival. -/
  | barWait (num : BitVec 4)
  /-- BOB_ARRIVE (R336). Counts one arrival at a barrier object and checks for phase completion. -/
  | bobArrive (ra : BitVec 5)
  /-- BOB_EXPECT (R336). Subtracts expected bytes from a barrier object's PENDING. -/
  | bobExpect (ra : BitVec 5) (rb : BitVec 5)
  /-- BOB_WAIT (R336). Waits until a barrier object's phase differs from ra[0]. -/
  | bobWait (ra : BitVec 5)
  /-- FAB_BOND (R174). Reads a bond record and, once streams and bricks allow, installs the new bond. -/
  | fabBond (rd : BitVec 5) (ra : BitVec 5)
  /-- FAB_BOND_NW (R174). As FAB.BOND but returns BOND_BUSY instead of waiting. -/
  | fabBondNw (rd : BitVec 5) (ra : BitVec 5)
  /-- FAB_DRAIN (R178). Optionally stops the named streams and waits until their sub-arrays are drained and fenced. -/
  | fabDrain (ra : BitVec 5)
  /-- FAB_QUERY (R179). Returns brick states or a sub-array description of the core's bond. -/
  | fabQuery (rd : BitVec 5) (ra : BitVec 5)
  /-- ENG_START (R85). Starts one engine stream at a word with initial loop counters. -/
  | engStart (ra : BitVec 5) (rb : BitVec 5)
  /-- ENG_BIND (R86). Forms an armed bound group of idle streams. -/
  | engBind (ra : BitVec 5)
  /-- ENG_FORK (R87). Ends binding of a group or dissolves an unlaunched group. -/
  | engFork (ra : BitVec 5)
  /-- ENG_STOP (R88). Stops the named streams, which go IDLE after their last retirement. -/
  | engStop (ra : BitVec 5)
  /-- ENG_STAT (R89). Returns the state of one engine stream. -/
  | engStat (rd : BitVec 5) (ra : BitVec 5)
  /-- TOK_CFG_CLAIM (R94). Claims a token queue with an initial count once no reservation is outstanding. -/
  | tokCfgClaim (ra : BitVec 5) (rb : BitVec 5)
  /-- TOK_CFG_RELEASE (R94). Releases an owned token queue once no reservation is outstanding. -/
  | tokCfgRelease (ra : BitVec 5) (rb : BitVec 5)
  /-- VADD (R211). Element-wise addition over the operand rows. -/
  | vadd (w : VWord)
  /-- VSUB (R211). Element-wise subtraction. -/
  | vsub (w : VWord)
  /-- VMUL (R211). Element-wise multiplication. -/
  | vmul (w : VWord)
  /-- VFMA (R211). Fused multiply-add with one rounding. -/
  | vfma (w : VWord)
  /-- VFMS (R211). Fused multiply-subtract. -/
  | vfms (w : VWord)
  /-- VNFMA (R211). Negated product plus C with one rounding. -/
  | vnfma (w : VWord)
  /-- VMIN (R211). Element-wise minimum. -/
  | vmin (w : VWord)
  /-- VMAX (R211). Element-wise maximum. -/
  | vmax (w : VWord)
  /-- VABS (R211). Element-wise absolute value. -/
  | vabs (w : VWord)
  /-- VNEG (R211). Element-wise negation. -/
  | vneg (w : VWord)
  /-- VSCALE (R212). Multiplies A by 2 to the truncated B. -/
  | vscale (w : VWord)
  /-- VRCP (R213). Correctly rounded reciprocal. -/
  | vrcp (w : VWord)
  /-- VRSQ (R213). Correctly rounded reciprocal square root. -/
  | vrsq (w : VWord)
  /-- VEXP2 (R213). Correctly rounded 2 to the A. -/
  | vexp2 (w : VWord)
  /-- VLOG2 (R213). Correctly rounded base-2 logarithm. -/
  | vlog2 (w : VWord)
  /-- VTANH (R213). Correctly rounded hyperbolic tangent. -/
  | vtanh (w : VWord)
  /-- VSIGM (R213). Correctly rounded logistic sigmoid. -/
  | vsigm (w : VWord)
  /-- VSINPI (R213). Correctly rounded sin(pi A). -/
  | vsinpi (w : VWord)
  /-- VCOSPI (R213). Correctly rounded cos(pi A). -/
  | vcospi (w : VWord)
  /-- VAND (R214). Bitwise AND of elements. -/
  | vand (w : VWord)
  /-- VOR (R214). Bitwise OR of elements. -/
  | vor (w : VWord)
  /-- VXOR (R214). Bitwise XOR of elements. -/
  | vxor (w : VWord)
  /-- VNOT (R214). Bitwise NOT of elements. -/
  | vnot (w : VWord)
  /-- VSHL (R214). Shifts elements left. -/
  | vshl (w : VWord)
  /-- VSHR (R214). Shifts elements right logically. -/
  | vshr (w : VWord)
  /-- VSRA (R214). Shifts elements right arithmetically. -/
  | vsra (w : VWord)
  /-- VCLMUL (R214). Low half of the element carry-less product. -/
  | vclmul (w : VWord)
  /-- VCLMULH (R214). High half of the element carry-less product. -/
  | vclmulh (w : VWord)
  /-- VPOPC (R214). Counts set bits of each element. -/
  | vpopc (w : VWord)
  /-- VCMPEQ (R215). Writes all-ones where A equals B. -/
  | vcmpeq (w : VWord)
  /-- VCMPLT (R215). Writes all-ones where A is less than B. -/
  | vcmplt (w : VWord)
  /-- VCMPLE (R215). Writes all-ones where A is at most B. -/
  | vcmple (w : VWord)
  /-- VSEL (R215). Selects A where C is non-zero, else B. -/
  | vsel (w : VWord)
  /-- VCLASS (R216). Writes the class code of each element. -/
  | vclass (w : VWord)
  /-- VCVT (R217). Converts elements from the MOD format to the TYPE format. -/
  | vcvt (src : BitVec 4) (w : VWord)
  /-- VRND (R218). Rounds elements to integral values. -/
  | vrnd (w : VWord)
  /-- VRSUM (R220). Sums each row in a fixed pairwise tree and broadcasts the sum. -/
  | vrsum (w : VWord)
  /-- VRMAX (R219). Row maximum broadcast across the row. -/
  | vrmax (w : VWord)
  /-- VRMIN (R219). Row minimum broadcast across the row. -/
  | vrmin (w : VWord)
  /-- VRARG (R219). Index of the first row maximum or NaN. -/
  | vrarg (w : VWord)
  /-- VCSUM (R221). Sums each column down the source rows into one row. -/
  | vcsum (w : VWord)
  /-- VMOV (R222). Copies active lanes as raw bits. -/
  | vmov (w : VWord)
  /-- VBCAST_ELEM (R222). Broadcasts element 0 of each row across the row. -/
  | vbcastElem (w : VWord)
  /-- VBCAST_ROW0 (R222). Copies source row 0 to every destination row. -/
  | vbcastRow0 (w : VWord)
  /-- VTRN (R223). Transposes a square block of rows. -/
  | vtrn (w : VWord)
  /-- VROT (R224). Rotates the elements of each row by a count. -/
  | vrot (w : VWord)
  /-- VPACK_CAT (R225). Concatenates the low halves of A and B. -/
  | vpackCat (w : VWord)
  /-- VPACK_ZIP (R225). Interleaves the low halves of A and B. -/
  | vpackZip (w : VWord)
  /-- VUNPK_LO (R225). Takes the low half of each row. -/
  | vunpkLo (w : VWord)
  /-- VUNPK_HI (R225). Takes the high half of each row. -/
  | vunpkHi (w : VWord)
  /-- VUNPK_EVEN (R225). Takes the even elements of each row. -/
  | vunpkEven (w : VWord)
  /-- VUNPK_ODD (R225). Takes the odd elements of each row. -/
  | vunpkOdd (w : VWord)
  /-- VPERM (R226). Gathers elements within each row by index. -/
  | vperm (w : VWord)
  /-- VLDT (R228). Copies tile row segments into vector rows once the tile is full. -/
  | vldt (w : VTile)
  /-- VSTT (R229). Deposits vector rows into tile rows as WRITE deposits. -/
  | vstt (w : VTile)
  /-- VSHAPE (R206). Sets the rows and lanes of VSHAPE. -/
  | vshape (rowsm1 : BitVec 6) (lanesm1 : BitVec 5) (course : Bool)
  /-- VLOOP (R101). Loads a vector loop counter. -/
  | vloop (lc : BitVec 2) (src : Bool) (value : BitVec 16) (course : Bool)
  /-- VBR_ALWAYS (R102). Unconditional vector branch. -/
  | vbrAlways (target : BitVec 13) (course : Bool)
  /-- VBR_KSET (R102). Vector branch when a knot is set. -/
  | vbrKset (k : BitVec 4) (target : BitVec 13) (course : Bool)
  /-- VBR_KCLR (R102). Vector branch when a knot is clear. -/
  | vbrKclr (k : BitVec 4) (target : BitVec 13) (course : Bool)
  /-- VBR_LOOP (R102). Decrements a loop counter and branches while it is non-zero. -/
  | vbrLoop (lc : BitVec 2) (target : BitVec 13) (course : Bool)
  /-- VBR_END (R102). Ends the vector stream, which goes STOPPING then IDLE. -/
  | vbrEnd (course : Bool)
  /-- VMOD (R110). Starts a vector modulo loop over the following body. -/
  | vmod (lenm1 : BitVec 6) (iim1 : BitVec 6) (tsrc : Bool) (trips : BitVec 16) (exk : BitVec 4) (exs : Bool) (course : Bool)
  /-- VKNOT_SET (R103). Sets a knot from the vector stream. -/
  | vknotSet (k : BitVec 4) (course : Bool)
  /-- VKNOT_CLR (R103). Clears a knot from the vector stream. -/
  | vknotClr (k : BitVec 4) (course : Bool)
  /-- VKNOT_ANY (R103). Sets a knot if any byte of the source rows is non-zero. -/
  | vknotAny (k : BitVec 4) (src : BitVec 16) (course : Bool)
  /-- VKNOT_ALL (R103). Sets a knot if every byte of the source rows is non-zero. -/
  | vknotAll (k : BitVec 4) (src : BitVec 16) (course : Bool)
  /-- VWAIT_SET (R104). Holds the vector stream until a knot is set; in a bound course it ends the bound run. -/
  | vwaitSet (k : BitVec 4) (course : Bool)
  /-- VWAIT_CLR (R104). Holds the vector stream until a knot is clear. -/
  | vwaitClr (k : BitVec 4) (course : Bool)
  /-- VWAIT_DRAIN (R104). Holds the vector stream until earlier words retire and rows land. -/
  | vwaitDrain (course : Bool)
  /-- REP (R113). Repeats the next vector word n times with stepped operands. -/
  | rep (nm1 : BitVec 6) (course : Bool)
  /-- VNOP (R100). Vector word with no effect beyond predicate, tokens and course place. -/
  | vnop (kpred : BitVec 4) (take : BitVec 4) (give : BitVec 4) (course : Bool)
  /-- MLDW (R189). Loads a digit-plane tile into the shadow weight set. -/
  | mldw (f : MIssue) (hw : BitVec 12) (dprec : BitVec 4) (clr : Bool) (br0 : BitVec 3) (bc0 : BitVec 4)
  /-- MSWAP (R190). Exchanges active and shadow weight sets behind the wavefront. -/
  | mswap (f : MIssue)
  /-- MMAC (R193). Streams activation rows through the active weights into an accumulator tile. -/
  | mmac (f : MIssue) (m : MmacF)
  /-- MEPI (R195). Drains an accumulator tile through scale, bias, activation and rounding into a local tile. -/
  | mepi (f : MIssue) (e : MepiF)
  /-- MEPI_REMOTE (R198). Epilogue whose rows are handed to splice egress for a tile on another core. -/
  | mepiRemote (f : MIssue) (e : MepiF) (dest : MDest)
  /-- MMARK (R200). Advances the marker counter at retirement. -/
  | mmark (f : MIssue)
  /-- MNOP (R200). Matrix word with no effect beyond tokens, MARK and stamp. -/
  | mnop (f : MIssue)
  /-- MLOOP (R101). Loads a matrix stream loop counter. -/
  | mloop (c : MCtl) (lc : BitVec 2) (src : Bool) (value : BitVec 16)
  /-- MBR_ALWAYS (R102). Unconditional matrix branch. -/
  | mbrAlways (c : MCtl) (target : BitVec 13)
  /-- MBR_KSET (R102). Matrix branch when a knot is set. -/
  | mbrKset (c : MCtl) (k : BitVec 4) (target : BitVec 13)
  /-- MBR_KCLR (R102). Matrix branch when a knot is clear. -/
  | mbrKclr (c : MCtl) (k : BitVec 4) (target : BitVec 13)
  /-- MBR_LOOP (R102). Decrements a matrix loop counter and branches while non-zero. -/
  | mbrLoop (c : MCtl) (lc : BitVec 2) (target : BitVec 13)
  /-- MBR_END (R102). Ends the matrix stream. -/
  | mbrEnd (c : MCtl)
  /-- MMOD (R110). Starts a matrix modulo loop. -/
  | mmod (c : MCtl) (lenm1 : BitVec 6) (iim1 : BitVec 6) (tsrc : Bool) (trips : BitVec 16) (exk : BitVec 4) (exs : Bool)
  /-- MWAIT_SET (R104). Holds a matrix stream until a knot is set. -/
  | mwaitSet (c : MCtl) (k : BitVec 4)
  /-- MWAIT_CLR (R104). Holds a matrix stream until a knot is clear. -/
  | mwaitClr (c : MCtl) (k : BitVec 4)
  /-- MWAIT_DRAIN (R104). Holds a matrix stream until earlier words of the sub-array retire. -/
  | mwaitDrain (c : MCtl)
  /-- HOD_COPY_TO_TILE (R292). Copies or decodes memory elements into a tile. -/
  | hodCopyToTile (p : Poster) (q : Quad)
  /-- HOD_COPY_TO_MEMORY (R292). Copies a full element tile to memory. -/
  | hodCopyToMemory (p : Poster) (q : Quad)
  /-- HOD_COPY_MEMORY (R292). Copies memory to memory through two layouts. -/
  | hodCopyMemory (p : Poster) (q : Quad)
  /-- HOD_FILL_TILE (R293). Fills a tile window with one value. -/
  | hodFillTile (p : Poster) (q : Quad)
  /-- HOD_FILL_MEMORY (R293). Fills the in-bounds elements of a layout with one value. -/
  | hodFillMemory (p : Poster) (q : Quad)
  /-- HOD_IMLOAD (R294). Copies an instruction image into vector or matrix instruction memory. -/
  | hodImload (p : Poster) (q : Quad)
  /-- TIER_RUN (R304). Starts an itinerary in a slot. -/
  | tierRun (p : Poster) (q : Quad)
  /-- TIER_STOP (R305). Stops an itinerary so that no step starts a further hop. -/
  | tierStop (p : Poster) (q : Quad)
  /-- TIER_STOP_DRAIN (R305). Stops an itinerary after started steps are delivered. -/
  | tierStopDrain (p : Poster) (q : Quad)
  /-- TIER_ROPE_SOURCE (R306). Starts the source role of a rope. -/
  | tierRopeSource (p : Poster) (q : Quad)
  /-- TIER_ROPE_SUBSCRIBER (R306). Starts a subscriber role of a rope and sends its join. -/
  | tierRopeSubscriber (p : Poster) (q : Quad)
  /-- SPL_COLL_ALL_REDUCE (R344). All-reduce collective. -/
  | splCollAllReduce (p : Poster) (q : Quad)
  /-- SPL_COLL_REDUCE_SCATTER (R344). Reduce-scatter collective. -/
  | splCollReduceScatter (p : Poster) (q : Quad)
  /-- SPL_COLL_ALL_GATHER (R344). All-gather collective. -/
  | splCollAllGather (p : Poster) (q : Quad)
  /-- SPL_COLL_BROADCAST (R344). Broadcast collective from PEER. -/
  | splCollBroadcast (p : Poster) (q : Quad)
  /-- SPL_COLL_ALL_TO_ALL (R344). All-to-all collective. -/
  | splCollAllToAll (p : Poster) (q : Quad)
  /-- SPL_COLL_TRANSPOSING_ALL_TO_ALL (R351). Transposing all-to-all placing each element at its final index. -/
  | splCollTransposingAllToAll (p : Poster) (q : Quad)
  /-- SPL_PUT (R344). One-sided put into a peer's tile. -/
  | splPut (p : Poster) (q : Quad)
  /-- SPL_SIG_SET (R355). Sends a flag store to a peer after released data is acknowledged. -/
  | splSigSet (p : Poster) (q : Quad)
  /-- SPL_SIG_ADD (R355). Sends a flag quantum add to a peer after released data is acknowledged. -/
  | splSigAdd (p : Poster) (q : Quad)
  /-- GAT_OPEN (R330). Opens a gatherer channel with its channel record. -/
  | gatOpen (p : Poster) (q : Quad)
  /-- GAT_CLOSE (R333). Closes a channel, discarding the open batch and inlet. -/
  | gatClose (p : Poster) (q : Quad)
  /-- GAT_CLOSE_FLUSH (R333). Closes a channel after taking in the inlet and arming the open batch. -/
  | gatCloseFlush (p : Poster) (q : Quad)
  /-- TRC_MARK (R406). Writes a MARK trace record. -/
  | trcMark (p : Poster) (q : Quad)
  /-- WFE (R136). Waits until the event latch is set, then clears it. -/
  | wfe
  /-- EVQ_WAIT (R287). Waits until the event queue holds a record. -/
  | evqWait
  /-- HALT (R135). Stops the scalar stream, waits for every stream, command and remote row to finish, then ends the unit. -/
  | halt
  /-- NOP (R134). Scalar word with no effect. -/
  | nop
  /-- BRK (R134). Raises BRK. -/
  | brk
  /-- ERET (R137). Returns from S mode to EPC in U mode, releases held streams and takes any pending engine cause. -/
  | eret
  /-- COURSE_ISSUE (R105). A bound group issues one course once all its conditions hold. -/
  | courseIssue (core : Nat)
  /-- REP_STEP (R113). One repeat step of a REP word issues once its pipe is free. -/
  | repStep (core : Nat)
  /-- MODULO_SLOT (R111). One slot of a modulo loop issues its due word or passes empty. -/
  | moduloSlot (core : Nat) (stream : Nat)
  /-- ROW_LANDING (R91). A vector word's destination row lands at its landing clock. -/
  | rowLanding (core : Nat)
  /-- WORD_RETIREMENT (R186). A matrix word retires after its clocks, advancing MCNT if marked and raising retirement faults. -/
  | wordRetirement (core : Nat) (sub : Nat)
  /-- SCALAR_WAIT_RESUME (R80). A scalar wait ends when its condition comes to hold and the instruction completes. -/
  | scalarWaitResume (core : Nat) (slot : Nat)
  /-- LOAD_RESPONSE (R251). A load's data or an atomic's returned value arrives and rd becomes usable. -/
  | loadResponse (core : Nat) (k : Nat)
  /-- REQUEST_SLOT_GRANT (R245). A freed request slot is granted to a waiting requester. -/
  | requestSlotGrant (core : Nat) (k : Nat)
  /-- TRAP_ENTRY (R122). The unit takes a pending trap at a scalar boundary and enters S mode at TVEC. -/
  | trapEntry (core : Nat) (slot : Nat)
  /-- UNIT_END (R440). A unit ends otherwise than by HALT, stopping streams and cutting queues. -/
  | unitEnd (core : Nat) (slot : Nat)
  /-- DEPCNT_DECREMENT (R318). A decrement reaches a TCB at the scheduler and may make it READY. -/
  | depcntDecrement (k : Nat)
  /-- DISPATCH (R327). The scheduler places a dispatchable READY task on a unit slot. -/
  | dispatch (core : Nat) (slot : Nat)
  /-- BLOCKING (R326). A task at the queue head undispatchable for 4 ms becomes blocking. -/
  | blocking (part : Nat)
  /-- PREEMPTION (R372). A unit is stopped and its context image is written. -/
  | preemption (core : Nat) (slot : Nat)
  /-- RESUME (R380). A pre-empted unit returns by reading its image chain. -/
  | resume (core : Nat) (slot : Nat) (k : Nat)
  /-- DEPOSIT (R152). A deposit word is written or added into a tile and counted in ARRIVAL. -/
  | deposit (k : Nat)
  /-- HELD_DEPOSIT_RELEASE (R152). A deposit held on a FULL tile proceeds once the tile is emptied. -/
  | heldDepositRelease (k : Nat)
  /-- TILE_CLEAR_END (R156). The clearing of a newly allocated tile ends and accesses may proceed. -/
  | tileClearEnd (core : Nat) (h : Nat)
  /-- COMMAND_END (R281). An engine command ends and completes by record, interrupt, barrier arrival or silently. -/
  | commandEnd (k : Nat)
  /-- HOP_START (R300). A tier hop starts a step once windows and the previous hop allow. -/
  | hopStart (slot : Nat) (hop : Nat)
  /-- HOP_COMPLETE (R300). A tier hop completes a step; a last hop delivers it. -/
  | hopComplete (slot : Nat) (hop : Nat)
  /-- LATENESS_RECOMPUTE (R301). The tier engine recomputes lateness and stretch after MCNT or a hop changes. -/
  | latenessRecompute (slot : Nat)
  /-- JOIN (R307). A subscriber's join reaches the rope source and is accepted or refused. -/
  | join (k : Nat)
  /-- ROPE_SEND (R307). The source begins sending a rope step within the slack. -/
  | ropeSend (slot : Nat)
  /-- CONSUMED_REPORT (R307). A subscriber's consumed-step report reaches the source and updates CONS. -/
  | consumedReport (k : Nat)
  /-- MULTICAST_LANDING (R308). A multicast copy arrives at a subscriber as its H1 or is discarded. -/
  | multicastLanding (k : Nat)
  /-- SUBSCRIBER_LEAVE (R308). A subscriber leaves the rope and is excluded from CONS. -/
  | subscriberLeave (slot : Nat) (pkg : Nat)
  /-- FLIT_RECEIVE (R353). A fabric flit is received and applied once in per-pair order. -/
  | flitReceive (k : Nat)
  /-- FLIT_REOFFER (R352). A returned flit is offered again when a reserved row frees. -/
  | flitReoffer (k : Nat)
  /-- COLLECTIVE_ANNOUNCE (R343). A member's announcement reaches a peer and is compared. -/
  | collectiveAnnounce (k : Nat)
  /-- MEMBER_WITHDRAW (R343). A withdrawal reaches a peer, which ends CANCELLED. -/
  | memberWithdraw (k : Nat)
  /-- REMOTE_ROW_HANDOFF (R198). A remote MEPI row is handed to splice egress. -/
  | remoteRowHandoff (core : Nat) (sub : Nat)
  /-- REMOTE_ROW_ARRIVAL (R198). A remote MEPI row arrives at the destination bank controller and is checked. -/
  | remoteRowArrival (k : Nat)
  /-- SIGNAL_APPLY (R355). A signal's flag is translated and applied at the target. -/
  | signalApply (k : Nat)
  /-- LINK_REPLAY (R359). A replay request makes the port re-send from the failed flit. -/
  | linkReplay (port : Nat)
  /-- LINK_RETRAIN (R359). Too many replays in 1 ms retrain a port one rate down. -/
  | linkRetrain (port : Nat)
  /-- PORT_DOWN (R359). Too many replays at 112 Gb/s take a port down and traffic moves. -/
  | portDown (port : Nat)
  /-- LINK_FAILURE (R356). A link fails and unacknowledged flits are re-sent on other paths. -/
  | linkFailure (port : Nat)
  /-- BAR_PHASE_ADVANCE (R334). 96 clocks after the last arrival the barrier's PHASE advances and waiters complete. -/
  | barPhaseAdvance (b : Nat)
  /-- REQUEST_ARRIVAL (R331). An aligned 64-byte inlet write through a virtual function arrives as one request. -/
  | requestArrival (inlet : Inlet) (line : BitVec 512)
  /-- BATCH_OPEN (R331). A batch opens once its TCB slot is free. -/
  | batchOpen (chan : Nat)
  /-- BATCH_DEADLINE (R331). The deadline expires and the open batch closes. -/
  | batchDeadline (chan : Nat)
  /-- SUB_ARRAY_REPLAY (R370). A sub-array replays its words after an uncorrectable error or mismatch. -/
  | subArrayReplay (core : Nat) (sub : Nat)
  /-- QUAD_TEST (R381). A quad's in-field test starts at its period or journal threshold. -/
  | quadTest (quad : Nat)
  /-- QUAD_TEST_PASS (R381). A passing test returns the quad to service and clears its journals. -/
  | quadTestPass (quad : Nat)
  /-- QUAD_TEST_FAIL (R383). A failing test sends suspect notices and takes the quad out of service. -/
  | quadTestFail (quad : Nat)
  /-- SPARE_SUBSTITUTION (R10). A spare core takes over a failed core's number when it holds no unit. -/
  | spareSubstitution (core : Nat)
  /-- MIGRATION_REMAP (R274). A migrated page is remapped in one instant and waiting writes perform on the new copy. -/
  | migrationRemap (k : Nat)
  /-- INVALIDATION (R242). An invalidation record written to INVDB drops cached translations. -/
  | invalidation (part : Nat) (addr : Word)
  /-- INVALIDATION_DONE (R242). Once in-flight counts reach zero the invalidation STATUS becomes done. -/
  | invalidationDone (part : Nat)
  /-- CREATE (R388). Management command creating a partition from a descriptor. -/
  | create (m : Window)
  /-- RESIZE (R389). Management command granting and withdrawing partition resources. -/
  | resize (m : Window)
  /-- DESTROY (R390). Management command cancelling and freeing a partition. -/
  | destroy (m : Window)
  /-- PREEMPT (R385). Management command requesting pre-emption of a unit. -/
  | preempt (m : Window)
  /-- LINKUP (R395). Management command retraining a fabric port upward. -/
  | linkup (m : Window)
  /-- ATTEST (R397). Management command writing a signed attestation report. -/
  | attest (m : Window)
  /-- TELEMETRY (R311). Stack-management command returning telemetry. -/
  | telemetry (m : Window)
  /-- SCRUB (R311). Stack-management command setting the scrub period. -/
  | scrub (m : Window)
  /-- RETAIN (R310). Stack-management command entering or leaving deep retention. -/
  | retain (m : Window)
  /-- RETENTION_POWER_OFF (R310). Layer groups power off once in-flight counts reach zero. -/
  | retentionPowerOff (stack : Nat)
  /-- REPAIRLOG (R311). Stack-management command returning repair log entries. -/
  | repairlog (m : Window)
  /-- RECOVER (R386). Recovery command verifying and flashing a firmware image. -/
  | recover (m : Window)
  /-- RECOVER_RESET (R386). The device resets cold 1 ms after an accepted RECOVER. -/
  | recoverReset
  /-- PFEVSTAT_CLEAR (R386). Writing 1 clears pending physical-function vector bits. -/
  | pfevstatClear (value : Word)
  /-- PFERR_CLEAR (R386). Writing 1 clears PFERR bits. -/
  | pferrClear (value : Word)
  /-- EVSTAT_CLEAR (R393). Writing 1 clears pending virtual-function vector bits. -/
  | evstatClear (part : Nat) (value : Word)
  /-- REGISTER_WRITE (R386). A write to a register with no behaviour of its own. -/
  | registerWrite (off : Nat) (value : Word)
  /-- COLD_RESET (R396). Cold reset verifies firmware, trains memory and links and starts TNS. -/
  | coldReset
  /-- FUNCTION_LEVEL_RESET (R394). Resetting a virtual function cancels every node of its partition. -/
  | functionLevelReset (part : Nat)
  /-- PTP_SYNC (R399). A PTP Sync message disciplines TNS by slewing or stepping. -/
  | ptpSync (offset : Int)
  /-- PPS_EDGE (R399). The 1PPS input fixes a second boundary of TNS. -/
  | ppsEdge
  /-- DVFS_CHANGE (R398). A power limit changes supply and clock period, no figure in clocks. -/
  | dvfsChange (ps : Nat)
  /-- ILLEGAL (R21). A fetched scalar, vector or matrix word that names no instruction raises ILLEGAL. -/
  | illegal (st : Stream)
  /-- FETCH (R19). A sequencer about to issue from word 8192, or a scalar fetch that fails translation, execute permission or alignment, raises FETCH. -/
  | fetch (st : Stream)
  /-- STORE_ACKNOWLEDGEMENT (R251). The home acknowledges a store or accepts a COM atomic, performing it and releasing its request slot. -/
  | storeAcknowledgement (core : Nat) (k : Nat)
  /-- DIVIDER_FINISH (R140). The shared divider finishes a division after 36 clocks, writing its result and freeing itself for a waiting division. -/
  | dividerFinish (core : Nat)
  /-- PAGE_MIGRATION (R237). Device firmware sets MIG on a page and begins copying it to another tier. -/
  | pageMigration (part : Nat) (va : Word) (frame : Nat)
  /-- REFERENCE_LOST (R405). The time base loses its PTP or 1PPS reference and goes free-running, writing SYNC records. -/
  | referenceLost
  deriving DecidableEq, Repr

end Sys2Proof
end

