-- ==== Sys2Proof/Machine/CoreState.lean ====
section
/-! DEFINITION. The state of one core and its four units: everything chapters 05 to 13 and 15 to 17 give a
core (R80 to R98, R115 to R121, R142 to R166, R167 to R171, R183, R205, R239, R244, R248, R265, R276, R285,
R334, R349, R373). A map is a list of keys and values; a key that is absent has the default its reader names. -/
namespace Sys2Proof.Machine

/-- Privilege mode of a unit (R116, R118). -/
inductive Mode where
  | u | s
  deriving DecidableEq, Repr

/-- MODE of an engine stream (R83), in code order. -/
inductive StreamMode where
  | idle | armed | forked | bound | stopping | faulted
  deriving DecidableEq, Repr

/-- A modulo loop under way (R110, R111): the body's length and interval, Tcur, the slot t, the exit knot,
the counter that takes Tcur, and the loop buffer. `begun` says that the kernel-step update of slot t has been made. -/
structure ModState where
  len : Nat
  ii : Nat
  tcur : Nat
  t : Nat
  exk : BitVec 4
  exs : Bool
  ctr : Option (BitVec 2)
  begun : Bool
  body : List Nat
  deriving DecidableEq, Repr

/-- The state of an engine stream (R83). `issueAt` is the clock from which its sequencer may issue the
next word; `passed` says that the MWAIT the stream stands at has issued with the last course of its group and has still to wait
for its knot (R107). -/
structure Strm where
  mode : StreamMode
  pc : BitVec 14
  lc0 : BitVec 16
  lc1 : BitVec 16
  lc2 : BitVec 16
  lc3 : BitVec 16
  repn : BitVec 7
  repcnt : BitVec 7
  mod : Option ModState
  rotb : BitVec 4
  stampoff : BitVec 40
  cause : BitVec 8
  issueAt : Nat
  passed : Bool
  deriving DecidableEq, Repr

/-- Every field of R83 at its reset value. -/
def Strm.reset : Strm :=
  { mode := .idle, pc := 0, lc0 := 0, lc1 := 0, lc2 := 0, lc3 := 0, repn := 0, repcnt := 0, mod := none
    rotb := 0, stampoff := 0, cause := 0, issueAt := 0, passed := false }

/-- A vector operand with its field resolved at issue (R207): level, logical base index, and the amount
added to it, ROTB at level 1 and VBASE at level 2. -/
structure Opnd where
  level : Nat
  base : Nat
  shift : Nat
  deriving DecidableEq, Repr

/-- An entry of the tile table (R147), its PLACE as fields (R150, R151), the instance number of its owner
(R166), the clock from which FULL reads 1 (R152) and the clock at which its clearing ends (R156). -/
structure Tile where
  valid : Bool
  share : Bool
  acc : Bool
  full : Bool
  fullAt : Nat
  fmt : BitVec 4
  pl : BitVec 4
  owner : BitVec 2
  ownerUid : Nat
  sub : BitVec 4
  gen : BitVec 8
  rowsm1 : BitVec 12
  colsm1 : BitVec 12
  arrival : BitVec 24
  target : BitVec 24
  p0 : Nat
  p1 : Nat
  p2 : Nat
  p3 : Nat
  clearing : Option Nat
  deriving DecidableEq, Repr

/-- A vector word issued and not finished (R91, R93): its operands, VSHAPE at issue, issue clock, the next
row to land, the tile it reads or deposits into as placed at issue, its token, its word number, the rows it
will land, and the source rows that have been checked for the reserved T2 code (R63). -/
structure VFlight where
  id : Nat
  uid : Nat
  slot : Nat
  op : VOp
  typ : Fmt
  src : Option Fmt
  a : Opnd
  b : Opnd
  c : Opnd
  dst : Opnd
  rnd : BitVec 2
  sat : Bool
  rows : Nat
  lanes : Nat
  issue : Nat
  next : Nat
  give : BitVec 4
  pc : BitVec 14
  knot : BitVec 4
  handle : BitVec 12
  gen : BitVec 8
  trow : Nat
  tseg : Nat
  tile : Tile
  last : Nat
  checked : Nat
  deriving DecidableEq, Repr

/-- A row write of a latency shadow (R373, R376): the row, its landing clock counted from the first course after the return, the lanes it
writes and their values. -/
structure PendWrite where
  row : Nat
  off : Nat
  lanes : BitVec 32
  value : Row
  deriving DecidableEq, Repr

/-- The vector sequencer (R82, R83, R92, R205): its owner, whether ENG.STOP has released it, the stream, VSHAPE, the clocks from which pipes A
and B are free, the words in flight, and the row writes of a latency shadow that a return brought back, with the clock of the
first course after it once that has issued (R373). -/
structure Vec where
  owner : Option Nat
  released : Bool
  strm : Strm
  rows : Nat
  lanes : Nat
  pipeA : Nat
  pipeB : Nat
  nextId : Nat
  flights : List VFlight
  shadow : List PendWrite
  base : Option Nat
  deriving DecidableEq, Repr

/-- No owner and VSHAPE at its reset value (R205). -/
def Vec.reset : Vec :=
  { owner := none, released := false, strm := Strm.reset, rows := 1, lanes := 32, pipeA := 0, pipeB := 0, nextId := 0, flights := []
    shadow := [], base := none }

/-- A knot write not yet visible (R97): the clock it becomes visible in, the writer's place in the stream
order of R95, the knot and its value. -/
structure KnotWrite where
  due : Nat
  order : Nat
  knot : BitVec 4
  value : Bool
  deriving DecidableEq, Repr

/-- A token queue (R93): the instance number of its owner, COUNT and RSV. -/
structure TokQ where
  owner : Option Nat
  count : Nat
  rsv : Nat
  deriving DecidableEq, Repr

/-- An entry at reset (R147). -/
def Tile.reset : Tile :=
  { valid := false, share := false, acc := false, full := false, fullAt := 0, fmt := 0, pl := 0, owner := 0
    ownerUid := 0, sub := 0, gen := 0, rowsm1 := 0, colsm1 := 0, arrival := 0, target := 0, p0 := 0, p1 := 0
    p2 := 0, p3 := 0, clearing := none }

/-- A shape record (R163). -/
structure Shape where
  rowoff : Nat
  coloff : Nat
  rowstr : Int
  colstr : Int
  rows : Nat
  cols : Nat
  trans : Bool
  deriving DecidableEq, Repr

/-- The natural shape, record 0 (R163). -/
def Shape.natural : Shape :=
  { rowoff := 0, coloff := 0, rowstr := 1, colstr := 1, rows := 0, cols := 0, trans := false }

/-- The tag of one brick of a weight set (R183): VALID, source handle and its GEN. -/
structure Tag where
  valid : Bool
  handle : BitVec 12
  gen : BitVec 8
  deriving DecidableEq, Repr

/-- What a matrix word in flight does at retirement: a load of the shadow set (R189), an accumulate with the
blocks it wrote, whether it met a reserved code, and the blocks whose INV it clears (R193, R201), an epilogue with the source rows not yet handed to egress, a
load issued again by a replay, which met a reserved code or not (R203), or nothing. -/
inductive MEffect where
  | none
  | load (tile : Tile) (handle : BitVec 12) (digits : Nat) (clr : Bool) (br0 : Nat) (bc0 : Nat)
  | mac (hc : BitVec 12) (blocks : List Nat) (reserved : Bool) (clears : List Nat)
  | epi (ha : BitVec 12)
  | epiRemote (ha : BitVec 12) (rows : List RemoteRow)
  | again (reserved : Bool)
  deriving DecidableEq, Repr

/-- A matrix word issued and not finished (R186): `retired` once it has retired and waits only for its
deposits or remote rows before its GIVE (R93), `unacked` of them handed to egress and not acknowledged or held in landing rows, `stuck`
while its next remote row stands mismatched (R369), `late` by how many clocks its remote rows so far went late. -/
structure MFlight where
  id : Nat
  uid : Nat
  slot : Nat
  issue : Nat
  due : Nat
  mark : Bool
  give : BitVec 4
  pc : BitVec 14
  handles : List (BitVec 12)
  effect : MEffect
  retired : Bool
  unacked : Nat
  stuck : Bool
  late : Nat
  deriving DecidableEq, Repr

/-- A word of the retained replay window (R203): the word, its issue clock and the clock it retires, MARK, the handles it names, its effect
at retirement, the blocks it wrote and whether an
MMAC with ACCDIS wrote them, whether it is an MEPI and what that deposits or hands over in all, the blocks whose INV it sets
and clears, and whether an operand it read is uncorrectable. -/
structure WinWord where
  word : Instr
  id : Nat
  pc : BitVec 14
  issue : Nat
  due : Nat
  mark : Bool
  handles : List (BitVec 12)
  effect : MEffect
  blocks : List Nat
  accdis : Bool
  mepi : Bool
  out : Nat
  sets : List Nat
  clears : List Nat
  bad : Bool
  deriving DecidableEq, Repr

/-- The kinds of sub-array (R169). -/
inductive SubKind where
  | loc | tall | wide | square
  deriving DecidableEq, Repr

/-- A sub-array of the bond and its state (R168, R183, R184): holder, rectangle, weight sets by cell (36 bits of
digit planes under 16 bits of head), tags by brick, accumulator pool by element, invalid blocks, the clocks from
which its load path, array and drain path are free, the words in flight, the replay window, and the blocks written since MCNT last
advanced, of which the window may hold only the latest (R371). -/
structure Sub where
  holder : Nat
  slot : Nat
  kind : SubKind
  row0 : Nat
  h : Nat
  col0 : Nat
  w : Nat
  set0 : List (Nat × BitVec 52)
  set1 : List (Nat × BitVec 52)
  actsel : Bool
  afmt : BitVec 4
  sfmt : BitVec 4
  atag : List (Nat × Tag)
  stag : List (Nat × Tag)
  mcnt : BitVec 32
  erow : BitVec 12
  inv : List Nat
  win : List WinWord
  age : Nat
  touched : List Nat
  replayTo : Nat
  acc : List (Nat × Lane)
  loadFree : Nat
  arrayFree : Nat
  drainFree : Nat
  nextId : Nat
  flights : List MFlight
  usable : Nat
  deriving DecidableEq, Repr

/-- A completion record or splice report (R284), with the clock it entered its queue in (R285). -/
structure Rec where
  entered : Nat
  status : BitVec 8
  sub : BitVec 8
  engine : BitVec 8
  flags : BitVec 8
  tagq : BitVec 32
  sig : BitVec 32
  detail : BitVec 32
  tns : Word
  count : Word
  deriving DecidableEq, Repr

/-- A layout record as snapshot (R246), with the bits of one element and whether an element is an image. -/
structure Layout where
  bits : Nat
  image : Bool
  base : Nat
  ext : List Nat
  str : List Int
  rank : Nat
  fmt : Fmt
  pad : Lane
  deriving DecidableEq, Repr

/-- A page a command holds pinned (R240): first virtual address, span, physical address and the leaf. -/
structure Pin where
  vpage : Nat
  span : Nat
  pa : Nat
  attr : Word
  deriving DecidableEq, Repr

/-- A command accepted by PORT.GO (R278): its quad, engine, poster, instance and partition, sequence number,
the layout records snapshotted in order, its pins, the 128-byte parameter block when it names one,
and the poster's access counter and the clock at the push (R141, R266). -/
structure Cmd where
  id : Nat
  eng : Nat
  quad : Quad
  core : Nat
  slot : Nat
  uid : Nat
  part : Nat
  seq : BitVec 24
  layouts : List Layout
  pins : List Pin
  block : List Byte
  pushed : Nat
  posted : Nat
  deriving DecidableEq, Repr

/-- A port (R276); `haltAt` is the clock of the error that halted it, HALTED being set from the next one on (R282). -/
structure Port where
  cw0 : Word
  cw1 : Word
  cw2 : Word
  cw3 : Word
  written : BitVec 4
  queue : List Cmd
  halted : Bool
  haltAt : Nat
  deriving DecidableEq, Repr

/-- A port at dispatch (R276). -/
def Port.reset : Port :=
  { cw0 := 0, cw1 := 0, cw2 := 0, cw3 := 0, written := 0, queue := [], halted := false, haltAt := 0 }

/-- A cause of an engine stream or engine that the unit has not taken (R122, R125). -/
structure Pending where
  stream : Nat
  cause : BitVec 8
  eval : Word
  deriving DecidableEq, Repr

/-- An incomplete FENCE (R264): its after-mask and the accesses it counted, by number. -/
structure FenceW where
  after : BitVec 16
  counted : List Nat
  deriving DecidableEq, Repr

/-- The unit's register of one route-tag barrier (R334). -/
structure BarReg where
  aph : BitVec 32
  arr : Bool
  deriving DecidableEq, Repr

/-- A unit slot (R80, R115 to R121, R143, R276, R285, R334): `live` while it holds a unit. `group` is
the mask of its bound group, armed or launched (R86), `engineAt` the clock from which its engine streams may issue after
a return (R362); `snap` keeps the port
flags as they stood at the start of a clock in which they changed (R288); `away` is the clock at which issue of the bound group
stopped for a trap (R109); `bond` is the record a waiting FAB.BOND has read (R174); `ending` is the cause with which the unit is about to end (R125, R440);
`stepped` says that BRK follows once the word just issued has completed (R138), `leaving` that the bound group leaves bound mode at the
next course boundary (R87), `fore` holds the pieces its next word has read of a record before it reads the others (R263), `woken` is the clock in which TNS reached the
time a SLEEPUNTIL waits for (R402), `diverged` says that the checker core disagrees and no compared word has issued since, and `compare` is the
compared word that carries the disagreement: the clock at which the hashes are compared, its address, and whether it issued in S mode
(R141). -/
structure Unit where
  live : Bool
  uid : Nat
  part : Nat
  task : Nat
  regs : Vector Word 32
  pc : Word
  mode : Mode
  sstep : Bool
  evl : Bool
  unitid : Word
  argp : Word
  tcbp : Word
  tvec : Word
  epc : Word
  ecause : Word
  eval : Word
  sscratch : Word
  uscratch : Word
  vbase : Nat
  vlen : Nat
  group : BitVec 9
  engineAt : Nat
  pending : List Pending
  wait : Option Instr
  bond : List Byte
  ready : List (Nat × Nat)
  fences : List FenceW
  ports : List (Nat × Port)
  evq : List Rec
  evqRsv : Nat
  bars : List (Nat × BarReg)
  snap : Option (Nat × BitVec 20)
  away : Option Nat
  ending : Option (BitVec 8)
  stepped : Bool
  leaving : Bool
  woken : Option Nat
  fore : List (Nat × List Byte)
  diverged : Bool
  compare : Option (Nat × Word × Bool)
  deriving DecidableEq, Repr

/-- A slot that holds no unit. -/
def Unit.reset : Unit :=
  { live := false, uid := 0, part := 0, task := 0, regs := Vector.replicate 32 0, pc := 0, mode := .u
    sstep := false, evl := false, unitid := 0, argp := 0, tcbp := 0, tvec := 0, epc := 0, ecause := 0, eval := 0
    sscratch := 0, uscratch := 0, vbase := 0, vlen := 0, group := 0, engineAt := 0, pending := [], wait := none, bond := []
    ready := [], fences := [], ports := [], evq := [], evqRsv := 0, bars := [], snap := none, away := none, ending := none, stepped := false
    leaving := false, woken := none, fore := [], diverged := false, compare := none }

/-- The shared divider at work (R140): who waits for what, and the clock at which it finishes. -/
structure Divide where
  slot : Nat
  uid : Nat
  rd : BitVec 5
  value : Word
  due : Nat
  deriving DecidableEq, Repr

/-- The operations of AMO and CAS (R253, R254). -/
inductive AtomOp where
  | add | and | or | xor | min | max | swap | cas
  deriving DecidableEq, Repr

/-- What an update does to a barrier object (R335, R336). -/
inductive BobOp where
  | arrive
  | expect (n : Nat)
  | engine (count : Nat) (status : BitVec 8)
  deriving DecidableEq, Repr

/-- What another package of the load-store domain does to memory (R257, R275): a store, an atomic on some bytes, or an update of a barrier
object. Its loads, and the values its atomics return, are seen there alone. -/
inductive RemoteOp where
  | write (bytes : List Byte)
  | atom (op : AtomOp) (n : Nat) (b expect : Word)
  | bob (op : BobOp)
  deriving DecidableEq, Repr

/-- What a scalar memory access does at its home (R250 to R254). -/
inductive AccKind where
  | load (signed : Bool)
  | store (data : Word)
  | atom (op : AtomOp) (use : BitVec 3) (b : Word) (expect : Word) (rb : BitVec 5)
  deriving DecidableEq, Repr

/-- A scalar access issued and not performed (R244, R256): its number, unit, partition, word address, class, bytes, destination register,
whether a request slot has been granted and whether that is one of the unit's reserve, the page's leaf with its first virtual address
and span, its issue clock, whether it issued in S mode, whether it is a piece of a record and shares the slot of the record's last
piece (R244), the later QNT add it is merged into (R269), and whether it is an SPC atomic that a later COM or NOR of its class has passed,
so that its status orders nothing (R267). -/
structure Access where
  id : Nat
  slot : Nat
  uid : Nat
  part : Nat
  pc : Word
  kind : AccKind
  cls : BitVec 4
  va : Nat
  pa : Nat
  n : Nat
  rd : BitVec 5
  leaf : Word
  vpage : Nat
  span : Nat
  granted : Bool
  reserve : Bool
  issue : Nat
  smode : Bool
  ride : Bool
  join : Option Nat
  passed : Bool
  deriving DecidableEq, Repr

/-- A cached translation (R239): partition, virtual page, span and leaf. -/
structure TlbEntry where
  part : Nat
  vpage : Nat
  span : Nat
  leaf : Word
  deriving DecidableEq, Repr

/-- A unit's image set on a core (R377): vector words, matrix words and shape records written for it. -/
structure ImageSet where
  uid : Nat
  vwords : List Nat
  mwords : List Nat
  shapes : List Nat
  deriving DecidableEq, Repr

/-- What a deposit does with the word it quotes (R152, R345, R348): it writes, or it combines by sum, least or greatest in a
format. -/
inductive DepKind where
  | write
  | sum (f : Fmt)
  | least (f : Fmt)
  | most (f : Fmt)
  deriving DecidableEq, Repr

/-- Who makes a deposit (R152, R256), and for which of its words or commands. -/
inductive DepSrc where
  | vec (core id : Nat)
  | mat (core sub id : Nat)
  | cmd (id : Nat)
  | hop (slot step : Nat)
  | net (pkg cmd tgt : Nat)
  | row (pkg core sub dcore : Nat)
  deriving DecidableEq, Repr

/-- A RANKED contribution held in a landing row (R349): it has not been counted, and its source is still owed that. -/
structure Park where
  src : DepSrc
  handle : BitVec 12
  gen : BitVec 8
  word : Nat
  key : Nat
  data : Lane
  mask : Lane
  kind : DepKind
  cls : BitVec 4
  bad : Bool
  deriving DecidableEq, Repr

/-- A tile that RANKED contributions have reached (R349): s, the segments complete in this fill, and whether its
reservation of s rows has been gained. -/
structure RankTile where
  handle : BitVec 12
  gen : BitVec 8
  s : Nat
  complete : List Nat
  gained : Bool
  deriving DecidableEq, Repr

/-- Uncorrectable data that a sub-array consumes, or a mismatch on one of its words, not yet answered (R203, R371): the sub-array, the
clock in which it arises, the accumulator block it lies in if it lies in one, and the cause. -/
structure SubUpset where
  sub : Nat
  due : Nat
  block : Option Nat
  cause : BitVec 8
  deriving DecidableEq, Repr

/-- A package as the destination of what leaves a core: `none` this package. -/
abbrev Dest := Option Nat

/-- An entry of a core's egress journal (R382): destination partition and package, TNS of the first and the last egress. -/
structure Egress where
  part : Nat
  pkg : Dest
  first : Nat
  last : Nat
  deriving DecidableEq, Repr

/-- One core. `dirty` holds the granules written since the last image (R378) by kind and place, `badRows` the vector rows and
`badWords` the instruction words (matrix ones from 8192 on) whose content is uncorrectable (R367), `mismatch` whether the checker
disagrees on the next vector word (R369), `upset` the sub-arrays that are to replay, with their cause (R203), `icache` the lines of
the scalar instruction cache, latest first, with those whose copy is uncorrectable (R11, R367), `seen` the clock in which TSETF or
TINFO last acted on a handle, after that clock's deposits (R154, R160), and `journal` the egress journal (R382). `brief` are the request
slots of reads that are over within the clock, by requester and whether they are of a reserve, `asks` and `asked` the requesters that have
found no shared slot in this clock and the one before, and `hodLines` the shared slots the hod engine's line requests hold (R244, R245);
`hodReq` is the clock from which that engine may request a line, and `hodCur` the command it serves (R290). -/
structure Core where
  units : List (Nat × Unit)
  lastSlot : Nat
  issuedAt : Option Nat
  divider : Option Divide
  vec : Vec
  mats : List (Nat × Strm)
  vrows : List (Nat × Row)
  rowLog : List (Nat × Nat × Row)
  tiles : List (Nat × Tile)
  scratch : List (Nat × Lane)
  scrLog : List (Nat × Nat × Lane)
  spoil : List Nat
  shapes : List (Nat × Shape)
  imemV : List (Nat × BitVec 96)
  imemM : List (Nat × BitVec 192)
  images : List ImageSet
  knots : BitVec 16
  knotw : List KnotWrite
  tokq : List (Nat × TokQ)
  subs : List (Nat × Sub)
  hodSeq : BitVec 24
  hodLast : Nat
  hodReq : Nat
  hodCur : Option Nat
  hodLines : Nat
  brief : List (Nat × Bool)
  asks : List Nat
  asked : List Nat
  accs : List Access
  accSeq : Nat
  grantLast : Nat
  tlb : List TlbEntry
  lyc : List (Nat × Nat)
  parked : List Park
  ranks : List RankTile
  lrows : List (Nat × Nat)
  dirty : List (Nat × Nat)
  badRows : List Nat
  frozen : List (Nat × BitVec 32)
  badWords : List Nat
  mismatch : Bool
  upset : List SubUpset
  icache : List (Nat × Bool)
  seen : List (Nat × Nat)
  journal : List Egress
  deriving DecidableEq, Repr

/-- A core at reset (R83, R96, R147, R183, R205, R279); storage reads zero (log 3). -/
def Core.reset : Core :=
  { units := [], lastSlot := 3, issuedAt := none, divider := none, vec := Vec.reset, mats := [], vrows := []
    rowLog := [], tiles := [], scratch := [], scrLog := [], spoil := [], shapes := [], imemV := [], imemM := []
    images := [], knots := 0, knotw := [], tokq := [], subs := [], hodSeq := 0, hodLast := 3, hodReq := 0, hodCur := none, hodLines := 0
    brief := [], asks := [], asked := [], accs := [], accSeq := 0, grantLast := 0, tlb := [], lyc := [], parked := [], frozen := [], ranks := [], lrows := []
    dirty := [], badRows := [], badWords := [], mismatch := false, upset := [], icache := [], seen := [], journal := [] }

end Sys2Proof.Machine
end

