-- ==== Sys2Proof/Machine/PackageState.lean ====
section
/-! DEFINITION. The state outside the cores: partitions, work, tiers, fabric, host interface and time base
(chapters 11, 13 to 19). -/
namespace Sys2Proof.Machine

/-- A memory window of a partition (R387): physical base, length in bytes, tier. -/
structure Win where
  base : Nat
  len : Nat
  tier : Nat
  deriving DecidableEq, Repr

/-- A partition's descriptor (R387) as fields, with its bytes as they were given; `quadsOut` holds the quads a RESIZE or a DESTROY
is withdrawing (R389). -/
structure Part where
  schedw : Nat
  armmax : Nat
  keybase : Nat
  keycnt : Nat
  tblkey : Nat
  ctxkey : Nat
  quads : List Nat
  quadsOut : List Nat
  root : Nat
  ltbase : Nat
  ltlen : Nat
  tvec : Word
  ctxva : Nat
  ctxlen : Nat
  trva : Nat
  trlen : Nat
  fablo : Nat
  fabhi : Nat
  itbase : Nat
  itcnt : Nat
  gatmask : BitVec 16
  barmask : BitVec 8
  lnbase : Nat
  lncnt : Nat
  grbase : Nat
  grcnt : Nat
  phbase : Nat
  phcnt : Nat
  jbbase : Nat
  jbcnt : Nat
  wins : List Win
  raw : List Byte
  deriving DecidableEq, Repr

/-- A deposit made and not yet counted (R152): the tile it quotes, the 4-byte word, the data and the bits it
changes, what it does with the word (R348), the clock before which it does not land, whether it must
match the quoted generation, its source key when it is RANKED (R349), its class, whether it has met a FULL tile, and whether
its data is uncorrectable (R367). -/
structure Deposit where
  src : DepSrc
  core : Nat
  handle : BitVec 12
  gen : BitVec 8
  word : Nat
  data : Lane
  mask : Lane
  kind : DepKind
  ranked : Option Nat
  cls : BitVec 4
  due : Nat
  held : Bool
  bad : Bool
  deriving DecidableEq, Repr

/-- A command its engine has started and not ended (R276, R281): its record's status, sub-status, DETAIL and COUNT
so far, whether the engine has done its own work, the lines it still has to write to gatherer inlets (R328), the
further records that wait for an entry (R281), and the command whose record a TIER.STOP waits for (R305). Of a hod command: the next
element, what it has read and written so far, the lines it has requested for that element, and the request slots these hold (R244,
R290). -/
structure Run where
  cmd : Cmd
  status : BitVec 8
  sub : BitVec 8
  detail : Nat
  count : Nat
  worked : Bool
  lines : List (Nat × BitVec 512)
  more : List Rec
  waits : Option Nat
  pos : Nat
  got : List (Nat × Nat × Bool)
  out : List (Nat × Byte)
  cover : List (Nat × BitVec 512)
  opened : List (Nat × Bool)
  slots : Nat
  deriving DecidableEq, Repr

/-- A page under migration (R237, R274): its partition, first virtual address, span, old and new frame address. -/
structure Mig where
  part : Nat
  va : Nat
  span : Nat
  old : Nat
  new : Nat
  deriving DecidableEq, Repr

/-- An invalidation under way (R242): the record's physical address, and the range of virtual addresses. -/
structure Inval where
  part : Nat
  addr : Nat
  lo : Nat
  hi : Nat
  deriving DecidableEq, Repr

/-- A step of an itinerary that the tier engine has read (R298, R300): its fields, the footprint's first address and
bytes, the hops it has started and completed, the pages pinned for it, whether H2 has made its deposits, the bytes of a copy that lands with
those uncorrectable, the pieces that H2 reads before the others (R263), whether it has been
delivered, and whether MCNT has reached its effective due point. -/
structure TStep where
  sly : Nat
  hops : Nat
  handle : BitVec 12
  sub : Nat
  gen : BitVec 8
  core : Nat
  due : Nat
  lpva : Nat
  stva : Nat
  lo : Nat
  len : Nat
  layout : Option Layout
  started : List Nat
  done : List Nat
  pins : List Pin
  moved : Bool
  pos : Nat
  copy : List Byte
  spoilt : List Nat
  fore : List (Nat × List Byte)
  delivered : Bool
  reached : Bool
  deriving DecidableEq, Repr

/-- A subscriber as a rope's source knows it (R306, R307): its package, steps consumed, steps landed and acknowledged. -/
structure Subscriber where
  pkg : Nat
  consumed : Nat
  acked : List Nat
  deriving DecidableEq, Repr

/-- A running itinerary (R296 to R308): its command, role (0 TIER.RUN, 1 source, 2 subscriber), partition, head fields by
hop, MBASE, FIRST, the steps read, L(h) and the consumer it was computed for, the hops and clocks L(h) is to be recomputed in, the
LATE records written, the lowest failed step with its status, the TIER.STOP that stops it, what it has delivered, and the rope's own
state; `gone` says that a subscriber has told its source that it leaves (R308). -/
structure Itin where
  cmd : Nat
  role : Nat
  part : Nat
  iva : Nat
  nsteps : Nat
  prog : Bool
  tracel : Int
  wsteps : List Nat
  wbytes : List Nat
  lead : List Nat
  thresh : List Int
  gain : List Nat
  mbase : Nat
  first : Nat
  steps : List (Nat × TStep)
  lat : List Int
  names : List (Option (Nat × Nat))
  dirty : List (Nat × Nat)
  late : List (Nat × Nat)
  fail : Option (Nat × BitVec 8 × BitVec 8)
  stop : Option Bool
  delivered : Nat
  bytes : Nat
  rope : Nat
  peer : Nat
  slack : Nat
  nsub : Nat
  accepted : Nat
  subs : List Subscriber
  sent : Nat
  joined : Bool
  consumed : Nat
  left : Nat
  gone : Bool
  deriving DecidableEq, Repr

/-- The time base (R399, R400): TNS, the fraction of a nanosecond in units of 1/21000 ns, the length of a clock in those
units (20000 nominal, R1), the offset still to be slewed in those units, the ns TNS steps forward by as the next clock begins, and the
state of SYNC records (R405). -/
structure TimeBase where
  tns : Nat
  frac : Nat
  period : Nat
  slew : Int
  jump : Nat
  st : Nat
  deriving DecidableEq, Repr

/-- The trace writer's own counts of a partition (R403): WRPTR, LOST, records lost since the last LOST record, and
whether the last record was written. -/
structure Trace where
  wrptr : Nat
  lost : Nat
  unreported : Nat
  ok : Bool
  deriving DecidableEq, Repr

/-- A trace record on its way to the trace writer (R404): its partition, the engine id and core of its source, its bytes, and the TRC.MARK
that waits for its index. -/
structure TraceIn where
  part : Nat
  eng : Nat
  core : Nat
  bytes : List Byte
  cmd : Option Nat
  deriving DecidableEq, Repr

/-- A write that waits at its home (R237, R274): its first physical address and its bytes, and the partition whose trace writer it comes
from, if it does, which writes in order (R403). -/
structure Held where
  pa : Nat
  bytes : List Byte
  trace : Option Nat
  deriving DecidableEq, Repr

/-- A node of the hierarchy (R312). -/
structure Node where
  done : BitVec 32
  fail : BitVec 32
  live : BitVec 32
  cxl : Bool
  deriving DecidableEq, Repr

/-- STATE of a TCB, in code order (R313). -/
inductive TState where
  | free | wait | ready | run | done | held | failed | cancelled
  deriving DecidableEq, Repr

/-- The scheduler's copy of an armed TCB (R316, R318): its address and pinned translation, bytes 0 to 119 as read, the
fields it writes, the TNS since which it is READY, the TNS since which it stands undispatchable at the head of its queue and
whether it has become blocking (R326), the first virtual address and span of its page (R242), and the ns it had been READY when it was
dispatched (R324, R327). -/
structure Task where
  part : Nat
  va : Nat
  pa : Nat
  leaf : Word
  body : List Byte
  depcnt : Nat
  state : TState
  status : BitVec 8
  retries : Nat
  dupdec : Bool
  aseq : Nat
  readyAt : Nat
  headAt : Option Nat
  blocking : Bool
  vpage : Nat
  span : Nat
  waited : Nat
  deriving DecidableEq, Repr

/-- A decrement on its way to a TCB (R317 to R319), or the cancellation of a successor (R320): partition, address and page as
translated; what must be performed before it: accesses of a core by number, and the commands and remote rows of a unit; the first
virtual address and span of its page; and the task that releases its successors, in whose order they come. -/
structure Decr where
  part : Nat
  va : Nat
  pa : Nat
  leaf : Word
  cancel : Bool
  core : Nat
  accs : List Nat
  uid : Option Nat
  vpage : Nat
  span : Nat
  src : Option Nat
  deriving DecidableEq, Repr

/-- A gatherer channel (R328 to R333): `batch` is the open batch's count and TFIRST, `owes` the TCB of a batch that has closed
and waits for room among the armed tasks, `closing` the requests a GAT.CLOSE with FLUSH found in the inlet. -/
structure Chan where
  opened : Bool
  halted : Option (BitVec 8)
  part : Nat
  buf : Nat
  breca : Nat
  tpl : Nat
  tcba : Nat
  deadline : Nat
  bm1 : Nat
  nbuf : Nat
  pins : List Pin
  inlet : List (BitVec 512 × Nat)
  bseq : Nat
  batch : Option (Nat × Nat)
  owes : Option (List Byte)
  drops : Nat
  closing : Option Nat
  deriving DecidableEq, Repr

/-- A route-tag barrier (R334): the quads whose cores take part in the current phase, PHASE, the cores that have
arrived, and the clock at which PHASE advances. -/
structure Bar where
  quads : List Nat
  phase : BitVec 32
  arrived : List Nat
  due : Option Nat
  deriving DecidableEq, Repr

/-- The package scheduler's turns (R325, R327): the partition whose turn it is, the dispatches left in it, the clock from
which the next decision may be made, and these three as they stood before the last decision. -/
structure Sched where
  turn : Nat
  credit : Nat
  next : Nat
  before : Nat × Nat × Nat
  deriving DecidableEq, Repr

/-- A context image of a task's chain (R375): virtual address, bytes, the pages pinned for it. -/
structure Image where
  va : Nat
  len : Nat
  pins : List Pin
  deriving DecidableEq, Repr

/-- A pre-empted unit (R182, R372, R377): its task, what its image leaves with the device (the unit's registers apart), the
core and slot it left, the sub-arrays with the blocks each has written since MCNT last advanced (R371), the token queues and image set its return needs, whether it owned the vector sequencer, its
unstarted hod commands with their pins, the remote MEPI words stopped between rows by sub-array, the records held for it at the
hub, and the clock in which it stopped. -/
structure Away where
  task : Nat
  unit : Unit
  core : Nat
  slot : Nat
  subs : List (Nat × SubKind × Nat × Nat)
  written : List (Nat × List Nat)
  toks : List Nat
  vec : Bool
  set : ImageSet
  hod : List Cmd
  flights : List (Nat × MFlight)
  recs : List Rec
  stopped : Nat
  deriving DecidableEq, Repr

/-- A member's announcement of a collective (R339, R343): the fields every member must agree on, the rank and core it is meant
for, the announcing rank, and where its destination elements stand. -/
structure Announce where
  collid : Nat
  rank : Nat
  tgt : Nat
  core : Nat
  agree : List Byte
  members : List Byte
  dst : Layout
  deriving DecidableEq, Repr

/-- The elements one splice flit carries (R344, R352): the collective or put they belong to, the sender, the destination rank
and core, the tile they go to if they do, the segment and whether the flit needs a new landing row and ends the segment, and the
elements by flat index, those in `bad` read from uncorrectable data (R367); `group` is the member list, which tells two collectives of one
COLLID apart (R339). -/
structure Piece where
  group : List Byte
  collid : Nat
  put : Bool
  rank : Nat
  tgt : Nat
  srcPkg : Nat
  srcCore : Nat
  cmd : Nat
  core : Nat
  handle : BitVec 12
  gen : BitVec 8
  fmt : Fmt
  kind : DepKind
  ranked : Bool
  cls : BitVec 4
  width : Nat
  seg : Nat
  newRow : Bool
  last : Bool
  elems : List (Nat × Nat)
  bad : List Nat
  deriving DecidableEq, Repr

/-- What a flit carries (R198, R307, R343, R344, R355); the spec gives the header and not the payload's layout (log 15). -/
inductive FlitBody where
  | row (r : RemoteRow)
  | piece (p : Piece)
  | announce (a : Announce)
  | withdraw (group : List Byte) (collid rank tgt core : Nat)
  | retract (group : List Byte) (collid rank tgt core : Nat)
  | signal (core : Nat) (va : Nat) (value : Word) (add : Bool) (cls : BitVec 4) (cmd : Nat)
  | join (rope : Nat) (pkg : Nat) (cmd : Nat) (nsteps : Nat) (wsteps1 : Nat)
  | joinAnswer (rope : Nat) (cmd : Nat) (accepted : Bool) (window : Bool)
  | consumed (rope : Nat) (pkg : Nat) (count : Nat)
  | leave (rope : Nat) (pkg : Nat)
  | copy (rope : Nat) (step : Nat) (bytes : List Byte) (bad : List Nat)
  | copyAck (rope : Nat) (pkg : Nat) (step : Nat)
  | pieceAck (cmd tgt : Nat) (last refused : Bool)
  | signalAck (cmd : Nat) (cause : BitVec 8)
  | rowAck (r : RemoteRow) (refused : Bool)
  deriving DecidableEq, Repr

/-- A flit between two packages with its pair sequence number (R353, R358) and the clock in which it was handed over. -/
structure Flit where
  arrived : Nat
  src : Nat
  dst : Nat
  seq : BitVec 32
  body : FlitBody
  deriving DecidableEq, Repr

/-- An acknowledgement owed to a sender once deposits of a source have been counted (R176, R198, R354): the handles and words of those
still to be counted, whether one was refused, and the acknowledgement with the package it goes to. -/
structure Owed where
  src : DepSrc
  left : List (Nat × Nat)
  refused : Bool
  dst : Nat
  ack : FlitBody
  deriving DecidableEq, Repr

/-- A landing row of a transposing all-to-all at its destination (R352): sending package and command, segment, the elements
gathered with those uncorrectable, and whether its deposits are made. -/
structure LRow where
  pkg : Nat
  cmd : Nat
  seg : Nat
  elems : List (Nat × Nat)
  bad : List Nat
  closed : Bool
  deriving DecidableEq, Repr

/-- Elements still to be written to a member's memory destination, one by one (R263, R344): with those uncorrectable, the bytes for inlet
pages so far, the sending package and command whose landing row they stand in, and the acknowledgement due after the last. -/
structure WJob where
  elems : List (Nat × Nat)
  bad : List Nat
  out : List (Nat × Byte)
  cover : List (Nat × BitVec 512)
  row : Option (Nat × Nat)
  ack : Option (Nat × FlitBody)
  deriving DecidableEq, Repr

/-- A splice command that runs (R340 to R352): its command, own rank and core, what it announces, the rows it needs and whether
it holds them, whether it has announced itself, the peers still to be heard, those heard with their destinations, pieces that wait for a landing row
to be freed, unacknowledged pieces, landing rows held here, elements still to come, words already written, contributions held for
elements of a memory destination with the elements uncorrectable, pieces of its source read before the others (R263), payload bits sent, and what the free tree of an ARRIVAL reduction
is drawn by (log 16). -/
structure Coll where
  cmd : Cmd
  op : Nat
  rank : Nat
  core : Nat
  ann : Announce
  rows : Nat
  holds : Bool
  announced : Bool
  toHear : List Nat
  heard : List (Nat × Layout)
  shared : Bool
  queued : List (Nat × List Piece)
  unacked : List Nat
  landing : List LRow
  coming : Nat
  written : List Nat
  contrib : List (Nat × List (Nat × Nat))
  kept : List (Nat × Piece)
  jobs : List WJob
  bad : List Nat
  fore : List (Nat × List Byte)
  pruned : Nat
  sent : Nat
  seed : Nat
  fail : Option (BitVec 8 × BitVec 8 × Nat)
  deriving DecidableEq, Repr

/-- A fabric port (R358, R359): whether it is up, whether it runs at 224 Gb/s, and the TNS of its replays of the last ms. -/
structure FPort where
  up : Bool
  fast : Bool
  replays : List Nat
  deriving DecidableEq, Repr

/-- A quad's service (R381, R383, R389): in service, dispatch stopped for a test, the TNS its test began if it is under test, the TNS
of its last passing test, and the positions of its cores that have failed and no spare has replaced. -/
structure Quadrant where
  serving : Bool
  stopping : Bool
  test : Option Nat
  passed : Nat
  failed : List Nat
  deriving DecidableEq, Repr

/-- A mailbox of the physical function (R385, R386): its window, the command of it still pending, the partition as a RESIZE
found it and as it is to be, and whether a DESTROY has come to freeing the partition's resources (R389, R390). -/
structure Mailbox where
  window : Window
  cmd : Option Window
  resize : Option (Part × Part)
  freeing : Bool
  deriving DecidableEq, Repr

/-- A stack's management state (R310, R311): scrub period in ms, groups in retention, groups whose range has been removed and
that wait to be powered off. -/
structure Stack where
  scrub : Nat
  retained : BitVec 4
  leaving : BitVec 4
  deriving DecidableEq, Repr

/-- The device firmware's numbers (R386, R396): fused and running sequence numbers, whether the running image verified, the clock in which
an accepted RECOVER resets the device, the image in flash, and whether firmware has loaded TNS since reset (R399). -/
structure Firmware where
  fused : BitVec 32
  running : BitVec 32
  verified : Bool
  resetAt : Option Nat
  image : List Byte
  timed : Bool
  deriving DecidableEq, Repr

end Sys2Proof.Machine
end

