-- ==== Sys2Proof/Machine/State.lean ====
section
/-! DEFINITION. The machine's state as plain data, what can stop a step, and the state right after reset. -/
namespace Sys2Proof.Machine

/-- Why a step stops. -/
inductive Fault where
  /-- Raised by `step` alone, when the schedule's next turn names a core, sequencer, engine or unit slot that the
  machine does not have (R8, R80, R82, R276); no instruction raises it. Safe. -/
  | noAgent
  deriving DecidableEq, Repr

/-- Why an instruction is refused. -/
inductive Refusal where
  /-- Raised by an arm of `exec` whose instruction has no meaning yet. Safe. -/
  | notModelled (mnemonic : String)
  deriving DecidableEq, Repr

/-- A soft error or a mismatch that arises (R141, R203, R367 to R369; log 21): in a memory line, a scratchpad word, a vector row, an
instruction word, a line of the scalar instruction cache, a sub-array's weights or activations, one of its accumulator blocks or words,
the next vector word, the next remote row of a sub-array, the scalar stream of a unit, or a unit's context state. -/
inductive Upset where
  | line (l : Nat)
  | word (core key : Nat)
  | row (core row : Nat)
  | imem (core word : Nat)
  | icache (core line : Nat)
  | sub (core sub : Nat) (check : Bool) (block : Option Nat)
  | vector (core : Nat)
  | egress (core sub : Nat)
  | scalar (core slot : Nat)
  | context (core slot : Nat)
  deriving DecidableEq, Repr

/-- Who reads a piece of memory before the other pieces of what it reads (R263): the next word of a slot, a splice command its source,
or H2 of a step its bytes. -/
inductive Reader where
  | word (core slot : Nat)
  | share (cmd : Nat)
  | hop (slot step : Nat)
  deriving DecidableEq, Repr

/-- Whose turn it is (log 1): the scalar issue slot, vector sequencer or a matrix sequencer of a core, an engine
serving a unit's port, one of the part's own steps, a flit handed over by another package, an upset, a write of the host to an inlet that
is no whole line (R328), TNS loaded by firmware after a reset (R399), a path to a package that is cut or mended (R356), a piece that is
read early, the device's writing of records in pieces switched on or off, the next piece at an address written (R263), an operation on
domain memory from another package (R257; log 15), or a wait of some clocks. -/
inductive Turn where
  | scalar (core : Nat)
  | vector (core : Nat)
  | matrix (core sub : Nat)
  | engine (eng core slot : Nat)
  | occur (i : Instr)
  | flit (f : Flit)
  | upset (u : Upset)
  | shortWrite (fn chan : Nat)
  | loadTime (tns : Nat)
  | path (pkg : Nat) (up : Bool)
  | early (r : Reader) (pa : Nat)
  | slow (on : Bool)
  | perform (pa : Nat)
  | domain (pa : Nat) (op : RemoteOp)
  | clock (n : Nat)
  deriving DecidableEq, Repr

/-- Which unit and sequencer the next instruction acts for (log 1). -/
structure Focus where
  core : Nat
  slot : Nat
  sub : Nat
  deriving DecidableEq, Repr

/-- The machine; `heldw` holds the writes that wait at home for the remap of a page under migration, in their order (R237, R274), and, while `slow` is
set, the pieces of records and images that the device has still to write (R263), `traceq`
the trace records that have arrived in this clock (R404), `keys` the key ids granted, each with the number of its key pair (R392), and `spent` the announcements still to come that a collective which failed here has no more use for:
COLLID, the core they are for, and the package and core of the member (R339, R343). -/
structure State where
  clk : Nat
  mem : List Host.Cell
  cores : List (Nat × Core)
  parts : List (Nat × Part)
  deps : List Deposit
  cmds : List Run
  cmdSeq : Nat
  hubSeq : List (Nat × BitVec 24)
  tb : TimeBase
  traces : List (Nat × Trace)
  traceq : List TraceIn
  vfEv : List (Nat × BitVec 64)
  pfEv : BitVec 64
  keys : List (Nat × Nat)
  chans : List (Nat × Chan)
  bars : List (Nat × Bar)
  itins : List (Nat × Itin)
  hist : List (Nat × List Nat)
  tierLast : List (Nat × Nat)
  joins : List Flit
  net : List Flit
  sendSeq : List (Nat × BitVec 32)
  recvSeq : List (Nat × BitVec 32)
  migs : List Mig
  heldw : List Held
  slow : Bool
  invals : List Inval
  poison : List Nat
  tasks : List (Nat × Task)
  taskSeq : Nat
  armCtr : BitVec 32
  decrs : List Decr
  nodes : List (Nat × Node)
  sched : Sched
  uidSeq : Nat
  aways : List Away
  chains : List (Nat × List Image)
  owed : List Owed
  rowsOut : List (Nat × RemoteRow)
  colls : List Coll
  anns : List Flit
  spent : List (Nat × Nat × Nat)
  back : List Flit
  fports : List (Nat × FPort)
  cutPkgs : List Nat
  quads : List (Nat × Quadrant)
  spares : List (Nat × Nat)
  preempts : List (Nat × Nat)
  boxes : List (Nat × Mailbox)
  pfErr : Word
  hbm : List (Nat × Stack)
  fw : Firmware
  turns : List Turn
  focus : Focus
  fresh : Nat
  deriving DecidableEq, Repr

/-- The machine right after reset (R396): no partition exists, memory lists nothing. -/
def State.reset : State :=
  { clk := 0, mem := [], cores := [], parts := [], deps := [], cmds := [], cmdSeq := 0, hubSeq := []
    tb := { tns := 0, frac := 0, period := 20000, slew := 0, jump := 0, st := 0 }, traces := [], traceq := [], vfEv := [], pfEv := 0, keys := [], chans := [], bars := []
    itins := [], hist := [], tierLast := [], joins := [], net := [], sendSeq := [], recvSeq := []
    migs := [], heldw := [], slow := false, invals := [], poison := [], tasks := [], taskSeq := 0, armCtr := 0, decrs := [], nodes := []
    sched := { turn := 15, credit := 0, next := 0, before := (15, 0, 0) }, uidSeq := 1, aways := [], chains := [], owed := [], rowsOut := []
    colls := [], anns := [], spent := [], back := [], fports := [], cutPkgs := [], quads := [], spares := [], preempts := [], boxes := []
    pfErr := 0, hbm := []
    fw := { fused := 0, running := 0, verified := true, resetAt := none, image := [], timed := false }, turns := []
    focus := { core := 0, slot := 0, sub := 0 }, fresh := 0 }

end Sys2Proof.Machine
end

