-- ==== Sys2Proof/Machine/Ops.lean ====
section
/-! DEFINITION. The named operations every meaning is written with: the agent in focus, the register file, causes,
address translation, memory reads that happen at once, free values, the event latch, and taking and returning
from a trap. -/
namespace Sys2Proof.Machine

/-! ## Causes (R49) -/

abbrev cILLEGAL : BitVec 8 := 0x01
abbrev cPRIV : BitVec 8 := 0x02
abbrev cALIGN : BitVec 8 := 0x03
abbrev cXLATE : BitVec 8 := 0x04
abbrev cWINDOW : BitVec 8 := 0x05
abbrev cOPERAND : BitVec 8 := 0x06
abbrev cTILE : BitVec 8 := 0x07
abbrev cSCHEDMISS : BitVec 8 := 0x08
abbrev cSCHEDVIOL : BitVec 8 := 0x09
abbrev cBONDBUSY : BitVec 8 := 0x0A
abbrev cPORTSEQ : BitVec 8 := 0x0B
abbrev cENGINE : BitVec 8 := 0x0C
abbrev cCHECK : BitVec 8 := 0x0D
abbrev cUNCORR : BitVec 8 := 0x0E
abbrev cFETCH : BitVec 8 := 0x0F
abbrev cBRK : BitVec 8 := 0x10
abbrev cTRAP : BitVec 8 := 0x11
abbrev cRESTORELOST : BitVec 8 := 0x12
abbrev cCANCELLED : BitVec 8 := 0x13
abbrev cMIGRATING : BitVec 8 := 0x14

/-! ## Agents -/

/-- The package quad of a core (R9). -/
def quadOf (core : Nat) : Nat := core / 4

/-- The package number of the modelled package, 0 to 4095 (R339). -/
def ownPkg : Nat := Config.pkg % 4096

/-- A package by its number, as a destination. -/
def destOf (pkg : Nat) : Dest := if pkg = ownPkg then none else some pkg

/-- A core by its logical number (R9). -/
def getCore (s : State) (c : Nat) : Core := mapGet Core.reset s.cores c

/-- The state with a core replaced. -/
def setCore (s : State) (c : Nat) (k : Core) : State := { s with cores := mapSet s.cores c k }

/-- A unit slot of a core (R80). -/
def unitOf (k : Core) (i : Nat) : Unit := mapGet Unit.reset k.units i

/-- The core with a unit slot replaced. -/
def withUnit (k : Core) (i : Nat) (u : Unit) : Core := { k with units := mapSet k.units i u }

/-- A unit slot by core and slot. -/
def unitAt (s : State) (c i : Nat) : Unit := unitOf (getCore s c) i

/-- The state with a unit slot replaced. -/
def setUnitAt (s : State) (c i : Nat) (u : Unit) : State := setCore s c (withUnit (getCore s c) i u)

/-- The core in focus. -/
def curCore (s : State) : Core := getCore s s.focus.core

/-- The state with the core in focus replaced. -/
def setCur (s : State) (k : Core) : State := setCore s s.focus.core k

/-- The unit in focus. -/
def getUnit (s : State) : Unit := unitOf (curCore s) s.focus.slot

/-- The state with the unit in focus replaced. -/
def setUnit (s : State) (u : Unit) : State := setCur s (withUnit (curCore s) s.focus.slot u)

/-- The state with another agent in focus. -/
def focusOn (s : State) (c i k : Nat) : State := { s with focus := { core := c, slot := i, sub := k } }

/-- The sequencer of matrix stream `k` (R82). -/
def matOf (k : Core) (n : Nat) : Strm := mapGet Strm.reset k.mats n

/-- The core with a matrix stream replaced. -/
def withMat (k : Core) (n : Nat) (m : Strm) : Core := { k with mats := mapSet k.mats n m }

/-- An entry of the tile table (R147). -/
def tileOf (k : Core) (h : Nat) : Tile := mapGet Tile.reset k.tiles h

/-- The core with a tile-table entry replaced. -/
def withTile (k : Core) (h : Nat) (t : Tile) : Core := { k with tiles := mapSet k.tiles h t }

/-- A port of a unit (R276). -/
def portOf (u : Unit) (e : Nat) : Port := mapGet Port.reset u.ports e

/-- The unit with a port replaced. -/
def withPort (u : Unit) (e : Nat) (p : Port) : Unit := { u with ports := mapSet u.ports e p }

/-- The slots of a core that hold the unit of an instance number. -/
def slotOfUid (k : Core) (uid : Nat) : Option Nat :=
  (k.units.find? (fun e => e.2.live && e.2.uid == uid)).map (·.1)

/-! ## Registers (R115, R140) -/

/-- A scalar register; s0 reads as zero (R115). -/
def regRead (s : State) (r : BitVec 5) : Word :=
  if r = 0 then 0 else (getUnit s).regs[r.toNat]'(r.isLt)

/-- The state with a scalar register written; a write to s0 is discarded (R115). -/
def regWrite (s : State) (r : BitVec 5) (v : Word) : State :=
  if r = 0 then s
  else setUnit s { getUnit s with regs := (getUnit s).regs.set r.toNat v r.isLt }

/-- A register write whose result is usable after `n` clocks (R140). -/
def regWriteAfter (s : State) (r : BitVec 5) (v : Word) (n : Nat) : State :=
  if r = 0 then s
  else
    setUnit s { getUnit s with
      regs := (getUnit s).regs.set r.toNat v r.isLt
      ready := mapSet (getUnit s).ready r.toNat (s.clk + n) }

/-- The state with a scalar register of a given unit written (R115). -/
def regWriteAt (s : State) (c i : Nat) (r : BitVec 5) (v : Word) : State :=
  if r = 0 then s
  else setUnitAt s c i { unitAt s c i with regs := (unitAt s c i).regs.set r.toNat v r.isLt }

/-! ## The egress journal (R382) -/

/-- A core's journal with one egress merged into the entry of its destination partition and package. -/
def mergeEgress (part : Nat) (pkg : Dest) (tns : Nat) : List Egress → List Egress
  | [] => [{ part := part, pkg := pkg, first := tns, last := tns }]
  | e :: es => if e.part = part && e.pkg = pkg then { e with last := tns } :: es else e :: mergeEgress part pkg tns es

/-- Whether a core's journal can take an egress to a destination: a full one takes none to a new destination. -/
def egressOk (k : Core) (part : Nat) (pkg : Dest) : Bool :=
  k.journal.length < 4096 || k.journal.any (fun e => e.part == part && e.pkg == pkg)

/-- The state with an egress of a core noted; a full journal takes none to a new destination, which holds at issue (R382). -/
def noteEgress (s : State) (core part : Nat) (pkg : Dest) : State :=
  let k := getCore s core
  if egressOk k part pkg then setCore s core { k with journal := mergeEgress part pkg s.tb.tns k.journal } else s

/-! ## Lateness (R301) -/

/-- The hops and clocks L(h) of an itinerary is to be recomputed in, with every hop in the next clock; what was asked for before
stands. -/
def markDirty (dirty : List (Nat × Nat)) (clk : Nat) : List (Nat × Nat) :=
  dirty ++ ((span 0 3).map (fun h => (h, clk + 1))).filter (fun d => !dirty.contains d)

/-- The state with L(h) of every itinerary to be recomputed in the next clock, MCNT of a sub-array having changed (R301). -/
def marksChanged (s : State) : State :=
  { s with itins := s.itins.map (fun e => (e.1, { e.2 with dirty := markDirty e.2.dirty s.clk })) }

/-! ## Free values (log 5) -/

/-- A word the spec leaves open, with the counter advanced. -/
def freeWord (s : State) : Word × State := (Config.freeWord s.fresh, { s with fresh := s.fresh + 1 })

/-! ## Event latch (R136) -/

/-- A unit with its event latch set. -/
def latched (u : Unit) : Unit := { u with evl := true }

/-- The state with the latch of one unit set. -/
def setEvl (s : State) (c i : Nat) : State := setUnitAt s c i (latched (unitAt s c i))

/-- A core with the latch of every unit it holds set. -/
def latchAll (k : Core) : Core :=
  { k with units := k.units.map (fun e => (e.1, if e.2.live then latched e.2 else e.2)) }

/-! ## Partitions and translation (R231 to R239) -/

/-- A partition with nothing. -/
def Part.none : Part :=
  { schedw := 1, armmax := 0, keybase := 0, keycnt := 0, tblkey := 0, ctxkey := 0, quads := [], quadsOut := [], root := 0
    ltbase := 0, ltlen := 0, tvec := 0, ctxva := 0, ctxlen := 0, trva := 0, trlen := 0, fablo := 0, fabhi := 0
    itbase := 0, itcnt := 0, gatmask := 0, barmask := 0, lnbase := 0, lncnt := 0, grbase := 0, grcnt := 0
    phbase := 0, phcnt := 0, jbbase := 0, jbcnt := 0, wins := [], raw := [] }

/-- A partition's descriptor (R387). -/
def partOf (s : State) (p : Nat) : Part := mapGet Part.none s.parts p

/-- The access kinds a translation checks (R238). -/
inductive AccessKind where
  | read | write | fetch
  deriving DecidableEq, Repr

/-- How a translation ends (R238): a physical address with the leaf, or the cause. -/
inductive Xlate where
  | ok (pa : Nat) (leaf : Word)
  | fail (cause : BitVec 8)
  deriving DecidableEq, Repr

/-- `len` bits of a page-table entry from bit `lo` (R233). -/
def pteBits (e : Word) (lo len : Nat) : Nat := e.toNat / 2 ^ lo % 2 ^ len

/-- W of a leaf (R233). -/
def leafW (e : Word) : Bool := pteBits e 62 1 == 1
/-- X of a leaf (R233). -/
def leafX (e : Word) : Bool := pteBits e 63 1 == 1
/-- MIG of a leaf (R233, R237). -/
def leafMig (e : Word) : Bool := pteBits e 38 1 == 1
/-- KEYID of a leaf (R233). -/
def leafKey (e : Word) : Nat := pteBits e 47 11
/-- DOM of a leaf (R233). -/
def leafDom (e : Word) : Nat := pteBits e 60 2
/-- FMTA of a leaf (R233). -/
def leafFmta (e : Word) : Nat := pteBits e 42 5
/-- BGEO of a leaf (R233, R235). -/
def leafBgeo (e : Word) : Nat := pteBits e 39 3

/-- A leaf entry the walker takes at a level whose page offset has `shift` bits (R234). -/
def leafOk (e : Word) (shift : Nat) : Bool :=
  pteBits e 0 36 % 2 ^ (shift - 16) == 0 && leafFmta e < 14 && leafBgeo e < 3

/-- The walk of R232 and R234 over the levels that remain, each given by its first index bit, its index
width, whether it may hold a leaf and whether it may hold a table entry. -/
def walkFrom (m : List Host.Cell) (va : Nat) : List (Nat × Nat × Bool × Bool) → Nat → Option (Word × Nat)
  | [], _ => none
  | (shift, width, leafAllowed, tableAllowed) :: more, frame =>
    let e : Word := .ofNat 64 (memNat m (frame + 8 * (va / 2 ^ shift % 2 ^ width)) 8)
    if pteBits e 36 1 = 0 then none
    else if pteBits e 37 1 = 1 then (if leafAllowed && leafOk e shift then some (e, shift) else none)
    else if tableAllowed && pteBits e 38 26 == 0 then walkFrom m va more (65536 * pteBits e 0 36)
    else none

/-- The four levels of R232. -/
def walkLevels : List (Nat × Nat × Bool × Bool) :=
  [(48, 7, false, true), (42, 6, true, true), (29, 13, true, true), (16, 13, true, false)]

/-- The walk of a partition's space (R231, R232). -/
def walk (m : List Host.Cell) (root va : Nat) : Option (Word × Nat) := walkFrom m va walkLevels root

/-- Whether a cached translation covers an address (R239). -/
def tlbHit (p va : Nat) (e : TlbEntry) : Bool := e.part == p && e.vpage ≤ va && va < e.vpage + e.span

/-- The cached or walked leaf of an address with its page's first virtual address and span, and the cache
after (R239; least recently used replacement, log 11). -/
def lookup (m : List Host.Cell) (tlb : List TlbEntry) (p root va : Nat) :
    Option TlbEntry × List TlbEntry :=
  match tlb.find? (tlbHit p va) with
  | some e => (some e, e :: tlb.filter (fun x => !(tlbHit p va x)))
  | none =>
    match walk m root va with
    | some (leaf, shift) =>
      let e : TlbEntry := { part := p, vpage := va / 2 ^ shift * 2 ^ shift, span := 2 ^ shift, leaf := leaf }
      (some e, (e :: tlb).take 512)
    | none => (none, tlb)

/-- Whether a physical address is homed in another package of the load-store domain: the half of the address space beyond every tier and
inlet, which is the model's choice (R257, R295; log 15). -/
def farAddr (pa : Nat) : Bool := 2 ^ 51 ≤ pa

/-- The package that a physical address is homed in (R257; log 15). -/
def homePkg (pa : Nat) : Dest := if farAddr pa then destOf (Config.farHome (pa / 65536) % 4096) else none

/-- Whether a physical address lies in a window of the partition, in the inlet page of a gatherer channel it
owns (R238, R393), or in a package of the domain that its fabric window covers (R257, R387; log 15). -/
def inWindows (pt : Part) (pa : Nat) : Bool :=
  pt.wins.any (fun w => w.base ≤ pa && pa < w.base + w.len)
  || (homePkg pa).any (fun p => pt.fablo ≤ p && p ≤ pt.fabhi)
  || (0x700000000000 ≤ pa && pa < 0x700000010000 && pt.gatmask.getLsbD ((pa - 0x700000000000) / 4096))

/-- Whether a key id is one of the partition's (R236, R387). -/
def ownsKey (pt : Part) (k : Nat) : Bool := pt.keybase ≤ k && k < pt.keybase + pt.keycnt

/-- The physical address an entry gives an address (R232). -/
def entryPa (e : TlbEntry) (va : Nat) : Nat := 65536 * pteBits e.leaf 0 36 + (va - e.vpage)

/-- The checks of R238 on a 64-bit address value, in their order, and the cache after. -/
def translateIn (m : List Host.Cell) (tlb : List TlbEntry) (pt : Part) (p va : Nat) (kind : AccessKind) :
    Xlate × List TlbEntry :=
  if va ≥ 2 ^ 55 then (.fail cXLATE, tlb)
  else
    match lookup m tlb p pt.root va with
    | (none, tlb') => (.fail cXLATE, tlb')
    | (some e, tlb') =>
      if (kind == .write && !leafW e.leaf) || (kind == .fetch && !leafX e.leaf) then (.fail cXLATE, tlb')
      else if inWindows pt (entryPa e va) && ownsKey pt (leafKey e.leaf) then
        (.ok (entryPa e va) e.leaf, tlb')
      else (.fail cWINDOW, tlb')

/-- The requester that walks for a unit slot: its walks go one after the other and hold one slot of the walk reserve, which the four
together never fill (R244). -/
def reqWalk (slot : Nat) : Nat := 7 + slot

/-- The core with a slot of the walk reserve held for a unit slot until the clock is over (R244). -/
def holdWalk (k : Core) (slot : Nat) : Core :=
  if k.brief.contains (reqWalk slot, true) then k else { k with brief := (reqWalk slot, true) :: k.brief }

/-- Whether a translation for a unit of a partition misses its core's cache and walks (R239). -/
def walks (k : Core) (p va : Nat) : Bool := va < 2 ^ 55 && !k.tlb.any (tlbHit p va)

/-- Translation for the unit in focus, through its core's cache; a miss walks, which is an access outside the core (R238, R239,
R382). -/
def translate (s : State) (va : Word) (kind : AccessKind) : Xlate × State :=
  let p := (getUnit s).part
  let t := if walks (curCore s) p va.toNat then noteEgress (setCur s (holdWalk (curCore s) s.focus.slot)) s.focus.core p none else s
  match translateIn s.mem (curCore s).tlb (partOf s p) p va.toNat kind with
  | (r, tlb') => (r, setCur t { curCore t with tlb := tlb' })

/-- Translation of a hub engine or the scheduler, which keep no cache (R240). -/
def translateHub (s : State) (p va : Nat) (kind : AccessKind) : Xlate :=
  (translateIn s.mem [] (partOf s p) p va kind).1

/-- The bytes of memory from a virtual address on, page by page through a hub engine's walk; none at the first
byte whose translation fails. -/
def hubRead (s : State) (p va : Nat) : Nat → Option (List Byte)
  | 0 => some []
  | n + 1 =>
    match translateHub s p va .read, hubRead s p (va + 1) n with
    | .ok pa _, some bs => some (memByte s.mem pa :: bs)
    | _, _ => none

/-- Whether a physical address lies on a page under migration (R237). -/
def onMigrating (s : State) (pa : Nat) : Bool := s.migs.any (fun m => m.old ≤ pa && pa < m.old + m.span)

/-- The state with bytes written at their home, a line written whole being no longer poisoned (R367): a write to a page under migration
waits there for the remap (R237, R274), and the trace writer of a partition writes nothing past one of its writes that waits (R403). -/
def homeWrite (s : State) (trace : Option Nat) (pa : Nat) (bs : List Byte) : State :=
  if onMigrating s pa || (trace.isSome && s.heldw.any (fun w => w.trace == trace)) then
    { s with heldw := s.heldw ++ [{ pa := pa, bytes := bs, trace := trace }] }
  else
    { s with
      mem := memSetBytes s.mem pa bs
      poison := s.poison.filter (fun l => !(pa ≤ 64 * l && 64 * l + 64 ≤ pa + bs.length)) }

/-- Whether a write to one of some pages waits at its home (R237). -/
def heldIn (s : State) (pins : List Pin) : Bool := s.heldw.any (fun w => pins.any (fun p => p.pa ≤ w.pa && w.pa < p.pa + p.span))

/-- The state with bytes written by the trace writer of a partition from a virtual address on through the hub's walk; none, and nothing
written, when a byte's translation fails (R403). -/
def hubWrite (s : State) (p va : Nat) : List Byte → Option State
  | [] => some s
  | b :: bs =>
    match translateHub s p va .write with
    | .ok pa _ => hubWrite (homeWrite s (some p) pa [b]) p (va + 1) bs
    | .fail _ => none

/-! ## Scopes (R257) -/

/-- The least scope that contains the home of a physical address for an agent on a compute die (R257, R295): 1 DIE
for the die's own HBM stack, 3 DOMAIN for another package's memory, else 2 PACKAGE. -/
def homeScope (die pa : Nat) : Nat :=
  if farAddr pa then 3 else if pa < 0x2000000000 && pa / 0x800000000 == die then 1 else 2

/-! ## Paths to packages (R356, R358) -/

/-- A fabric port (R358); up at 224 Gb/s after reset. -/
def fportOf (s : State) (p : Nat) : FPort := mapGet { up := true, fast := true, replays := [] } s.fports p

/-- Whether any path to a package remains: a port of this package is up, and the paths beyond it are not cut (R356). -/
def reachable (s : State) : Dest → Bool
  | none => true
  | some pkg => !s.cutPkgs.contains pkg && (span 0 16).any (fun p => (fportOf s p).up)

/-! ## Traps (R122 to R125, R137) -/

/-- Bits 54:2 of an address, which is what EPC holds (R120; log 10). -/
def epcBits (v : Word) : Word := v &&& 0x007FFFFFFFFFFFFC#64

/-- A unit that has taken a trap (R122): EPC, ECAUSE, EVAL written, S mode, PC at TVEC; a scalar wait is
left (R81), and the clock is noted from which its bound group stands still (R109). -/
def trapTaken (u : Unit) (stream : Nat) (cause : BitVec 8) (eval epc : Word) (clk : Nat) : Unit :=
  { u with
    epc := epcBits epc
    ecause := BitVec.ofNat 64 (stream * 4096 + cause.toNat)
    eval := eval
    mode := .s
    pc := u.tvec
    wait := none
    fore := []
    bond := []
    stepped := false
    away := some (u.away.getD clk) }

/-- Whether a cause ends a unit without its handler (R366): CHECK or UNCORR in a unit whose task is IDEM and has a retry left. -/
def bypasses (s : State) (u : Unit) (cause : BitVec 8) : Bool :=
  (cause == cCHECK || cause == cUNCORR) && (match mapFind s.tasks u.task with
    | some t => fieldNat t.body 38 1 / 8 % 2 == 1 && t.retries < 3
    | none => false)

/-- A unit after a trap (R122, R125, R366): in U mode the trap is taken, unless its cause bypasses the handler; otherwise the
unit is about to end with the cause, which UNIT_END completes (R440). A unit that is about to end already takes no other cause: one
being cancelled ends CANCELLED (R320, R322). -/
def trapUnit (s : State) (u : Unit) (stream : Nat) (cause : BitVec 8) (eval epc : Word) : Unit :=
  if u.ending.isSome then u
  else
    match u.mode with
    | .u => if bypasses s u cause then { u with ending := some cause, wait := none } else trapTaken u stream cause eval epc s.clk
    | .s => { u with ending := some cause, wait := none }

/-- Taking a trap in the unit in focus (R122, R125). -/
def takeTrap (s : State) (stream : Nat) (cause : BitVec 8) (eval epc : Word) : State :=
  setUnit s (trapUnit s (getUnit s) stream cause eval epc)

/-- A unit that has returned from its handler (R137): PC from EPC, U mode. -/
def trapReturned (u : Unit) : Unit := { u with pc := u.epc, mode := .u, wait := none }

/-! ## Scalar words -/

/-- What a scalar word comes to when it issues: it completes; it completes and another word follows than the
next; its unit has ended or changed hands; it waits, with or without a first effect (R80); it is held at issue; it is held for want of
a request slot that a requester asks for (R245); it traps; it traps with EPC at the word after it (R123). -/
inductive Act where
  | done (s : State)
  | jump (s : State) (pc : Word)
  | leave (s : State)
  | wait
  | waitIn (s : State)
  | hold
  | lack (who : Nat)
  | trap (cause : BitVec 8) (eval : Word)
  | trapAfter (cause : BitVec 8) (eval : Word)

/-- Whether the unit of a slot is being stopped for a pre-emption (R372). -/
def preempting (s : State) (c i : Nat) : Bool := s.preempts.any (fun e => e.1 == 4 * c + i)

/-- Memory as a reader sees it that has read some pieces before (R263). -/
def overlaid (fore : List (Nat × List Byte)) (m : List Host.Cell) : List Host.Cell := fore.foldl (fun m e => memSetBytes m e.1 e.2) m

/-- The bytes of a record that the word of the unit in focus reads, as independent pieces (R263). -/
def recordBytes (s : State) (pa n : Nat) : List Byte := memBytes (overlaid (getUnit s).fore s.mem) pa n

/-- A reader's pieces with the aligned one at an address, as it stands now, unless it has read that (R263). -/
def foreWith (m : List Host.Cell) (pa : Nat) (fore : List (Nat × List Byte)) : List (Nat × List Byte) :=
  if mapHas fore (pa / 4 * 4) then fore else (pa / 4 * 4, memBytes m (pa / 4 * 4) 4) :: fore

/-- Whether the slot in focus holds a unit whose scalar stream may go on: it is neither about to end nor being stopped (R372,
R440). -/
def scalarRuns (s : State) : Bool :=
  (getUnit s).live && (getUnit s).ending.isNone && !preempting s s.focus.core s.focus.slot

/-- Whether an access answers with a response: a load, or an atomic that returns a value (R251, R253). -/
def responds (a : Access) : Bool :=
  match a.kind with
  | .load _ => true
  | .store _ => false
  | .atom _ use _ _ _ => use != 1

/-- Whether scalar words of a unit that bring a result are still under way: a trap is entered once they are not (R122). -/
def resultsOut (k : Core) (uid : Nat) : Bool :=
  (match k.divider with
   | some d => d.uid == uid
   | none => false)
  || k.accs.any (fun a => a.uid == uid && responds a)

/-- A core with a requester noted that has found no shared request slot (R245). -/
def askShared (k : Core) (who : Nat) : Core := if k.asks.contains who then k else { k with asks := who :: k.asks }

/-- The state with a requester of the core in focus noted that has found no shared request slot (R245). -/
def noteAsk (s : State) (who : Nat) : State := setCur s (askShared (curCore s) who)

/-- The unit in focus with its word completed and `pc` next: BRK follows in U mode under SSTEP, once the results that are under way
have come (R122, R138) and, where the checker core disagrees, once the word has been compared (R141); `u` is the unit as the word found
it. -/
def wordDone (u : Unit) (t : State) (pc : Word) : State :=
  let v := { getUnit t with pc := pc, wait := none, fore := [] }
  if u.mode = .u && u.sstep then
    if resultsOut (curCore t) u.uid || u.diverged || u.compare.isSome then setUnit t { v with stepped := true }
    else setUnit t (trapTaken v 9 cBRK 0 pc t.clk)
  else setUnit t v

/-- A scalar word of the unit in focus issues (R80, R122, R125, R138). A slot without a unit, or whose unit is
about to end, issues nothing (log 6). A word that traps in U mode is held at issue until the results of earlier words have come
(`trapHeld`, R122). -/
def scalarWord (i : Instr) (body : State → Act) (s : State) : Host.Outcome State Fault Refusal :=
  let u := getUnit s
  if scalarRuns s then
    match body s with
    | .done t => .next (wordDone u t (u.pc + 4))
    | .jump t pc => .next (wordDone u t pc)
    | .leave t => .next t
    | .wait => .next (setUnit s { u with wait := some i, fore := [] })
    | .waitIn t => .next (setUnit t { getUnit t with wait := some i })
    | .hold => .next s
    | .lack who => .next (noteAsk s who)
    | .trap cause eval => .next (takeTrap s 9 cause eval u.pc)
    | .trapAfter cause eval => .next (takeTrap s 9 cause eval (u.pc + 4))
  else .next s

end Sys2Proof.Machine
end

