-- ==== Sys2Proof/Machine/Operands.lean ====
section
/-! DEFINITION. Operand forms of the scalar words: immediates, effective addresses, branch targets, register
fields read as numbers, and the shapes every register-to-register word shares (R24, R126 to R132, R250). -/
namespace Sys2Proof.Machine

/-- A 16-bit immediate, sign-extended (R24, R128). -/
def imm16 (v : BitVec 16) : Word := v.signExtend 64

/-- The effective address of a form M word (R250). -/
def effAddr (base : Word) (off : BitVec 12) : Word := base + off.signExtend 64

/-- The target of a form B branch at `pc` (R24, R131). -/
def branchTarget (pc : Word) (off : BitVec 16) : Word := pc + 4 + 4 * off.signExtend 64

/-- The target of JAL at `pc` (R24, R132). -/
def jalTarget (pc : Word) (off : BitVec 26) : Word := pc + 4 + 4 * off.signExtend 64

/-- `len` bits of a register value from bit `lo`. -/
def wbits (v : Word) (lo len : Nat) : Nat := v.toNat / 2 ^ lo % 2 ^ len

/-- Whether bits 63 down to `lo` of a value are zero. -/
def zeroAbove (v : Word) (lo : Nat) : Bool := v.toNat / 2 ^ lo == 0

/-- A word that computes rd from ra and rb with a result usable after `n` clocks (R126, R140). -/
def opRR (i : Instr) (n : Nat) (f : Word → Word → Word) (rd ra rb : BitVec 5) (s : State) :
    Host.Outcome State Fault Refusal :=
  scalarWord i (fun t => .done (regWriteAfter t rd (f (regRead t ra) (regRead t rb)) n)) s

/-- A word that computes rd from ra alone (R126, R127). -/
def opR (i : Instr) (f : Word → Word) (rd ra : BitVec 5) (s : State) : Host.Outcome State Fault Refusal :=
  scalarWord i (fun t => .done (regWriteAfter t rd (f (regRead t ra)) 1)) s

/-- A branch on ra and rb (R131). -/
def opBranch (i : Instr) (c : Word → Word → Bool) (ra rb : BitVec 5) (off : BitVec 16) (s : State) :
    Host.Outcome State Fault Refusal :=
  scalarWord i (fun t =>
    if c (regRead t ra) (regRead t rb) then .jump t (branchTarget (getUnit t).pc off) else .done t) s

end Sys2Proof.Machine
end

