-- ==== Sys2Proof/Machine/Flags.lean ====
section
/-! DEFINITION. The scalar core has no condition flags (06_scalar): what it has instead. The arithmetic of R126
and R127, comparisons to 0 or 1 and branch conditions (R126, R131), the STATUS word (R118), and the port flags
of R288. -/
namespace Sys2Proof.Machine

/-! ## Arithmetic (R126, R127) -/

/-- MULH (R126). -/
def aluMulh (a b : Word) : Word := BitVec.ofInt 64 (a.toInt * b.toInt / 2 ^ 64)
/-- MULHU (R126). -/
def aluMulhu (a b : Word) : Word := BitVec.ofNat 64 (a.toNat * b.toNat / 2 ^ 64)
/-- DIV (R127). -/
def aluDiv (a b : Word) : Word := if b = 0 then BitVec.allOnes 64 else BitVec.ofInt 64 (a.toInt.tdiv b.toInt)
/-- DIVU (R127). -/
def aluDivu (a b : Word) : Word := if b = 0 then BitVec.allOnes 64 else BitVec.ofNat 64 (a.toNat / b.toNat)
/-- REM (R127). -/
def aluRem (a b : Word) : Word := if b = 0 then a else BitVec.ofInt 64 (a.toInt.tmod b.toInt)
/-- REMU (R127). -/
def aluRemu (a b : Word) : Word := if b = 0 then a else BitVec.ofNat 64 (a.toNat % b.toNat)
/-- The shift amount B[5:0] (R126). -/
def shAmt (b : Word) : Nat := b.toNat % 64
/-- SLL (R126). -/
def aluSll (a b : Word) : Word := a <<< shAmt b
/-- SRL (R126). -/
def aluSrl (a b : Word) : Word := a >>> shAmt b
/-- SRA (R126). -/
def aluSra (a b : Word) : Word := a.sshiftRight (shAmt b)
/-- ROL (R126). -/
def aluRol (a b : Word) : Word := a.rotateLeft (shAmt b)
/-- ROR (R126). -/
def aluRor (a b : Word) : Word := a.rotateRight (shAmt b)
/-- Signed less-than. -/
def ltS (a b : Word) : Bool := a.toInt < b.toInt
/-- Unsigned less-than. -/
def ltU (a b : Word) : Bool := a.toNat < b.toNat
/-- A comparison as a register value (R126). -/
def asWord (c : Bool) : Word := if c then 1 else 0
/-- MIN (R126). -/
def aluMin (a b : Word) : Word := if ltS a b then a else b
/-- MAX (R126). -/
def aluMax (a b : Word) : Word := if ltS a b then b else a
/-- MINU (R126). -/
def aluMinu (a b : Word) : Word := if ltU a b then a else b
/-- MAXU (R126). -/
def aluMaxu (a b : Word) : Word := if ltU a b then b else a

/-- The number of set bits among the low `n` bits of a number. -/
def popNat : Nat → Nat → Nat
  | 0, _ => 0
  | n + 1, v => v % 2 + popNat n (v / 2)

/-- The number of zero bits below the lowest set bit, `n` where the low `n` bits hold none. -/
def ctzNat : Nat → Nat → Nat
  | 0, _ => 0
  | n + 1, v => if v % 2 = 1 then 0 else 1 + ctzNat n (v / 2)

/-- The number whose bit `n - 1 - i` is bit `i` of `v`. -/
def revNat : Nat → Nat → Nat
  | 0, _ => 0
  | n + 1, v => v % 2 * 2 ^ n + revNat n (v / 2)

/-- The carry-less product over the low `n` bits of `b` (R126). -/
def clmulNat (a b : Nat) : Nat → Nat
  | 0 => 0
  | n + 1 => clmulNat a b n ^^^ (if b / 2 ^ n % 2 = 1 then a * 2 ^ n else 0)

/-- CLZ (R126). -/
def aluClz (a : Word) : Word := BitVec.ofNat 64 (ctzNat 64 (revNat 64 a.toNat))
/-- CTZ (R126). -/
def aluCtz (a : Word) : Word := BitVec.ofNat 64 (ctzNat 64 a.toNat)
/-- POPC (R126). -/
def aluPopc (a : Word) : Word := BitVec.ofNat 64 (popNat 64 a.toNat)
/-- BREV (R126). -/
def aluBrev (a : Word) : Word := BitVec.ofNat 64 (revNat 64 a.toNat)
/-- CLMUL (R126). -/
def aluClmul (a b : Word) : Word := BitVec.ofNat 64 (clmulNat a.toNat b.toNat 64)
/-- CLMULH (R126). -/
def aluClmulh (a b : Word) : Word := BitVec.ofNat 64 (clmulNat a.toNat b.toNat 64 / 2 ^ 64)
/-- SignExtend of the low `n` bits (R126). -/
def aluSext (n : Nat) (a : Word) : Word := (a.setWidth n).signExtend 64
/-- ZeroExtend of the low `n` bits (R126). -/
def aluZext (n : Nat) (a : Word) : Word := (a.setWidth n).setWidth 64

/-- HSET (R130). -/
def hsetWord (half : BitVec 2) (imm : BitVec 16) : Word := imm16 imm <<< (16 * half.toNat)
/-- HINS (R130): halfword `half` of `d` replaced. -/
def hinsWord (d : Word) (half : BitVec 2) (imm : BitVec 16) : Word :=
  (d &&& ~~~(0xFFFF#64 <<< (16 * half.toNat))) ||| (imm.setWidth 64 <<< (16 * half.toNat))

/-! ## STATUS (R118) -/

/-- The STATUS register (R118). -/
def statusWord (u : Unit) : Word :=
  BitVec.ofNat 64 ((if u.mode = .s then 1 else 0) + (if u.sstep then 4 else 0) + (if u.evl then 8 else 0))

/-! ## Port flags (R288) -/

/-- Whether a command of a unit at an engine has been accepted and has neither ended nor been cut; `started`
are the package's started commands. -/
def busyFlag (started : List Cmd) (u : Unit) (e : Nat) : Bool :=
  !(portOf u e).queue.isEmpty || started.any (fun c => c.uid == u.uid && c.eng == e)

/-- Flags 0 to 3 of a port (R288): BUSY, HALTED, PENDING, FULL. -/
def portFlag (started : List Cmd) (u : Unit) (e f : Nat) : Bool :=
  match f with
  | 0 => busyFlag started u e
  | 1 => (portOf u e).halted
  | 2 => u.evq.any (fun r => r.engine.toNat == e)
  | _ => (portOf u e).queue.length ≥ 16

/-- The commands engines have started and not ended. -/
def startedCmds (s : State) : List Cmd := s.cmds.map (·.cmd)

/-- The twenty port flags of a unit as they stand, flag `f` of engine `e` at bit 4e + f (R288). -/
def flagsNow (started : List Cmd) (u : Unit) : BitVec 20 :=
  BitVec.ofNat 20 ((span 0 20).foldl (fun a k => a + (if portFlag started u (k / 4) (k % 4) then 2 ^ k else 0)) 0)

/-- The state with the port flags of a unit noted as they stand at the start of the clock, before an engine or a
post changes them (R288). -/
def noteFlags (s : State) (c i : Nat) : State :=
  let u := unitAt s c i
  match u.snap with
  | some (clk, _) => if clk = s.clk then s else setUnitAt s c i { u with snap := some (s.clk, flagsNow (startedCmds s) u) }
  | none => setUnitAt s c i { u with snap := some (s.clk, flagsNow (startedCmds s) u) }

/-- A port flag as BSTAT reads it, at the start of its clock (R288). -/
def flagRead (s : State) (u : Unit) (e f : Nat) : Bool :=
  match u.snap with
  | some (clk, bits) => if clk = s.clk then bits.getLsbD (4 * e + f) else portFlag (startedCmds s) u e f
  | none => portFlag (startedCmds s) u e f

end Sys2Proof.Machine
end

