-- ==== Sys2Proof/Machine/Alu.lean ====
section
/-! DEFINITION. ALU, immediate, branch and jump words (R126 to R132, R140). -/
namespace Sys2Proof.Machine

/-- ADD (R126). -/
def execAdd (rd : BitVec 5) (ra : BitVec 5) (rb : BitVec 5) (s : State) : Host.Outcome State Fault Refusal :=
  opRR (.add rd ra rb) 1 (· + ·) rd ra rb s

/-- SUB (R126). -/
def execSub (rd : BitVec 5) (ra : BitVec 5) (rb : BitVec 5) (s : State) : Host.Outcome State Fault Refusal :=
  opRR (.sub rd ra rb) 1 (· - ·) rd ra rb s

/-- AND (R126). -/
def execAnd (rd : BitVec 5) (ra : BitVec 5) (rb : BitVec 5) (s : State) : Host.Outcome State Fault Refusal :=
  opRR (.and rd ra rb) 1 (· &&& ·) rd ra rb s

/-- OR (R126). -/
def execOr (rd : BitVec 5) (ra : BitVec 5) (rb : BitVec 5) (s : State) : Host.Outcome State Fault Refusal :=
  opRR (.or rd ra rb) 1 (· ||| ·) rd ra rb s

/-- XOR (R126). -/
def execXor (rd : BitVec 5) (ra : BitVec 5) (rb : BitVec 5) (s : State) : Host.Outcome State Fault Refusal :=
  opRR (.xor rd ra rb) 1 (· ^^^ ·) rd ra rb s

/-- ANDN (R126). -/
def execAndn (rd : BitVec 5) (ra : BitVec 5) (rb : BitVec 5) (s : State) : Host.Outcome State Fault Refusal :=
  opRR (.andn rd ra rb) 1 (fun a b => a &&& ~~~b) rd ra rb s

/-- ORN (R126). -/
def execOrn (rd : BitVec 5) (ra : BitVec 5) (rb : BitVec 5) (s : State) : Host.Outcome State Fault Refusal :=
  opRR (.orn rd ra rb) 1 (fun a b => a ||| ~~~b) rd ra rb s

/-- SLL (R126). -/
def execSll (rd : BitVec 5) (ra : BitVec 5) (rb : BitVec 5) (s : State) : Host.Outcome State Fault Refusal :=
  opRR (.sll rd ra rb) 1 aluSll rd ra rb s

/-- SRL (R126). -/
def execSrl (rd : BitVec 5) (ra : BitVec 5) (rb : BitVec 5) (s : State) : Host.Outcome State Fault Refusal :=
  opRR (.srl rd ra rb) 1 aluSrl rd ra rb s

/-- SRA (R126). -/
def execSra (rd : BitVec 5) (ra : BitVec 5) (rb : BitVec 5) (s : State) : Host.Outcome State Fault Refusal :=
  opRR (.sra rd ra rb) 1 aluSra rd ra rb s

/-- ROL (R126). -/
def execRol (rd : BitVec 5) (ra : BitVec 5) (rb : BitVec 5) (s : State) : Host.Outcome State Fault Refusal :=
  opRR (.rol rd ra rb) 1 aluRol rd ra rb s

/-- ROR (R126). -/
def execRor (rd : BitVec 5) (ra : BitVec 5) (rb : BitVec 5) (s : State) : Host.Outcome State Fault Refusal :=
  opRR (.ror rd ra rb) 1 aluRor rd ra rb s

/-- MUL (R126). -/
def execMul (rd : BitVec 5) (ra : BitVec 5) (rb : BitVec 5) (s : State) : Host.Outcome State Fault Refusal :=
  opRR (.mul rd ra rb) 3 (· * ·) rd ra rb s

/-- MULH (R126). -/
def execMulh (rd : BitVec 5) (ra : BitVec 5) (rb : BitVec 5) (s : State) : Host.Outcome State Fault Refusal :=
  opRR (.mulh rd ra rb) 3 aluMulh rd ra rb s

/-- MULHU (R126). -/
def execMulhu (rd : BitVec 5) (ra : BitVec 5) (rb : BitVec 5) (s : State) : Host.Outcome State Fault Refusal :=
  opRR (.mulhu rd ra rb) 3 aluMulhu rd ra rb s

/-- A division of the unit in focus (R127, R140): it takes the shared divider, which finishes 36 clocks later; while
the divider is taken the word is held at issue. -/
def opDiv (i : Instr) (f : Word → Word → Word) (rd ra rb : BitVec 5) (s : State) :
    Host.Outcome State Fault Refusal :=
  scalarWord i (fun t =>
    let k := curCore t
    match k.divider with
    | some _ => .hold
    | none =>
      .done (setCur t { k with
        divider := some { slot := t.focus.slot, uid := (getUnit t).uid, rd := rd
                          value := f (regRead t ra) (regRead t rb), due := t.clk + 36 } })) s

/-- The divider of a core finishes once its clock has come (R140): the result goes to the unit that issued the
division and the divider is free. A unit that has ended meanwhile takes no result (log 6). -/
def dividerDone (s : State) (c : Nat) : State :=
  let k := getCore s c
  match k.divider with
  | none => s
  | some d =>
    if d.due ≤ s.clk then
      let t := setCore s c { k with divider := none }
      if (unitAt t c d.slot).live && (unitAt t c d.slot).uid == d.uid then regWriteAt t c d.slot d.rd d.value
      else t
    else s

/-- DIVIDER_FINISH (R140). -/
def execDividerFinish (core : Nat) (s : State) : Host.Outcome State Fault Refusal :=
  .next (dividerDone s core)

/-- DIV (R127). -/
def execDiv (rd : BitVec 5) (ra : BitVec 5) (rb : BitVec 5) (s : State) : Host.Outcome State Fault Refusal :=
  opDiv (.div rd ra rb) aluDiv rd ra rb s

/-- DIVU (R127). -/
def execDivu (rd : BitVec 5) (ra : BitVec 5) (rb : BitVec 5) (s : State) : Host.Outcome State Fault Refusal :=
  opDiv (.divu rd ra rb) aluDivu rd ra rb s

/-- REM (R127). -/
def execRem (rd : BitVec 5) (ra : BitVec 5) (rb : BitVec 5) (s : State) : Host.Outcome State Fault Refusal :=
  opDiv (.rem rd ra rb) aluRem rd ra rb s

/-- REMU (R127). -/
def execRemu (rd : BitVec 5) (ra : BitVec 5) (rb : BitVec 5) (s : State) : Host.Outcome State Fault Refusal :=
  opDiv (.remu rd ra rb) aluRemu rd ra rb s

/-- MIN (R126). -/
def execMin (rd : BitVec 5) (ra : BitVec 5) (rb : BitVec 5) (s : State) : Host.Outcome State Fault Refusal :=
  opRR (.min rd ra rb) 1 aluMin rd ra rb s

/-- MAX (R126). -/
def execMax (rd : BitVec 5) (ra : BitVec 5) (rb : BitVec 5) (s : State) : Host.Outcome State Fault Refusal :=
  opRR (.max rd ra rb) 1 aluMax rd ra rb s

/-- MINU (R126). -/
def execMinu (rd : BitVec 5) (ra : BitVec 5) (rb : BitVec 5) (s : State) : Host.Outcome State Fault Refusal :=
  opRR (.minu rd ra rb) 1 aluMinu rd ra rb s

/-- MAXU (R126). -/
def execMaxu (rd : BitVec 5) (ra : BitVec 5) (rb : BitVec 5) (s : State) : Host.Outcome State Fault Refusal :=
  opRR (.maxu rd ra rb) 1 aluMaxu rd ra rb s

/-- SLT (R126). -/
def execSlt (rd : BitVec 5) (ra : BitVec 5) (rb : BitVec 5) (s : State) : Host.Outcome State Fault Refusal :=
  opRR (.slt rd ra rb) 1 (fun a b => asWord (ltS a b)) rd ra rb s

/-- SLTU (R126). -/
def execSltu (rd : BitVec 5) (ra : BitVec 5) (rb : BitVec 5) (s : State) : Host.Outcome State Fault Refusal :=
  opRR (.sltu rd ra rb) 1 (fun a b => asWord (ltU a b)) rd ra rb s

/-- CLZ (R126). -/
def execClz (rd : BitVec 5) (ra : BitVec 5) (s : State) : Host.Outcome State Fault Refusal :=
  opR (.clz rd ra) aluClz rd ra s

/-- CTZ (R126). -/
def execCtz (rd : BitVec 5) (ra : BitVec 5) (s : State) : Host.Outcome State Fault Refusal :=
  opR (.ctz rd ra) aluCtz rd ra s

/-- POPC (R126). -/
def execPopc (rd : BitVec 5) (ra : BitVec 5) (s : State) : Host.Outcome State Fault Refusal :=
  opR (.popc rd ra) aluPopc rd ra s

/-- BREV (R126). -/
def execBrev (rd : BitVec 5) (ra : BitVec 5) (s : State) : Host.Outcome State Fault Refusal :=
  opR (.brev rd ra) aluBrev rd ra s

/-- CLMUL (R126). -/
def execClmul (rd : BitVec 5) (ra : BitVec 5) (rb : BitVec 5) (s : State) : Host.Outcome State Fault Refusal :=
  opRR (.clmul rd ra rb) 3 aluClmul rd ra rb s

/-- CLMULH (R126). -/
def execClmulh (rd : BitVec 5) (ra : BitVec 5) (rb : BitVec 5) (s : State) : Host.Outcome State Fault Refusal :=
  opRR (.clmulh rd ra rb) 3 aluClmulh rd ra rb s

/-- SEXT_B (R126). -/
def execSextB (rd : BitVec 5) (ra : BitVec 5) (s : State) : Host.Outcome State Fault Refusal :=
  opR (.sextB rd ra) (aluSext 8) rd ra s

/-- SEXT_H (R126). -/
def execSextH (rd : BitVec 5) (ra : BitVec 5) (s : State) : Host.Outcome State Fault Refusal :=
  opR (.sextH rd ra) (aluSext 16) rd ra s

/-- SEXT_W (R126). -/
def execSextW (rd : BitVec 5) (ra : BitVec 5) (s : State) : Host.Outcome State Fault Refusal :=
  opR (.sextW rd ra) (aluSext 32) rd ra s

/-- ZEXT_B (R126). -/
def execZextB (rd : BitVec 5) (ra : BitVec 5) (s : State) : Host.Outcome State Fault Refusal :=
  opR (.zextB rd ra) (aluZext 8) rd ra s

/-- ZEXT_H (R126). -/
def execZextH (rd : BitVec 5) (ra : BitVec 5) (s : State) : Host.Outcome State Fault Refusal :=
  opR (.zextH rd ra) (aluZext 16) rd ra s

/-- ZEXT_W (R126). -/
def execZextW (rd : BitVec 5) (ra : BitVec 5) (s : State) : Host.Outcome State Fault Refusal :=
  opR (.zextW rd ra) (aluZext 32) rd ra s

/-- ADDI (R128). -/
def execAddi (rd : BitVec 5) (ra : BitVec 5) (imm : BitVec 16) (s : State) : Host.Outcome State Fault Refusal :=
  opR (.addi rd ra imm) (· + imm16 imm) rd ra s

/-- ANDI (R128). -/
def execAndi (rd : BitVec 5) (ra : BitVec 5) (imm : BitVec 16) (s : State) : Host.Outcome State Fault Refusal :=
  opR (.andi rd ra imm) (· &&& imm16 imm) rd ra s

/-- ORI (R128). -/
def execOri (rd : BitVec 5) (ra : BitVec 5) (imm : BitVec 16) (s : State) : Host.Outcome State Fault Refusal :=
  opR (.ori rd ra imm) (· ||| imm16 imm) rd ra s

/-- XORI (R128). -/
def execXori (rd : BitVec 5) (ra : BitVec 5) (imm : BitVec 16) (s : State) : Host.Outcome State Fault Refusal :=
  opR (.xori rd ra imm) (· ^^^ imm16 imm) rd ra s

/-- SLTI (R128). -/
def execSlti (rd : BitVec 5) (ra : BitVec 5) (imm : BitVec 16) (s : State) : Host.Outcome State Fault Refusal :=
  opR (.slti rd ra imm) (fun a => asWord (ltS a (imm16 imm))) rd ra s

/-- SLTIU (R128). -/
def execSltiu (rd : BitVec 5) (ra : BitVec 5) (imm : BitVec 16) (s : State) : Host.Outcome State Fault Refusal :=
  opR (.sltiu rd ra imm) (fun a => asWord (ltU a (imm16 imm))) rd ra s

/-- SLLI (R129). -/
def execSlli (rd : BitVec 5) (ra : BitVec 5) (sh : BitVec 6) (s : State) : Host.Outcome State Fault Refusal :=
  opR (.slli rd ra sh) (· <<< sh.toNat) rd ra s

/-- SRLI (R129). -/
def execSrli (rd : BitVec 5) (ra : BitVec 5) (sh : BitVec 6) (s : State) : Host.Outcome State Fault Refusal :=
  opR (.srli rd ra sh) (· >>> sh.toNat) rd ra s

/-- SRAI (R129). -/
def execSrai (rd : BitVec 5) (ra : BitVec 5) (sh : BitVec 6) (s : State) : Host.Outcome State Fault Refusal :=
  opR (.srai rd ra sh) (fun a => a.sshiftRight sh.toNat) rd ra s

/-- HSET (R130). -/
def execHset (rd : BitVec 5) (half : BitVec 2) (imm : BitVec 16) (s : State) : Host.Outcome State Fault Refusal :=
  scalarWord (.hset rd half imm) (fun t => .done (regWriteAfter t rd (hsetWord half imm) 1)) s

/-- HINS (R130). -/
def execHins (rd : BitVec 5) (half : BitVec 2) (imm : BitVec 16) (s : State) : Host.Outcome State Fault Refusal :=
  scalarWord (.hins rd half imm)
    (fun t => .done (regWriteAfter t rd (hinsWord (regRead t rd) half imm) 1)) s

/-- BEQ (R131). -/
def execBeq (ra : BitVec 5) (rb : BitVec 5) (off : BitVec 16) (s : State) : Host.Outcome State Fault Refusal :=
  opBranch (.beq ra rb off) (fun a b => a == b) ra rb off s

/-- BNE (R131). -/
def execBne (ra : BitVec 5) (rb : BitVec 5) (off : BitVec 16) (s : State) : Host.Outcome State Fault Refusal :=
  opBranch (.bne ra rb off) (fun a b => a != b) ra rb off s

/-- BLT (R131). -/
def execBlt (ra : BitVec 5) (rb : BitVec 5) (off : BitVec 16) (s : State) : Host.Outcome State Fault Refusal :=
  opBranch (.blt ra rb off) ltS ra rb off s

/-- BGE (R131). -/
def execBge (ra : BitVec 5) (rb : BitVec 5) (off : BitVec 16) (s : State) : Host.Outcome State Fault Refusal :=
  opBranch (.bge ra rb off) (fun a b => !ltS a b) ra rb off s

/-- BLTU (R131). -/
def execBltu (ra : BitVec 5) (rb : BitVec 5) (off : BitVec 16) (s : State) : Host.Outcome State Fault Refusal :=
  opBranch (.bltu ra rb off) ltU ra rb off s

/-- BGEU (R131). -/
def execBgeu (ra : BitVec 5) (rb : BitVec 5) (off : BitVec 16) (s : State) : Host.Outcome State Fault Refusal :=
  opBranch (.bgeu ra rb off) (fun a b => !ltU a b) ra rb off s

/-- JAL (R132). -/
def execJal (off : BitVec 26) (s : State) : Host.Outcome State Fault Refusal :=
  scalarWord (.jal off) (fun t =>
    let pc := (getUnit t).pc
    .jump (regWriteAfter t 31 (pc + 4) 1) (jalTarget pc off)) s

/-- JALR (R132). -/
def execJalr (rd : BitVec 5) (ra : BitVec 5) (imm : BitVec 16) (s : State) : Host.Outcome State Fault Refusal :=
  scalarWord (.jalr rd ra imm) (fun t =>
    let pc := (getUnit t).pc
    let tgt := regRead t ra + imm16 imm
    if tgt.toNat % 4 ≠ 0 then .trap cALIGN tgt
    else .jump (regWriteAfter t rd (pc + 4) 1) tgt) s

end Sys2Proof.Machine
end

