-- ==== Sys2Proof/Machine/Limits.lean ====
section
/-! DEFINITION. The limits a word's own fields must keep (R21 step 4): operand levels and indexes
(R36), constants (R48), unused fields (R209), matrix fields (R41, R194) and the special register
numbers (R117). -/
namespace Sys2Proof

/-- Level of an operand field (R36). -/
def opLevel (f : BitVec 16) : Nat := f.toNat / 16384
/-- Index of an operand field (R36). -/
def opIndex (f : BitVec 16) : Nat := f.toNat / 8 % 2048
/-- Stride code of an operand field (R36). -/
def opStride (f : BitVec 16) : Nat := f.toNat % 8

/-- Rows a stride code steps an operand by (R36). -/
def strideRows : Nat → Int
  | 0 => 0 | 1 => 1 | 2 => 2 | 3 => 4 | 4 => 8 | 5 => 16 | 6 => 32 | _ => -1

/-- The level, index and stride limits of a source operand (R36). -/
def srcFieldOk (f : BitVec 16) : Bool :=
  match opLevel f with
  | 0 => opIndex f == 0 && opStride f == 0
  | 1 => opIndex f < 16
  | 2 => true
  | _ => opIndex f < 64 && opStride f == 0

/-- The limits of a destination operand (R36). -/
def dstFieldOk (f : BitVec 16) : Bool := opLevel f != 3 && srcFieldOk f

/-- Whether a constant may stand for a value of type `t` (R48). -/
def constFits (t : Fmt) (i : Nat) : Bool :=
  fmtFloat t || (match constInt i with
    | some v => (fmtRange t).1 ≤ v && v ≤ (fmtRange t).2
    | none => false)

/-- A source that delivers values of type `t` (R36, R48). -/
def valueSrcOk (t : Fmt) (f : BitVec 16) : Bool :=
  srcFieldOk f && (opLevel f != 3 || constFits t (opIndex f))

/-- A source that delivers a count or an index, source B of VROT and VPERM (R48, R224, R226). -/
def indexSrcOk (f : BitVec 16) : Bool :=
  srcFieldOk f && (opLevel f != 3 || (constInt (opIndex f)).isSome)

/-- The field limits of an ordinary vector word (R36, R48, R209), its TYPE among those taken (R38);
`src` is VCVT's source format. -/
def vecFieldsOk (op : VOp) (src : Option Fmt) (w : VWord) : Bool :=
  match fmtOfCode w.typ with
  | none => false
  | some t =>
    vopTakes op t && dstFieldOk w.dst && valueSrcOk (src.getD t) w.a
    && (if vopUsesB op then
          (if op == .rot || op == .perm then indexSrcOk w.b else valueSrcOk t w.b)
        else w.b == 0)
    && (if vopUsesC op then valueSrcOk t w.c else w.c == 0)
    && (vopUsesRnd op t src || w.rnd == 0)
    && (vopUsesSat op || !w.sat)

/-- The field limits of VCVT, its source format among those assigned (R38, R217). -/
def cvtFieldsOk (src : BitVec 4) (w : VWord) : Bool :=
  match fmtOfCode src with
  | none => false
  | some f => vecFieldsOk .cvt (some f) w

/-- The field limits of VLDT: its destination (R227). -/
def ldtFieldsOk (w : VTile) : Bool := (fmtOfCode w.typ).isSome && dstFieldOk w.row

/-- The field limits of VSTT: its source (R227). -/
def sttFieldsOk (w : VTile) : Bool :=
  match fmtOfCode w.typ with
  | none => false
  | some t => valueSrcOk t w.row

/-- The immediate of VLOOP and MLOOP: with a counter source only the two low bits (R100). -/
def loopValueOk (src : Bool) (value : BitVec 16) : Bool := !src || value.toNat < 4

/-- The stamp of a matrix word is zero while STAMPEN is zero (R41). -/
def stampOk (en : Bool) (stamp : BitVec 40) : Bool := en || stamp == 0

/-- The fields common to matrix data words (R41). -/
def matFieldsOk (f : MIssue) : Bool := stampOk f.stampen f.stamp

/-- The limits of MMAC's own fields (R41, R191). -/
def mmacFieldsOk (m : MmacF) : Bool :=
  m.dprec.toNat < 13 && (match fmtOfCode m.fmt with
    | some .f32 | some .bf16 | some .f16 | some .e4m3 | some .e5m2
    | some .i16 | some .i8 | some .n8 | some .i4 => true
    | _ => false)

/-- The limits of MEPI's own fields (R41, R194). -/
def mepiFieldsOk (e : MepiF) : Bool :=
  (fmtOfCode e.fmt).isSome && e.scm.toNat < 3 && e.act.toNat < 6
  && ((e.scm == 0 && !e.bias) == (e.hw == 0)) && (!e.ranked || e.aow)

/-- The special register numbers of R117. -/
def srExists (n : BitVec 12) : Bool := n.toNat < 4 || (16 ≤ n.toNat && n.toNat < 22)

/-- The combinations R32 forbids of an AMO with operation `op`, use and destination. -/
def amoFieldsOk (op : Nat) (use : BitVec 3) (rd : BitVec 5) : Bool :=
  use.toNat < 5
  && !(use == 1 && (op == 6 || rd != 0))
  && !(use == 3 && op != 0)
  && !(use == 4 && op != 6)

/-- The uses CAS takes (R32). -/
def casFieldsOk (use : BitVec 3) : Bool := use == 0 || use == 2 || use == 4

/-- FENCE's register fields are zero while their ALL bit is set (R33). -/
def fenceFieldsOk (ball aall : BitVec 1) (ra rb : BitVec 5) : Bool :=
  (ball == 0 || ra == 0) && (aall == 0 || rb == 0)

end Sys2Proof
end

