-- ==== Sys2Proof/WellFormed.lean ====
section
/-! DEFINITION. Which instructions a word can carry without breaking a limit of its own fields (R21
step 4, R27 to R41, R117, R209, R227). A step of the part that is no word is well formed as it is;
an engine command is judged when it is posted and when it starts (R44). -/
namespace Sys2Proof

/-- Whether an instruction keeps the limits of its own fields (R21). -/
def Instr.wf : Instr → Bool
  | .nop => true
  | .halt => true
  | .trap _ => true
  | .brk => true
  | .wfe => true
  | .eret => true
  | .add _ _ _ => true
  | .sub _ _ _ => true
  | .and _ _ _ => true
  | .or _ _ _ => true
  | .xor _ _ _ => true
  | .andn _ _ _ => true
  | .orn _ _ _ => true
  | .sll _ _ _ => true
  | .srl _ _ _ => true
  | .sra _ _ _ => true
  | .rol _ _ _ => true
  | .ror _ _ _ => true
  | .mul _ _ _ => true
  | .mulh _ _ _ => true
  | .mulhu _ _ _ => true
  | .div _ _ _ => true
  | .divu _ _ _ => true
  | .rem _ _ _ => true
  | .remu _ _ _ => true
  | .min _ _ _ => true
  | .max _ _ _ => true
  | .minu _ _ _ => true
  | .maxu _ _ _ => true
  | .slt _ _ _ => true
  | .sltu _ _ _ => true
  | .clz _ _ => true
  | .ctz _ _ => true
  | .popc _ _ => true
  | .brev _ _ => true
  | .clmul _ _ _ => true
  | .clmulh _ _ _ => true
  | .sextB _ _ => true
  | .sextH _ _ => true
  | .sextW _ _ => true
  | .zextB _ _ => true
  | .zextH _ _ => true
  | .zextW _ _ => true
  | .addi _ _ _ => true
  | .andi _ _ _ => true
  | .ori _ _ _ => true
  | .xori _ _ _ => true
  | .slti _ _ _ => true
  | .sltiu _ _ _ => true
  | .slli _ _ _ => true
  | .srli _ _ _ => true
  | .srai _ _ _ => true
  | .hset _ _ _ => true
  | .hins _ _ _ => true
  | .beq _ _ _ => true
  | .bne _ _ _ => true
  | .blt _ _ _ => true
  | .bge _ _ _ => true
  | .bltu _ _ _ => true
  | .bgeu _ _ _ => true
  | .jal _ => true
  | .jalr _ _ _ => true
  | .ldb _ _ _ _ => true
  | .ldh _ _ _ _ => true
  | .ldw _ _ _ _ => true
  | .ldd _ _ _ _ => true
  | .ldbu _ _ _ _ => true
  | .ldhu _ _ _ _ => true
  | .ldwu _ _ _ _ => true
  | .stb _ _ _ _ => true
  | .sth _ _ _ _ => true
  | .stw _ _ _ _ => true
  | .std _ _ _ _ => true
  | .amoAdd rd _ _ _ use _ => amoFieldsOk 0 use rd
  | .amoAnd rd _ _ _ use _ => amoFieldsOk 1 use rd
  | .amoOr rd _ _ _ use _ => amoFieldsOk 2 use rd
  | .amoXor rd _ _ _ use _ => amoFieldsOk 3 use rd
  | .amoMin rd _ _ _ use _ => amoFieldsOk 4 use rd
  | .amoMax rd _ _ _ use _ => amoFieldsOk 5 use rd
  | .amoSwap rd _ _ _ use _ => amoFieldsOk 6 use rd
  | .cas _ _ _ _ use _ => casFieldsOk use
  | .fence _ ball aall ra rb => fenceFieldsOk ball aall ra rb
  | .bknotSet _ _ => true
  | .bknotClr _ _ => true
  | .bstatSet eng _ _ => eng.toNat < 5
  | .bstatClr eng _ _ => eng.toNat < 5
  | .getsr _ sr => srExists sr
  | .putsr _ sr => srExists sr
  | .rdtime _ => true
  | .rdcyc _ => true
  | .sleepuntil _ => true
  | .talloc _ _ => true
  | .tfree _ => true
  | .tinfo _ _ => true
  | .tsetfEmpty _ _ => true
  | .tsetfFull _ _ => true
  | .tsetfTarget _ _ => true
  | .twait _ _ => true
  | .shapeW _ _ => true
  | .portW _ eng _ => eng.toNat < 5
  | .portGo _ eng => eng.toNat < 5
  | .portCut _ eng => eng.toNat < 5
  | .evqPop _ _ => true
  | .evqWait => true
  | .tskArm _ => true
  | .tskSigDec _ => true
  | .tskSigWake _ => true
  | .tskEnd _ => true
  | .tskRetry _ => true
  | .hlCancel _ _ => true
  | .hlCancelReset _ _ => true
  | .hlRead _ _ _ => true
  | .knotSet _ => true
  | .knotClr _ => true
  | .knotWait _ => true
  | .tokGive _ => true
  | .tokTake _ => true
  | .barArrive num => num.toNat < 8
  | .barWait num => num.toNat < 8
  | .bobArrive _ => true
  | .bobExpect _ _ => true
  | .bobWait _ => true
  | .fabBond _ _ => true
  | .fabBondNw _ _ => true
  | .fabDrain _ => true
  | .fabQuery _ _ => true
  | .engStart _ _ => true
  | .engBind _ => true
  | .engFork _ => true
  | .engStop _ => true
  | .engStat _ _ => true
  | .tokCfgClaim _ _ => true
  | .tokCfgRelease _ _ => true
  | .vadd w => vecFieldsOk .add none w
  | .vsub w => vecFieldsOk .sub none w
  | .vmul w => vecFieldsOk .mul none w
  | .vfma w => vecFieldsOk .fma none w
  | .vfms w => vecFieldsOk .fms none w
  | .vnfma w => vecFieldsOk .nfma none w
  | .vmin w => vecFieldsOk .min none w
  | .vmax w => vecFieldsOk .max none w
  | .vabs w => vecFieldsOk .abs none w
  | .vneg w => vecFieldsOk .neg none w
  | .vscale w => vecFieldsOk .scale none w
  | .vrcp w => vecFieldsOk .rcp none w
  | .vrsq w => vecFieldsOk .rsq none w
  | .vexp2 w => vecFieldsOk .exp2 none w
  | .vlog2 w => vecFieldsOk .log2 none w
  | .vtanh w => vecFieldsOk .tanh none w
  | .vsigm w => vecFieldsOk .sigm none w
  | .vsinpi w => vecFieldsOk .sinpi none w
  | .vcospi w => vecFieldsOk .cospi none w
  | .vand w => vecFieldsOk .and none w
  | .vor w => vecFieldsOk .or none w
  | .vxor w => vecFieldsOk .xor none w
  | .vnot w => vecFieldsOk .not none w
  | .vshl w => vecFieldsOk .shl none w
  | .vshr w => vecFieldsOk .shr none w
  | .vsra w => vecFieldsOk .sra none w
  | .vclmul w => vecFieldsOk .clmul none w
  | .vclmulh w => vecFieldsOk .clmulh none w
  | .vpopc w => vecFieldsOk .popc none w
  | .vcmpeq w => vecFieldsOk .cmpeq none w
  | .vcmplt w => vecFieldsOk .cmplt none w
  | .vcmple w => vecFieldsOk .cmple none w
  | .vsel w => vecFieldsOk .sel none w
  | .vclass w => vecFieldsOk .cls none w
  | .vcvt src w => cvtFieldsOk src w
  | .vrnd w => vecFieldsOk .rnd none w
  | .vrsum w => vecFieldsOk .rsum none w
  | .vrmax w => vecFieldsOk .rmax none w
  | .vrmin w => vecFieldsOk .rmin none w
  | .vrarg w => vecFieldsOk .rarg none w
  | .vcsum w => vecFieldsOk .csum none w
  | .vmov w => vecFieldsOk .mov none w
  | .vbcastElem w => vecFieldsOk .bcastElem none w
  | .vbcastRow0 w => vecFieldsOk .bcastRow0 none w
  | .vtrn w => vecFieldsOk .trn none w
  | .vrot w => vecFieldsOk .rot none w
  | .vpackCat w => vecFieldsOk .packCat none w
  | .vpackZip w => vecFieldsOk .packZip none w
  | .vunpkLo w => vecFieldsOk .unpkLo none w
  | .vunpkHi w => vecFieldsOk .unpkHi none w
  | .vunpkEven w => vecFieldsOk .unpkEven none w
  | .vunpkOdd w => vecFieldsOk .unpkOdd none w
  | .vperm w => vecFieldsOk .perm none w
  | .vldt w => ldtFieldsOk w
  | .vstt w => sttFieldsOk w
  | .vshape _ _ _ => true
  | .vloop _ src value _ => loopValueOk src value
  | .vbrAlways _ _ => true
  | .vbrKset _ _ _ => true
  | .vbrKclr _ _ _ => true
  | .vbrLoop _ _ _ => true
  | .vbrEnd _ => true
  | .vmod _ _ tsrc trips _ _ _ => loopValueOk tsrc trips
  | .vknotSet _ _ => true
  | .vknotClr _ _ => true
  | .vknotAny _ src _ => srcFieldOk src
  | .vknotAll _ src _ => srcFieldOk src
  | .vwaitSet _ _ => true
  | .vwaitClr _ _ => true
  | .vwaitDrain _ => true
  | .rep _ _ => true
  | .vnop _ _ _ _ => true
  | .mldw f _ dprec _ _ _ => matFieldsOk f && dprec.toNat < 13
  | .mswap f => matFieldsOk f
  | .mmac f m => matFieldsOk f && mmacFieldsOk m
  | .mepi f e => matFieldsOk f && mepiFieldsOk e
  | .mepiRemote f e _ => matFieldsOk f && mepiFieldsOk e
  | .mmark f => matFieldsOk f
  | .mnop f => matFieldsOk f
  | .mloop c _ src value => stampOk c.stampen c.stamp && loopValueOk src value
  | .mbrAlways c _ => stampOk c.stampen c.stamp
  | .mbrKset c _ _ => stampOk c.stampen c.stamp
  | .mbrKclr c _ _ => stampOk c.stampen c.stamp
  | .mbrLoop c _ _ => stampOk c.stampen c.stamp
  | .mbrEnd c => stampOk c.stampen c.stamp
  | .mmod c _ _ tsrc trips _ _ => stampOk c.stampen c.stamp && loopValueOk tsrc trips
  | .mwaitSet c _ => stampOk c.stampen c.stamp
  | .mwaitClr c _ => stampOk c.stampen c.stamp
  | .mwaitDrain c => stampOk c.stampen c.stamp
  | .courseIssue _ => true
  | .repStep _ => true
  | .moduloSlot _ _ => true
  | .rowLanding _ => true
  | .wordRetirement _ _ => true
  | .scalarWaitResume _ _ => true
  | .loadResponse _ _ => true
  | .requestSlotGrant _ _ => true
  | .trapEntry _ _ => true
  | .unitEnd _ _ => true
  | .depcntDecrement _ => true
  | .dispatch _ _ => true
  | .blocking _ => true
  | .preemption _ _ => true
  | .resume _ _ _ => true
  | .deposit _ => true
  | .heldDepositRelease _ => true
  | .tileClearEnd _ _ => true
  | .hodCopyToTile _ _ => true
  | .hodCopyToMemory _ _ => true
  | .hodCopyMemory _ _ => true
  | .hodFillTile _ _ => true
  | .hodFillMemory _ _ => true
  | .hodImload _ _ => true
  | .tierRun _ _ => true
  | .tierStop _ _ => true
  | .tierStopDrain _ _ => true
  | .tierRopeSource _ _ => true
  | .tierRopeSubscriber _ _ => true
  | .splCollAllReduce _ _ => true
  | .splCollReduceScatter _ _ => true
  | .splCollAllGather _ _ => true
  | .splCollBroadcast _ _ => true
  | .splCollAllToAll _ _ => true
  | .splCollTransposingAllToAll _ _ => true
  | .splPut _ _ => true
  | .splSigSet _ _ => true
  | .splSigAdd _ _ => true
  | .gatOpen _ _ => true
  | .gatClose _ _ => true
  | .gatCloseFlush _ _ => true
  | .trcMark _ _ => true
  | .commandEnd _ => true
  | .hopStart _ _ => true
  | .hopComplete _ _ => true
  | .latenessRecompute _ => true
  | .join _ => true
  | .ropeSend _ => true
  | .consumedReport _ => true
  | .multicastLanding _ => true
  | .subscriberLeave _ _ => true
  | .flitReceive _ => true
  | .flitReoffer _ => true
  | .collectiveAnnounce _ => true
  | .memberWithdraw _ => true
  | .remoteRowHandoff _ _ => true
  | .remoteRowArrival _ => true
  | .signalApply _ => true
  | .linkReplay _ => true
  | .linkRetrain _ => true
  | .portDown _ => true
  | .linkFailure _ => true
  | .barPhaseAdvance _ => true
  | .requestArrival _ _ => true
  | .batchOpen _ => true
  | .batchDeadline _ => true
  | .subArrayReplay _ _ => true
  | .quadTest _ => true
  | .quadTestPass _ => true
  | .quadTestFail _ => true
  | .spareSubstitution _ => true
  | .migrationRemap _ => true
  | .invalidation _ _ => true
  | .invalidationDone _ => true
  | .create _ => true
  | .resize _ => true
  | .destroy _ => true
  | .preempt _ => true
  | .linkup _ => true
  | .attest _ => true
  | .telemetry _ => true
  | .scrub _ => true
  | .retain _ => true
  | .retentionPowerOff _ => true
  | .repairlog _ => true
  | .recover _ => true
  | .recoverReset => true
  | .pfevstatClear _ => true
  | .pferrClear _ => true
  | .evstatClear _ _ => true
  | .registerWrite _ _ => true
  | .coldReset => true
  | .functionLevelReset _ => true
  | .ptpSync _ => true
  | .ppsEdge => true
  | .dvfsChange _ => true
  | .illegal _ => true
  | .fetch _ => true
  | .storeAcknowledgement _ _ => true
  | .dividerFinish _ => true
  | .pageMigration _ _ _ => true
  | .referenceLost => true

end Sys2Proof
end

