-- ==== Sys2Proof/Decode.lean ====
section
/-! DEFINITION. Decoding of the three streams' words and of command quads, total and rejecting by
name (R20 to R43, R100, R185 to R194, R206, R227), and after it the encoder written from the same
tables. A word is a number whose bit 0 is the word's bit 0. -/
namespace Sys2Proof

/-- What a word is (R21): an instruction; one that names an instruction and breaks a limit of its own
fields; or no instruction. -/
inductive Decoded where
  | instr (i : Instr)
  | operand (i : Instr)
  | illegal
  deriving DecidableEq, Repr

/-- An instruction whose unused and reserved bits are zero when `zeros` holds (R21 step 4). -/
def made (zeros : Bool) (i : Instr) : Decoded :=
  if zeros && i.wf then .instr i else .operand i

/-- The `len` bits of `w` from bit `lo`. -/
def bitsAt (w lo len : Nat) : Nat := w / 2 ^ lo % 2 ^ len

/-- Bit `k` of `w`. -/
def bitAt (w k : Nat) : Bool := w / 2 ^ k % 2 == 1

/-! ## Scalar words (R24 to R34) -/

/-- Major 0x00 (R28). -/
def decodeSys (w : Nat) : Decoded :=
  let noRd := bitsAt w 21 5 == 0
  let noRa := bitsAt w 16 5 == 0
  let noRb := bitsAt w 11 5 == 0
  match bitsAt w 0 11 with
  | 1 => made (noRd && noRa && noRb) .nop
  | 2 => made (noRd && noRa && noRb) .halt
  | 3 => made (noRd && noRb) (.trap (.ofNat 5 (w / 2 ^ 16)))
  | 4 => made (noRd && noRa && noRb) .brk
  | 5 => made (noRd && noRa && noRb) .wfe
  | 6 => made (noRd && noRa && noRb) .eret
  | _ => .illegal

/-- Major 0x01 (R27). -/
def decodeAlu (w : Nat) : Decoded :=
  let rd : BitVec 5 := .ofNat 5 (w / 2 ^ 21)
  let ra : BitVec 5 := .ofNat 5 (w / 2 ^ 16)
  let rb : BitVec 5 := .ofNat 5 (w / 2 ^ 11)
  let un := bitsAt w 11 5 == 0
  match bitsAt w 0 11 with
  | 0x00 => made true (.add rd ra rb)
  | 0x01 => made true (.sub rd ra rb)
  | 0x02 => made true (.and rd ra rb)
  | 0x03 => made true (.or rd ra rb)
  | 0x04 => made true (.xor rd ra rb)
  | 0x05 => made true (.andn rd ra rb)
  | 0x06 => made true (.orn rd ra rb)
  | 0x08 => made true (.sll rd ra rb)
  | 0x09 => made true (.srl rd ra rb)
  | 0x0A => made true (.sra rd ra rb)
  | 0x0B => made true (.rol rd ra rb)
  | 0x0C => made true (.ror rd ra rb)
  | 0x10 => made true (.mul rd ra rb)
  | 0x11 => made true (.mulh rd ra rb)
  | 0x12 => made true (.mulhu rd ra rb)
  | 0x14 => made true (.div rd ra rb)
  | 0x15 => made true (.divu rd ra rb)
  | 0x16 => made true (.rem rd ra rb)
  | 0x17 => made true (.remu rd ra rb)
  | 0x18 => made true (.min rd ra rb)
  | 0x19 => made true (.max rd ra rb)
  | 0x1A => made true (.minu rd ra rb)
  | 0x1B => made true (.maxu rd ra rb)
  | 0x1C => made true (.slt rd ra rb)
  | 0x1D => made true (.sltu rd ra rb)
  | 0x20 => made un (.clz rd ra)
  | 0x21 => made un (.ctz rd ra)
  | 0x22 => made un (.popc rd ra)
  | 0x23 => made un (.brev rd ra)
  | 0x24 => made true (.clmul rd ra rb)
  | 0x25 => made true (.clmulh rd ra rb)
  | 0x28 => made un (.sextB rd ra)
  | 0x29 => made un (.sextH rd ra)
  | 0x2A => made un (.sextW rd ra)
  | 0x2C => made un (.zextB rd ra)
  | 0x2D => made un (.zextH rd ra)
  | 0x2E => made un (.zextW rd ra)
  | _ => .illegal

/-- Major 0x08 (R29). -/
def decodeShift (w : Nat) : Decoded :=
  let rd : BitVec 5 := .ofNat 5 (w / 2 ^ 21)
  let ra : BitVec 5 := .ofNat 5 (w / 2 ^ 16)
  let sh : BitVec 6 := .ofNat 6 w
  let zero := bitsAt w 6 8 == 0
  match bitsAt w 14 2 with
  | 0 => made zero (.slli rd ra sh)
  | 1 => made zero (.srli rd ra sh)
  | 2 => made zero (.srai rd ra sh)
  | _ => .illegal

/-- Major 0x24 (R32): an operation of 7 or a use of 5 to 7 names nothing. -/
def decodeAmo (w : Nat) : Decoded :=
  let rd : BitVec 5 := .ofNat 5 (w / 2 ^ 21)
  let ra : BitVec 5 := .ofNat 5 (w / 2 ^ 16)
  let rb : BitVec 5 := .ofNat 5 (w / 2 ^ 11)
  let cls : BitVec 4 := .ofNat 4 (w / 2 ^ 7)
  let use : BitVec 3 := .ofNat 3 (w / 2)
  let size : BitVec 1 := .ofNat 1 w
  if bitsAt w 1 3 ≥ 5 then .illegal else
  match bitsAt w 4 3 with
  | 0 => made true (.amoAdd rd ra rb cls use size)
  | 1 => made true (.amoAnd rd ra rb cls use size)
  | 2 => made true (.amoOr rd ra rb cls use size)
  | 3 => made true (.amoXor rd ra rb cls use size)
  | 4 => made true (.amoMin rd ra rb cls use size)
  | 5 => made true (.amoMax rd ra rb cls use size)
  | 6 => made true (.amoSwap rd ra rb cls use size)
  | _ => .illegal

/-- Major 0x27 (R30). -/
def decodeBranchBit (w : Nat) : Decoded :=
  let num : BitVec 4 := .ofNat 4 (w / 2 ^ 21)
  let flag : BitVec 2 := .ofNat 2 (w / 2 ^ 16)
  let off : BitVec 16 := .ofNat 16 w
  match bitsAt w 16 5, bitAt w 25 with
  | 0, true => made true (.bknotSet num off)
  | 0, false => made true (.bknotClr num off)
  | 16, true | 17, true | 18, true | 19, true => made true (.bstatSet num flag off)
  | 16, false | 17, false | 18, false | 19, false => made true (.bstatClr num flag off)
  | _, _ => .illegal

/-- Major 0x28 (R31): a number of no special register names nothing. -/
def decodeSpecial (w : Nat) : Decoded :=
  let rd : BitVec 5 := .ofNat 5 (w / 2 ^ 21)
  let ra : BitVec 5 := .ofNat 5 (w / 2 ^ 16)
  let num : BitVec 12 := .ofNat 12 w
  match bitsAt w 12 4 with
  | 0 => if srExists num then made (bitsAt w 16 5 == 0) (.getsr rd num) else .illegal
  | 1 => if srExists num then made (bitsAt w 21 5 == 0) (.putsr ra num) else .illegal
  | 2 => made (bitsAt w 16 5 == 0 && bitsAt w 0 12 == 0) (.rdtime rd)
  | 3 => made (bitsAt w 16 5 == 0 && bitsAt w 0 12 == 0) (.rdcyc rd)
  | 4 => made (bitsAt w 21 5 == 0 && bitsAt w 0 12 == 0) (.sleepuntil ra)
  | _ => .illegal

/-- Majors 0x2C, 0x2E, 0x30 and 0x31 by func (R34). A word that a register value splits into rows
decodes to the first of them; the machine reads the register (log 24). -/
def decodeFunc (major w : Nat) : Decoded :=
  let rd : BitVec 5 := .ofNat 5 (w / 2 ^ 21)
  let ra : BitVec 5 := .ofNat 5 (w / 2 ^ 16)
  let rb : BitVec 5 := .ofNat 5 (w / 2 ^ 11)
  let noRd := bitsAt w 21 5 == 0
  let noRb := bitsAt w 11 5 == 0
  match major, bitsAt w 0 11 with
  | 0x2C, 1 => made noRb (.talloc rd ra)
  | 0x2C, 2 => made (noRd && noRb) (.tfree ra)
  | 0x2C, 3 => made noRb (.tinfo rd ra)
  | 0x2C, 4 => made noRd (.tsetfEmpty ra rb)
  | 0x2C, 5 => made noRd (.twait ra rb)
  | 0x2C, 6 => made noRd (.shapeW ra rb)
  | 0x2E, 1 => made (noRd && noRb) (.tskArm ra)
  | 0x2E, 2 => made (noRd && noRb) (.tskSigDec ra)
  | 0x2E, 3 => made (noRd && noRb) (.tskEnd ra)
  | 0x2E, 4 => made (noRd && noRb) (.tskRetry ra)
  | 0x2E, 5 => made noRd (.hlCancel ra rb)
  | 0x2E, 6 => made true (.hlRead rd ra rb)
  | 0x30, 0x100 => made noRb (.fabBond rd ra)
  | 0x30, 0x101 => made noRb (.fabBondNw rd ra)
  | 0x30, 0x200 => made (noRd && noRb) (.fabDrain ra)
  | 0x30, 0x300 => made noRb (.fabQuery rd ra)
  | 0x31, 1 => made noRd (.engStart ra rb)
  | 0x31, 2 => made (noRd && noRb) (.engBind ra)
  | 0x31, 3 => made (noRd && noRb) (.engFork ra)
  | 0x31, 4 => made (noRd && noRb) (.engStop ra)
  | 0x31, 5 => made noRb (.engStat rd ra)
  | 0x31, 6 => made noRd (.tokCfgClaim ra rb)
  | _, _ => .illegal

/-- Major 0x2D (R34). -/
def decodePort (w : Nat) : Decoded :=
  let rd : BitVec 5 := .ofNat 5 (w / 2 ^ 21)
  let ra : BitVec 5 := .ofNat 5 (w / 2 ^ 16)
  let eng : BitVec 4 := .ofNat 4 (w / 2 ^ 4)
  let noRd := bitsAt w 21 5 == 0
  let noRa := bitsAt w 16 5 == 0
  let noRb := bitsAt w 11 5 == 0
  let noEng := bitsAt w 4 4 == 0
  let noWord := bitsAt w 2 2 == 0
  let res := bitsAt w 0 2 == 0
  match bitsAt w 8 3 with
  | 1 => made (noRd && noRb && res) (.portW ra eng (.ofNat 2 (w / 2 ^ 2)))
  | 2 => made (noRa && noRb && noWord && res) (.portGo rd eng)
  | 3 => made (noRd && noRb && noWord && res) (.portCut ra eng)
  | 4 => made (noRb && noEng && noWord && res) (.evqPop rd ra)
  | 5 => made (noRd && noRa && noRb && noEng && noWord && res) .evqWait
  | _ => .illegal

/-- Major 0x2F (R34). -/
def decodeSync (w : Nat) : Decoded :=
  let num : BitVec 4 := .ofNat 4 w
  let ra : BitVec 5 := .ofNat 5 (w / 2 ^ 16)
  let rb : BitVec 5 := .ofNat 5 (w / 2 ^ 11)
  let noRd := bitsAt w 21 5 == 0
  let noRa := bitsAt w 16 5 == 0
  let noRb := bitsAt w 11 5 == 0
  let noNum := bitsAt w 0 4 == 0
  match bitsAt w 4 7 with
  | 0x01 => made (noRd && noRa && noRb) (.knotSet num)
  | 0x02 => made (noRd && noRa && noRb) (.knotClr num)
  | 0x03 => made (noRd && noRa && noRb) (.knotWait num)
  | 0x04 => made (noRd && noRa && noRb) (.tokGive num)
  | 0x05 => made (noRd && noRa && noRb) (.tokTake num)
  | 0x06 => made (noRd && noRa && noRb) (.barArrive num)
  | 0x07 => made (noRd && noRa && noRb) (.barWait num)
  | 0x08 => made (noRd && noRb && noNum) (.bobArrive ra)
  | 0x09 => made (noRd && noNum) (.bobExpect ra rb)
  | 0x0A => made (noRd && noRb && noNum) (.bobWait ra)
  | _ => .illegal

/-- A scalar word of 32 bits (R24, R25). -/
def decodeScalar (w : Nat) : Decoded :=
  let rd : BitVec 5 := .ofNat 5 (w / 2 ^ 21)
  let ra : BitVec 5 := .ofNat 5 (w / 2 ^ 16)
  let rb : BitVec 5 := .ofNat 5 (w / 2 ^ 11)
  let imm : BitVec 16 := .ofNat 16 w
  let half : BitVec 2 := .ofNat 2 (w / 2 ^ 16)
  let cls : BitVec 4 := .ofNat 4 (w / 2 ^ 12)
  let off : BitVec 12 := .ofNat 12 w
  match bitsAt w 26 6 with
  | 0x00 => decodeSys w
  | 0x01 => decodeAlu w
  | 0x02 => made true (.addi rd ra imm)
  | 0x03 => made true (.andi rd ra imm)
  | 0x04 => made true (.ori rd ra imm)
  | 0x05 => made true (.xori rd ra imm)
  | 0x06 => made true (.slti rd ra imm)
  | 0x07 => made true (.sltiu rd ra imm)
  | 0x08 => decodeShift w
  | 0x09 => made (bitsAt w 18 3 == 0) (.hset rd half imm)
  | 0x0A => made (bitsAt w 18 3 == 0) (.hins rd half imm)
  | 0x10 => made true (.beq rd ra imm)
  | 0x11 => made true (.bne rd ra imm)
  | 0x12 => made true (.blt rd ra imm)
  | 0x13 => made true (.bge rd ra imm)
  | 0x14 => made true (.bltu rd ra imm)
  | 0x15 => made true (.bgeu rd ra imm)
  | 0x16 => made true (.jal (.ofNat 26 w))
  | 0x17 => made true (.jalr rd ra imm)
  | 0x18 => made true (.ldb rd ra cls off)
  | 0x19 => made true (.ldh rd ra cls off)
  | 0x1A => made true (.ldw rd ra cls off)
  | 0x1B => made true (.ldd rd ra cls off)
  | 0x1C => made true (.ldbu rd ra cls off)
  | 0x1D => made true (.ldhu rd ra cls off)
  | 0x1E => made true (.ldwu rd ra cls off)
  | 0x20 => made true (.stb rd ra cls off)
  | 0x21 => made true (.sth rd ra cls off)
  | 0x22 => made true (.stw rd ra cls off)
  | 0x23 => made true (.std rd ra cls off)
  | 0x24 => decodeAmo w
  | 0x25 => if bitsAt w 1 3 ≥ 5 then .illegal else
      made (bitsAt w 4 3 == 0) (.cas rd ra rb (.ofNat 4 (w / 2 ^ 7)) (.ofNat 3 (w / 2)) (.ofNat 1 w))
  | 0x26 => made (!bitAt w 21 && bitsAt w 0 11 == 0)
      (.fence (.ofNat 2 (w / 2 ^ 24)) (.ofNat 1 (w / 2 ^ 23)) (.ofNat 1 (w / 2 ^ 22)) ra rb)
  | 0x27 => decodeBranchBit w
  | 0x28 => decodeSpecial w
  | 0x2C => decodeFunc 0x2C w
  | 0x2D => decodePort w
  | 0x2E => decodeFunc 0x2E w
  | 0x2F => decodeSync w
  | 0x30 => decodeFunc 0x30 w
  | 0x31 => decodeFunc 0x31 w
  | _ => .illegal

/-! ## Vector words (R35 to R38, R100, R206, R227) -/

/-- The ordinary fields of a vector word (R35). -/
def vwordOf (w : Nat) : VWord :=
  { typ := .ofNat 4 (w / 2 ^ 84), dst := .ofNat 16 (w / 2 ^ 68), a := .ofNat 16 (w / 2 ^ 52)
    b := .ofNat 16 (w / 2 ^ 36), c := .ofNat 16 (w / 2 ^ 20), kpred := .ofNat 4 (w / 2 ^ 16)
    take := .ofNat 4 (w / 2 ^ 12), give := .ofNat 4 (w / 2 ^ 8), rnd := .ofNat 2 (w / 2 ^ 6)
    sat := bitAt w 5, course := bitAt w 4 }

/-- The fields of VLDT and VSTT (R227); `row` is at bit `lo`. -/
def vtileOf (w lo : Nat) : VTile :=
  { typ := .ofNat 4 (w / 2 ^ 84), row := .ofNat 16 (w / 2 ^ lo), handle := .ofNat 12 (w / 2 ^ 40)
    trow := .ofNat 12 (w / 2 ^ 28), tseg := .ofNat 7 (w / 2 ^ 21), tstr := .ofNat 3 w
    kpred := .ofNat 4 (w / 2 ^ 16), take := .ofNat 4 (w / 2 ^ 12), give := .ofNat 4 (w / 2 ^ 8)
    course := bitAt w 4 }

/-- A word that an operation of R38 makes: ILLEGAL for a type it does not take. -/
def vecMade (op : VOp) (typ : BitVec 4) (zeros : Bool) (i : Instr) : Decoded :=
  match fmtOfCode typ with
  | some t => if vopTakes op t then made zeros i else .illegal
  | none => .illegal

/-- The control words 0x70 to 0x77 (R100, R206); the fields outside 83:20 and COURSE are zero or 0xF. -/
def decodeVecControl (w : Nat) : Decoded :=
  let co := bitAt w 4
  let fx := bitsAt w 8 12 == 0xFFF && bitsAt w 5 3 == 0 && bitsAt w 0 4 == 0
  let lc : BitVec 2 := .ofNat 2 (w / 2 ^ 74)
  let k : BitVec 4 := .ofNat 4 (w / 2 ^ 76)
  let tg : BitVec 13 := .ofNat 13 (w / 2 ^ 60)
  let k8 : BitVec 4 := .ofNat 4 (w / 2 ^ 78)
  let noK := bitsAt w 76 4 == 0
  let noLc := bitsAt w 74 2 == 0
  let noTg := bitsAt w 60 13 == 0
  let low := !bitAt w 73 && bitsAt w 20 40 == 0
  if bitsAt w 84 4 != 0 then .illegal else
  match bitsAt w 88 8 with
  | 0x70 => made (fx && bitsAt w 20 53 == 0)
      (.vshape (.ofNat 6 (w / 2 ^ 78)) (.ofNat 5 (w / 2 ^ 73)) co)
  | 0x71 => made (fx && bitsAt w 20 45 == 0)
      (.vloop (.ofNat 2 (w / 2 ^ 82)) (bitAt w 81) (.ofNat 16 (w / 2 ^ 65)) co)
  | 0x72 =>
    match bitsAt w 80 4 with
    | 0 => made (fx && low && noK && noLc) (.vbrAlways tg co)
    | 1 => made (fx && low && noLc) (.vbrKset k tg co)
    | 2 => made (fx && low && noLc) (.vbrKclr k tg co)
    | 3 => made (fx && low && noK) (.vbrLoop lc tg co)
    | 4 => made (fx && low && noK && noLc && noTg) (.vbrEnd co)
    | _ => .illegal
  | 0x73 => made (fx && bitsAt w 20 30 == 0)
      (.vmod (.ofNat 6 (w / 2 ^ 78)) (.ofNat 6 (w / 2 ^ 72)) (bitAt w 71) (.ofNat 16 (w / 2 ^ 55))
        (.ofNat 4 (w / 2 ^ 51)) (bitAt w 50) co)
  | 0x74 =>
    let gap := bitsAt w 68 10 == 0 && bitsAt w 20 32 == 0
    match bitsAt w 82 2 with
    | 0 => made (fx && gap && bitsAt w 52 16 == 0) (.vknotSet k8 co)
    | 1 => made (fx && gap && bitsAt w 52 16 == 0) (.vknotClr k8 co)
    | 2 => made (fx && gap) (.vknotAny k8 (.ofNat 16 (w / 2 ^ 52)) co)
    | _ => made (fx && gap) (.vknotAll k8 (.ofNat 16 (w / 2 ^ 52)) co)
  | 0x75 =>
    match bitsAt w 82 2 with
    | 0 => made (fx && bitsAt w 20 58 == 0) (.vwaitSet k8 co)
    | 1 => made (fx && bitsAt w 20 58 == 0) (.vwaitClr k8 co)
    | 2 => made (fx && bitsAt w 20 62 == 0) (.vwaitDrain co)
    | _ => .illegal
  | 0x76 => made (fx && bitsAt w 20 58 == 0) (.rep (.ofNat 6 (w / 2 ^ 78)) co)
  | 0x77 => made (bitsAt w 20 64 == 0 && bitsAt w 5 3 == 0 && bitsAt w 0 4 == 0)
      (.vnop (.ofNat 4 (w / 2 ^ 16)) (.ofNat 4 (w / 2 ^ 12)) (.ofNat 4 (w / 2 ^ 8)) co)
  | _ => .illegal

/-- A vector word of 96 bits (R37). -/
def decodeVector (w : Nat) : Decoded :=
  let v := vwordOf w
  let m := bitsAt w 0 4
  match bitsAt w 88 8 with
  | 0x01 => vecMade .add v.typ (m = 0) (.vadd v)
  | 0x02 => vecMade .sub v.typ (m = 0) (.vsub v)
  | 0x03 => vecMade .mul v.typ (m = 0) (.vmul v)
  | 0x04 => vecMade .fma v.typ (m = 0) (.vfma v)
  | 0x05 => vecMade .fms v.typ (m = 0) (.vfms v)
  | 0x06 => vecMade .nfma v.typ (m = 0) (.vnfma v)
  | 0x07 => vecMade .min v.typ (m = 0) (.vmin v)
  | 0x08 => vecMade .max v.typ (m = 0) (.vmax v)
  | 0x09 => vecMade .abs v.typ (m = 0) (.vabs v)
  | 0x0A => vecMade .neg v.typ (m = 0) (.vneg v)
  | 0x0B => vecMade .scale v.typ (m = 0) (.vscale v)
  | 0x10 => vecMade .rcp v.typ (m = 0) (.vrcp v)
  | 0x11 => vecMade .rsq v.typ (m = 0) (.vrsq v)
  | 0x12 => vecMade .exp2 v.typ (m = 0) (.vexp2 v)
  | 0x13 => vecMade .log2 v.typ (m = 0) (.vlog2 v)
  | 0x14 => vecMade .tanh v.typ (m = 0) (.vtanh v)
  | 0x15 => vecMade .sigm v.typ (m = 0) (.vsigm v)
  | 0x16 => vecMade .sinpi v.typ (m = 0) (.vsinpi v)
  | 0x17 => vecMade .cospi v.typ (m = 0) (.vcospi v)
  | 0x20 => vecMade .and v.typ (m = 0) (.vand v)
  | 0x21 => vecMade .or v.typ (m = 0) (.vor v)
  | 0x22 => vecMade .xor v.typ (m = 0) (.vxor v)
  | 0x23 => vecMade .not v.typ (m = 0) (.vnot v)
  | 0x24 => vecMade .shl v.typ (m = 0) (.vshl v)
  | 0x25 => vecMade .shr v.typ (m = 0) (.vshr v)
  | 0x26 => vecMade .sra v.typ (m = 0) (.vsra v)
  | 0x27 => vecMade .clmul v.typ (m = 0) (.vclmul v)
  | 0x28 => vecMade .clmulh v.typ (m = 0) (.vclmulh v)
  | 0x29 => vecMade .popc v.typ (m = 0) (.vpopc v)
  | 0x30 => vecMade .cmpeq v.typ (m = 0) (.vcmpeq v)
  | 0x31 => vecMade .cmplt v.typ (m = 0) (.vcmplt v)
  | 0x32 => vecMade .cmple v.typ (m = 0) (.vcmple v)
  | 0x33 => vecMade .sel v.typ (m = 0) (.vsel v)
  | 0x34 => vecMade .cls v.typ (m = 0) (.vclass v)
  | 0x38 => if m ≥ 13 then .illegal else vecMade .cvt v.typ true (.vcvt (.ofNat 4 m) v)
  | 0x39 => vecMade .rnd v.typ (m = 0) (.vrnd v)
  | 0x40 => vecMade .rsum v.typ (m = 0) (.vrsum v)
  | 0x41 => vecMade .rmax v.typ (m = 0) (.vrmax v)
  | 0x42 => vecMade .rmin v.typ (m = 0) (.vrmin v)
  | 0x43 => vecMade .rarg v.typ (m = 0) (.vrarg v)
  | 0x44 => vecMade .csum v.typ (m = 0) (.vcsum v)
  | 0x50 => vecMade .mov v.typ (m = 0) (.vmov v)
  | 0x51 => if m = 1 then vecMade .bcastRow0 v.typ true (.vbcastRow0 v)
      else vecMade .bcastElem v.typ (m = 0) (.vbcastElem v)
  | 0x52 => vecMade .trn v.typ (m = 0) (.vtrn v)
  | 0x53 => vecMade .rot v.typ (m = 0) (.vrot v)
  | 0x54 => if m = 1 then vecMade .packZip v.typ true (.vpackZip v)
      else vecMade .packCat v.typ (m = 0) (.vpackCat v)
  | 0x55 =>
    match m with
    | 1 => vecMade .unpkHi v.typ true (.vunpkHi v)
    | 2 => vecMade .unpkEven v.typ true (.vunpkEven v)
    | 3 => vecMade .unpkOdd v.typ true (.vunpkOdd v)
    | _ => vecMade .unpkLo v.typ (m = 0) (.vunpkLo v)
  | 0x56 => vecMade .perm v.typ (m = 0) (.vperm v)
  | 0x60 => vecMade .ldt v.typ (bitsAt w 52 16 == 0 && !bitAt w 20 && !bitAt w 3 && bitsAt w 5 3 == 0)
      (.vldt (vtileOf w 68))
  | 0x61 => vecMade .stt v.typ (bitsAt w 68 16 == 0 && !bitAt w 20 && !bitAt w 3 && bitsAt w 5 3 == 0)
      (.vstt (vtileOf w 52))
  | _ => decodeVecControl w

/-! ## Matrix words (R39 to R41, R100, R185 to R194) -/

/-- The fields every matrix data word shares (R39). -/
def missueOf (w : Nat) : MIssue :=
  { mark := bitAt w 120, take := .ofNat 4 (w / 2 ^ 112), give := .ofNat 4 (w / 2 ^ 108)
    knot := .ofNat 4 (w / 2 ^ 104), stampen := bitAt w 101, stamp := .ofNat 40 (w / 2 ^ 61) }

/-- The fields a matrix control word carries beside its own (R100). -/
def mctlOf (w : Nat) : MCtl :=
  { mark := bitAt w 120, stampen := bitAt w 101, stamp := .ofNat 40 (w / 2 ^ 61) }

/-- The fields of MMAC (R192). -/
def mmacOf (w : Nat) : MmacF :=
  { fmt := .ofNat 4 (w / 2 ^ 180), hw := .ofNat 12 (w / 2 ^ 168), ha := .ofNat 12 (w / 2 ^ 156)
    hc := .ofNat 12 (w / 2 ^ 144), sha := .ofNat 8 (w / 2 ^ 136), shc := .ofNat 8 (w / 2 ^ 128)
    dprec := .ofNat 4 (w / 2 ^ 124), nega := bitAt w 123, negw := bitAt w 122, accdis := bitAt w 121
    mm1 := .ofNat 11 (w / 2 ^ 50), kr0 := .ofNat 3 (w / 2 ^ 47), krm1 := .ofNat 3 (w / 2 ^ 44)
    nc0 := .ofNat 4 (w / 2 ^ 40), ncm1 := .ofNat 4 (w / 2 ^ 36) }

/-- The fields of MEPI (R194). -/
def mepiOf (w : Nat) : MepiF :=
  { fmt := .ofNat 4 (w / 2 ^ 180), hw := .ofNat 12 (w / 2 ^ 168), ha := .ofNat 12 (w / 2 ^ 156)
    hc := .ofNat 12 (w / 2 ^ 144), sha := .ofNat 8 (w / 2 ^ 136), shc := .ofNat 8 (w / 2 ^ 128)
    sat := bitAt w 119, rnd := .ofNat 2 (w / 2 ^ 102), scm := .ofNat 3 (w / 2 ^ 58)
    bias := bitAt w 57, act := .ofNat 4 (w / 2 ^ 53), aow := bitAt w 51, ranked := bitAt w 50
    zacc := bitAt w 49, cls := .ofNat 4 (w / 2 ^ 16) }

/-- The remote destination of MEPI (R194). -/
def mdestOf (w : Nat) : MDest :=
  { pkg := .ofNat 12 (w / 2 ^ 37), core := .ofNat 9 (w / 2 ^ 28), gen := .ofNat 8 (w / 2 ^ 20) }

/-- A matrix word of 192 bits (R40). A reserved format code is ILLEGAL whatever the opcode (R21). -/
def decodeMatrix (w : Nat) : Decoded :=
  let f := missueOf w
  let c := mctlOf w
  let res := bitsAt w 116 3 == 0
  let noFmt := bitsAt w 180 4 == 0
  let noHw := bitsAt w 168 12 == 0
  let noHs := bitsAt w 128 40 == 0
  let noDp := bitsAt w 124 4 == 0
  let noNeg := bitsAt w 121 3 == 0
  let noSat := !bitAt w 119 && bitsAt w 102 2 == 0
  let ctl := res && noFmt && noHw && noHs && noDp && noNeg && noSat && bitsAt w 104 12 == 0xFFF
  let lc : BitVec 2 := .ofNat 2 (w / 2 ^ 51)
  let k : BitVec 4 := .ofNat 4 (w / 2 ^ 53)
  let tg : BitVec 13 := .ofNat 13 (w / 2 ^ 38)
  let noK := bitsAt w 53 4 == 0
  let noLc := bitsAt w 51 2 == 0
  let noTg := bitsAt w 38 13 == 0
  let low := bitsAt w 0 38 == 0
  if bitsAt w 180 4 ≥ 13 then .illegal else
  match bitsAt w 184 8 with
  | 0x01 => made (res && noFmt && noHs && noNeg && noSat && bitsAt w 0 53 == 0)
      (.mldw f (.ofNat 12 (w / 2 ^ 168)) (.ofNat 4 (w / 2 ^ 124)) (bitAt w 60) (.ofNat 3 (w / 2 ^ 57))
        (.ofNat 4 (w / 2 ^ 53)))
  | 0x02 => made (res && noFmt && noHw && noHs && noDp && noNeg && noSat && bitsAt w 0 61 == 0) (.mswap f)
  | 0x03 => made (res && noSat && bitsAt w 0 36 == 0) (.mmac f (mmacOf w))
  | 0x04 =>
    if bitAt w 52 then made (res && noDp && noNeg && bitsAt w 0 16 == 0) (.mepiRemote f (mepiOf w) (mdestOf w))
    else made (res && noDp && noNeg && bitsAt w 0 16 == 0 && bitsAt w 20 29 == 0) (.mepi f (mepiOf w))
  | 0x05 => made (res && noFmt && noHw && noHs && noDp && noNeg && noSat && bitsAt w 0 61 == 0) (.mmark f)
  | 0x08 => made (ctl && bitsAt w 0 42 == 0)
      (.mloop c (.ofNat 2 (w / 2 ^ 59)) (bitAt w 58) (.ofNat 16 (w / 2 ^ 42)))
  | 0x09 =>
    match bitsAt w 57 4 with
    | 0 => made (ctl && low && noK && noLc) (.mbrAlways c tg)
    | 1 => made (ctl && low && noLc) (.mbrKset c k tg)
    | 2 => made (ctl && low && noLc) (.mbrKclr c k tg)
    | 3 => made (ctl && low && noK) (.mbrLoop c lc tg)
    | 4 => made (ctl && low && noK && noLc && noTg) (.mbrEnd c)
    | _ => .illegal
  | 0x0A => made (ctl && bitsAt w 0 27 == 0)
      (.mmod c (.ofNat 6 (w / 2 ^ 55)) (.ofNat 6 (w / 2 ^ 49)) (bitAt w 48) (.ofNat 16 (w / 2 ^ 32))
        (.ofNat 4 (w / 2 ^ 28)) (bitAt w 27))
  | 0x0B =>
    match bitsAt w 59 2 with
    | 0 => made (ctl && bitsAt w 0 55 == 0) (.mwaitSet c (.ofNat 4 (w / 2 ^ 55)))
    | 1 => made (ctl && bitsAt w 0 55 == 0) (.mwaitClr c (.ofNat 4 (w / 2 ^ 55)))
    | 2 => made (ctl && bitsAt w 0 59 == 0) (.mwaitDrain c)
    | _ => .illegal
  | 0x0C => made (res && noFmt && noHw && noHs && noDp && noNeg && noSat && bitsAt w 0 61 == 0) (.mnop f)
  | _ => .illegal


/-! ## The encoder, from the same tables -/

/-- The number of a Boolean field. -/
def flagNat (b : Bool) : Nat := if b then 1 else 0

/-- The scalar word of an instruction (R24 to R34); none for what is no scalar word. -/
def encodeScalar : Instr → Option Nat
  | .nop => some (0x00000001)
  | .halt => some (0x00000002)
  | .trap ra => some (0x00000003 + ra.toNat * 65536)
  | .brk => some (0x00000004)
  | .wfe => some (0x00000005)
  | .eret => some (0x00000006)
  | .add rd ra rb => some (0x04000000 + rd.toNat * 2097152 + ra.toNat * 65536 + rb.toNat * 2048)
  | .sub rd ra rb => some (0x04000001 + rd.toNat * 2097152 + ra.toNat * 65536 + rb.toNat * 2048)
  | .and rd ra rb => some (0x04000002 + rd.toNat * 2097152 + ra.toNat * 65536 + rb.toNat * 2048)
  | .or rd ra rb => some (0x04000003 + rd.toNat * 2097152 + ra.toNat * 65536 + rb.toNat * 2048)
  | .xor rd ra rb => some (0x04000004 + rd.toNat * 2097152 + ra.toNat * 65536 + rb.toNat * 2048)
  | .andn rd ra rb => some (0x04000005 + rd.toNat * 2097152 + ra.toNat * 65536 + rb.toNat * 2048)
  | .orn rd ra rb => some (0x04000006 + rd.toNat * 2097152 + ra.toNat * 65536 + rb.toNat * 2048)
  | .sll rd ra rb => some (0x04000008 + rd.toNat * 2097152 + ra.toNat * 65536 + rb.toNat * 2048)
  | .srl rd ra rb => some (0x04000009 + rd.toNat * 2097152 + ra.toNat * 65536 + rb.toNat * 2048)
  | .sra rd ra rb => some (0x0400000A + rd.toNat * 2097152 + ra.toNat * 65536 + rb.toNat * 2048)
  | .rol rd ra rb => some (0x0400000B + rd.toNat * 2097152 + ra.toNat * 65536 + rb.toNat * 2048)
  | .ror rd ra rb => some (0x0400000C + rd.toNat * 2097152 + ra.toNat * 65536 + rb.toNat * 2048)
  | .mul rd ra rb => some (0x04000010 + rd.toNat * 2097152 + ra.toNat * 65536 + rb.toNat * 2048)
  | .mulh rd ra rb => some (0x04000011 + rd.toNat * 2097152 + ra.toNat * 65536 + rb.toNat * 2048)
  | .mulhu rd ra rb => some (0x04000012 + rd.toNat * 2097152 + ra.toNat * 65536 + rb.toNat * 2048)
  | .div rd ra rb => some (0x04000014 + rd.toNat * 2097152 + ra.toNat * 65536 + rb.toNat * 2048)
  | .divu rd ra rb => some (0x04000015 + rd.toNat * 2097152 + ra.toNat * 65536 + rb.toNat * 2048)
  | .rem rd ra rb => some (0x04000016 + rd.toNat * 2097152 + ra.toNat * 65536 + rb.toNat * 2048)
  | .remu rd ra rb => some (0x04000017 + rd.toNat * 2097152 + ra.toNat * 65536 + rb.toNat * 2048)
  | .min rd ra rb => some (0x04000018 + rd.toNat * 2097152 + ra.toNat * 65536 + rb.toNat * 2048)
  | .max rd ra rb => some (0x04000019 + rd.toNat * 2097152 + ra.toNat * 65536 + rb.toNat * 2048)
  | .minu rd ra rb => some (0x0400001A + rd.toNat * 2097152 + ra.toNat * 65536 + rb.toNat * 2048)
  | .maxu rd ra rb => some (0x0400001B + rd.toNat * 2097152 + ra.toNat * 65536 + rb.toNat * 2048)
  | .slt rd ra rb => some (0x0400001C + rd.toNat * 2097152 + ra.toNat * 65536 + rb.toNat * 2048)
  | .sltu rd ra rb => some (0x0400001D + rd.toNat * 2097152 + ra.toNat * 65536 + rb.toNat * 2048)
  | .clz rd ra => some (0x04000020 + rd.toNat * 2097152 + ra.toNat * 65536)
  | .ctz rd ra => some (0x04000021 + rd.toNat * 2097152 + ra.toNat * 65536)
  | .popc rd ra => some (0x04000022 + rd.toNat * 2097152 + ra.toNat * 65536)
  | .brev rd ra => some (0x04000023 + rd.toNat * 2097152 + ra.toNat * 65536)
  | .clmul rd ra rb => some (0x04000024 + rd.toNat * 2097152 + ra.toNat * 65536 + rb.toNat * 2048)
  | .clmulh rd ra rb => some (0x04000025 + rd.toNat * 2097152 + ra.toNat * 65536 + rb.toNat * 2048)
  | .sextB rd ra => some (0x04000028 + rd.toNat * 2097152 + ra.toNat * 65536)
  | .sextH rd ra => some (0x04000029 + rd.toNat * 2097152 + ra.toNat * 65536)
  | .sextW rd ra => some (0x0400002A + rd.toNat * 2097152 + ra.toNat * 65536)
  | .zextB rd ra => some (0x0400002C + rd.toNat * 2097152 + ra.toNat * 65536)
  | .zextH rd ra => some (0x0400002D + rd.toNat * 2097152 + ra.toNat * 65536)
  | .zextW rd ra => some (0x0400002E + rd.toNat * 2097152 + ra.toNat * 65536)
  | .addi rd ra imm => some (0x08000000 + rd.toNat * 2097152 + ra.toNat * 65536 + imm.toNat)
  | .andi rd ra imm => some (0x0C000000 + rd.toNat * 2097152 + ra.toNat * 65536 + imm.toNat)
  | .ori rd ra imm => some (0x10000000 + rd.toNat * 2097152 + ra.toNat * 65536 + imm.toNat)
  | .xori rd ra imm => some (0x14000000 + rd.toNat * 2097152 + ra.toNat * 65536 + imm.toNat)
  | .slti rd ra imm => some (0x18000000 + rd.toNat * 2097152 + ra.toNat * 65536 + imm.toNat)
  | .sltiu rd ra imm => some (0x1C000000 + rd.toNat * 2097152 + ra.toNat * 65536 + imm.toNat)
  | .slli rd ra sh => some (0x20000000 + rd.toNat * 2097152 + ra.toNat * 65536 + sh.toNat)
  | .srli rd ra sh => some (0x20004000 + rd.toNat * 2097152 + ra.toNat * 65536 + sh.toNat)
  | .srai rd ra sh => some (0x20008000 + rd.toNat * 2097152 + ra.toNat * 65536 + sh.toNat)
  | .hset rd half imm => some (0x24000000 + rd.toNat * 2097152 + half.toNat * 65536 + imm.toNat)
  | .hins rd half imm => some (0x28000000 + rd.toNat * 2097152 + half.toNat * 65536 + imm.toNat)
  | .beq ra rb off => some (0x40000000 + ra.toNat * 2097152 + rb.toNat * 65536 + off.toNat)
  | .bne ra rb off => some (0x44000000 + ra.toNat * 2097152 + rb.toNat * 65536 + off.toNat)
  | .blt ra rb off => some (0x48000000 + ra.toNat * 2097152 + rb.toNat * 65536 + off.toNat)
  | .bge ra rb off => some (0x4C000000 + ra.toNat * 2097152 + rb.toNat * 65536 + off.toNat)
  | .bltu ra rb off => some (0x50000000 + ra.toNat * 2097152 + rb.toNat * 65536 + off.toNat)
  | .bgeu ra rb off => some (0x54000000 + ra.toNat * 2097152 + rb.toNat * 65536 + off.toNat)
  | .jal off => some (0x58000000 + off.toNat)
  | .jalr rd ra imm => some (0x5C000000 + rd.toNat * 2097152 + ra.toNat * 65536 + imm.toNat)
  | .ldb rd ra cls off => some (0x60000000 + rd.toNat * 2097152 + ra.toNat * 65536 + cls.toNat * 4096 + off.toNat)
  | .ldh rd ra cls off => some (0x64000000 + rd.toNat * 2097152 + ra.toNat * 65536 + cls.toNat * 4096 + off.toNat)
  | .ldw rd ra cls off => some (0x68000000 + rd.toNat * 2097152 + ra.toNat * 65536 + cls.toNat * 4096 + off.toNat)
  | .ldd rd ra cls off => some (0x6C000000 + rd.toNat * 2097152 + ra.toNat * 65536 + cls.toNat * 4096 + off.toNat)
  | .ldbu rd ra cls off => some (0x70000000 + rd.toNat * 2097152 + ra.toNat * 65536 + cls.toNat * 4096 + off.toNat)
  | .ldhu rd ra cls off => some (0x74000000 + rd.toNat * 2097152 + ra.toNat * 65536 + cls.toNat * 4096 + off.toNat)
  | .ldwu rd ra cls off => some (0x78000000 + rd.toNat * 2097152 + ra.toNat * 65536 + cls.toNat * 4096 + off.toNat)
  | .stb rs ra cls off => some (0x80000000 + rs.toNat * 2097152 + ra.toNat * 65536 + cls.toNat * 4096 + off.toNat)
  | .sth rs ra cls off => some (0x84000000 + rs.toNat * 2097152 + ra.toNat * 65536 + cls.toNat * 4096 + off.toNat)
  | .stw rs ra cls off => some (0x88000000 + rs.toNat * 2097152 + ra.toNat * 65536 + cls.toNat * 4096 + off.toNat)
  | .std rs ra cls off => some (0x8C000000 + rs.toNat * 2097152 + ra.toNat * 65536 + cls.toNat * 4096 + off.toNat)
  | .amoAdd rd ra rb cls use size => some (0x90000000 + rd.toNat * 2097152 + ra.toNat * 65536 + rb.toNat * 2048 + cls.toNat * 128 + use.toNat * 2 + size.toNat)
  | .amoAnd rd ra rb cls use size => some (0x90000010 + rd.toNat * 2097152 + ra.toNat * 65536 + rb.toNat * 2048 + cls.toNat * 128 + use.toNat * 2 + size.toNat)
  | .amoOr rd ra rb cls use size => some (0x90000020 + rd.toNat * 2097152 + ra.toNat * 65536 + rb.toNat * 2048 + cls.toNat * 128 + use.toNat * 2 + size.toNat)
  | .amoXor rd ra rb cls use size => some (0x90000030 + rd.toNat * 2097152 + ra.toNat * 65536 + rb.toNat * 2048 + cls.toNat * 128 + use.toNat * 2 + size.toNat)
  | .amoMin rd ra rb cls use size => some (0x90000040 + rd.toNat * 2097152 + ra.toNat * 65536 + rb.toNat * 2048 + cls.toNat * 128 + use.toNat * 2 + size.toNat)
  | .amoMax rd ra rb cls use size => some (0x90000050 + rd.toNat * 2097152 + ra.toNat * 65536 + rb.toNat * 2048 + cls.toNat * 128 + use.toNat * 2 + size.toNat)
  | .amoSwap rd ra rb cls use size => some (0x90000060 + rd.toNat * 2097152 + ra.toNat * 65536 + rb.toNat * 2048 + cls.toNat * 128 + use.toNat * 2 + size.toNat)
  | .cas rd ra rb cls use size => some (0x94000000 + rd.toNat * 2097152 + ra.toNat * 65536 + rb.toNat * 2048 + cls.toNat * 128 + use.toNat * 2 + size.toNat)
  | .fence scope ball aall ra rb => some (0x98000000 + scope.toNat * 16777216 + ball.toNat * 8388608 + aall.toNat * 4194304 + ra.toNat * 65536 + rb.toNat * 2048)
  | .bknotSet k off => some (0x9E000000 + k.toNat * 2097152 + off.toNat)
  | .bknotClr k off => some (0x9C000000 + k.toNat * 2097152 + off.toNat)
  | .bstatSet eng flag off => some (0x9E100000 + eng.toNat * 2097152 + flag.toNat * 65536 + off.toNat)
  | .bstatClr eng flag off => some (0x9C100000 + eng.toNat * 2097152 + flag.toNat * 65536 + off.toNat)
  | .getsr rd sr => some (0xA0000000 + rd.toNat * 2097152 + sr.toNat)
  | .putsr ra sr => some (0xA0001000 + ra.toNat * 65536 + sr.toNat)
  | .rdtime rd => some (0xA0002000 + rd.toNat * 2097152)
  | .rdcyc rd => some (0xA0003000 + rd.toNat * 2097152)
  | .sleepuntil ra => some (0xA0004000 + ra.toNat * 65536)
  | .talloc rd ra => some (0xB0000001 + rd.toNat * 2097152 + ra.toNat * 65536)
  | .tfree ra => some (0xB0000002 + ra.toNat * 65536)
  | .tinfo rd ra => some (0xB0000003 + rd.toNat * 2097152 + ra.toNat * 65536)
  | .tsetfEmpty ra rb => some (0xB0000004 + ra.toNat * 65536 + rb.toNat * 2048)
  | .tsetfFull ra rb => some (0xB0000004 + ra.toNat * 65536 + rb.toNat * 2048)
  | .tsetfTarget ra rb => some (0xB0000004 + ra.toNat * 65536 + rb.toNat * 2048)
  | .twait ra rb => some (0xB0000005 + ra.toNat * 65536 + rb.toNat * 2048)
  | .shapeW ra rb => some (0xB0000006 + ra.toNat * 65536 + rb.toNat * 2048)
  | .portW ra eng word => some (0xB4000100 + ra.toNat * 65536 + eng.toNat * 16 + word.toNat * 4)
  | .portGo rd eng => some (0xB4000200 + rd.toNat * 2097152 + eng.toNat * 16)
  | .portCut ra eng => some (0xB4000300 + ra.toNat * 65536 + eng.toNat * 16)
  | .evqPop rd ra => some (0xB4000400 + rd.toNat * 2097152 + ra.toNat * 65536)
  | .evqWait => some (0xB4000500)
  | .tskArm ra => some (0xB8000001 + ra.toNat * 65536)
  | .tskSigDec ra => some (0xB8000002 + ra.toNat * 65536)
  | .tskSigWake ra => some (0xB8000002 + ra.toNat * 65536)
  | .tskEnd ra => some (0xB8000003 + ra.toNat * 65536)
  | .tskRetry ra => some (0xB8000004 + ra.toNat * 65536)
  | .hlCancel ra rb => some (0xB8000005 + ra.toNat * 65536 + rb.toNat * 2048)
  | .hlCancelReset ra rb => some (0xB8000005 + ra.toNat * 65536 + rb.toNat * 2048)
  | .hlRead rd ra rb => some (0xB8000006 + rd.toNat * 2097152 + ra.toNat * 65536 + rb.toNat * 2048)
  | .knotSet num => some (0xBC000010 + num.toNat)
  | .knotClr num => some (0xBC000020 + num.toNat)
  | .knotWait num => some (0xBC000030 + num.toNat)
  | .tokGive num => some (0xBC000040 + num.toNat)
  | .tokTake num => some (0xBC000050 + num.toNat)
  | .barArrive num => some (0xBC000060 + num.toNat)
  | .barWait num => some (0xBC000070 + num.toNat)
  | .bobArrive ra => some (0xBC000080 + ra.toNat * 65536)
  | .bobExpect ra rb => some (0xBC000090 + ra.toNat * 65536 + rb.toNat * 2048)
  | .bobWait ra => some (0xBC0000A0 + ra.toNat * 65536)
  | .fabBond rd ra => some (0xC0000100 + rd.toNat * 2097152 + ra.toNat * 65536)
  | .fabBondNw rd ra => some (0xC0000101 + rd.toNat * 2097152 + ra.toNat * 65536)
  | .fabDrain ra => some (0xC0000200 + ra.toNat * 65536)
  | .fabQuery rd ra => some (0xC0000300 + rd.toNat * 2097152 + ra.toNat * 65536)
  | .engStart ra rb => some (0xC4000001 + ra.toNat * 65536 + rb.toNat * 2048)
  | .engBind ra => some (0xC4000002 + ra.toNat * 65536)
  | .engFork ra => some (0xC4000003 + ra.toNat * 65536)
  | .engStop ra => some (0xC4000004 + ra.toNat * 65536)
  | .engStat rd ra => some (0xC4000005 + rd.toNat * 2097152 + ra.toNat * 65536)
  | .tokCfgClaim ra rb => some (0xC4000006 + ra.toNat * 65536 + rb.toNat * 2048)
  | .tokCfgRelease ra rb => some (0xC4000006 + ra.toNat * 65536 + rb.toNat * 2048)
  | _ => none

/-- An ordinary vector word with its opcode and MOD (R35). -/
def vwordNat (opc : Nat) (w : VWord) (mod : Nat) : Nat :=
  opc * 2 ^ 88 + w.typ.toNat * 2 ^ 84 + w.dst.toNat * 2 ^ 68 + w.a.toNat * 2 ^ 52 + w.b.toNat * 2 ^ 36
    + w.c.toNat * 2 ^ 20 + w.kpred.toNat * 2 ^ 16 + w.take.toNat * 2 ^ 12 + w.give.toNat * 2 ^ 8
    + w.rnd.toNat * 2 ^ 6 + flagNat w.sat * 2 ^ 5 + flagNat w.course * 2 ^ 4 + mod

/-- VLDT (`lo` 68) and VSTT (`lo` 52) (R227). -/
def vtileNat (opc lo : Nat) (w : VTile) : Nat :=
  opc * 2 ^ 88 + w.typ.toNat * 2 ^ 84 + w.row.toNat * 2 ^ lo + w.handle.toNat * 2 ^ 40
    + w.trow.toNat * 2 ^ 28 + w.tseg.toNat * 2 ^ 21 + w.kpred.toNat * 2 ^ 16 + w.take.toNat * 2 ^ 12
    + w.give.toNat * 2 ^ 8 + flagNat w.course * 2 ^ 4 + w.tstr.toNat

/-- A vector control word: opcode, the immediate of bits 83:20 in place, COURSE (R100). -/
def vctlNat (opc imm : Nat) (course : Bool) : Nat :=
  opc * 2 ^ 88 + imm + 0xFFF00 + flagNat course * 2 ^ 4

/-- The vector word of an instruction (R35 to R38, R100, R206, R227). -/
def encodeVector : Instr → Option Nat
  | .vadd w => some (vwordNat 0x01 w 0)
  | .vsub w => some (vwordNat 0x02 w 0)
  | .vmul w => some (vwordNat 0x03 w 0)
  | .vfma w => some (vwordNat 0x04 w 0)
  | .vfms w => some (vwordNat 0x05 w 0)
  | .vnfma w => some (vwordNat 0x06 w 0)
  | .vmin w => some (vwordNat 0x07 w 0)
  | .vmax w => some (vwordNat 0x08 w 0)
  | .vabs w => some (vwordNat 0x09 w 0)
  | .vneg w => some (vwordNat 0x0A w 0)
  | .vscale w => some (vwordNat 0x0B w 0)
  | .vrcp w => some (vwordNat 0x10 w 0)
  | .vrsq w => some (vwordNat 0x11 w 0)
  | .vexp2 w => some (vwordNat 0x12 w 0)
  | .vlog2 w => some (vwordNat 0x13 w 0)
  | .vtanh w => some (vwordNat 0x14 w 0)
  | .vsigm w => some (vwordNat 0x15 w 0)
  | .vsinpi w => some (vwordNat 0x16 w 0)
  | .vcospi w => some (vwordNat 0x17 w 0)
  | .vand w => some (vwordNat 0x20 w 0)
  | .vor w => some (vwordNat 0x21 w 0)
  | .vxor w => some (vwordNat 0x22 w 0)
  | .vnot w => some (vwordNat 0x23 w 0)
  | .vshl w => some (vwordNat 0x24 w 0)
  | .vshr w => some (vwordNat 0x25 w 0)
  | .vsra w => some (vwordNat 0x26 w 0)
  | .vclmul w => some (vwordNat 0x27 w 0)
  | .vclmulh w => some (vwordNat 0x28 w 0)
  | .vpopc w => some (vwordNat 0x29 w 0)
  | .vcmpeq w => some (vwordNat 0x30 w 0)
  | .vcmplt w => some (vwordNat 0x31 w 0)
  | .vcmple w => some (vwordNat 0x32 w 0)
  | .vsel w => some (vwordNat 0x33 w 0)
  | .vclass w => some (vwordNat 0x34 w 0)
  | .vcvt src w => some (vwordNat 0x38 w src.toNat)
  | .vrnd w => some (vwordNat 0x39 w 0)
  | .vrsum w => some (vwordNat 0x40 w 0)
  | .vrmax w => some (vwordNat 0x41 w 0)
  | .vrmin w => some (vwordNat 0x42 w 0)
  | .vrarg w => some (vwordNat 0x43 w 0)
  | .vcsum w => some (vwordNat 0x44 w 0)
  | .vmov w => some (vwordNat 0x50 w 0)
  | .vbcastElem w => some (vwordNat 0x51 w 0)
  | .vbcastRow0 w => some (vwordNat 0x51 w 1)
  | .vtrn w => some (vwordNat 0x52 w 0)
  | .vrot w => some (vwordNat 0x53 w 0)
  | .vpackCat w => some (vwordNat 0x54 w 0)
  | .vpackZip w => some (vwordNat 0x54 w 1)
  | .vunpkLo w => some (vwordNat 0x55 w 0)
  | .vunpkHi w => some (vwordNat 0x55 w 1)
  | .vunpkEven w => some (vwordNat 0x55 w 2)
  | .vunpkOdd w => some (vwordNat 0x55 w 3)
  | .vperm w => some (vwordNat 0x56 w 0)
  | .vldt w => some (vtileNat 0x60 68 w)
  | .vstt w => some (vtileNat 0x61 52 w)
  | .vshape r l co => some (vctlNat 0x70 (r.toNat * 2 ^ 78 + l.toNat * 2 ^ 73) co)
  | .vloop lc src v co =>
    some (vctlNat 0x71 (lc.toNat * 2 ^ 82 + flagNat src * 2 ^ 81 + v.toNat * 2 ^ 65) co)
  | .vbrAlways t co => some (vctlNat 0x72 (t.toNat * 2 ^ 60) co)
  | .vbrKset k t co => some (vctlNat 0x72 (1 * 2 ^ 80 + k.toNat * 2 ^ 76 + t.toNat * 2 ^ 60) co)
  | .vbrKclr k t co => some (vctlNat 0x72 (2 * 2 ^ 80 + k.toNat * 2 ^ 76 + t.toNat * 2 ^ 60) co)
  | .vbrLoop lc t co => some (vctlNat 0x72 (3 * 2 ^ 80 + lc.toNat * 2 ^ 74 + t.toNat * 2 ^ 60) co)
  | .vbrEnd co => some (vctlNat 0x72 (4 * 2 ^ 80) co)
  | .vmod len ii ts tr exk exs co =>
    some (vctlNat 0x73 (len.toNat * 2 ^ 78 + ii.toNat * 2 ^ 72 + flagNat ts * 2 ^ 71
      + tr.toNat * 2 ^ 55 + exk.toNat * 2 ^ 51 + flagNat exs * 2 ^ 50) co)
  | .vknotSet k co => some (vctlNat 0x74 (k.toNat * 2 ^ 78) co)
  | .vknotClr k co => some (vctlNat 0x74 (1 * 2 ^ 82 + k.toNat * 2 ^ 78) co)
  | .vknotAny k src co => some (vctlNat 0x74 (2 * 2 ^ 82 + k.toNat * 2 ^ 78 + src.toNat * 2 ^ 52) co)
  | .vknotAll k src co => some (vctlNat 0x74 (3 * 2 ^ 82 + k.toNat * 2 ^ 78 + src.toNat * 2 ^ 52) co)
  | .vwaitSet k co => some (vctlNat 0x75 (k.toNat * 2 ^ 78) co)
  | .vwaitClr k co => some (vctlNat 0x75 (1 * 2 ^ 82 + k.toNat * 2 ^ 78) co)
  | .vwaitDrain co => some (vctlNat 0x75 (2 * 2 ^ 82) co)
  | .rep n co => some (vctlNat 0x76 (n.toNat * 2 ^ 78) co)
  | .vnop k t g co =>
    some (0x77 * 2 ^ 88 + k.toNat * 2 ^ 16 + t.toNat * 2 ^ 12 + g.toNat * 2 ^ 8 + flagNat co * 2 ^ 4)
  | _ => none

/-- The fields every matrix data word shares, in place (R39). -/
def missueNat (f : MIssue) : Nat :=
  flagNat f.mark * 2 ^ 120 + f.take.toNat * 2 ^ 112 + f.give.toNat * 2 ^ 108 + f.knot.toNat * 2 ^ 104
    + flagNat f.stampen * 2 ^ 101 + f.stamp.toNat * 2 ^ 61

/-- A matrix control word with its SPEC field (R100). -/
def mctlNat (opc : Nat) (c : MCtl) (spec : Nat) : Nat :=
  opc * 2 ^ 184 + flagNat c.mark * 2 ^ 120 + 0xFFF * 2 ^ 104 + flagNat c.stampen * 2 ^ 101
    + c.stamp.toNat * 2 ^ 61 + spec

/-- MMAC's own fields in place (R192). -/
def mmacNat (m : MmacF) : Nat :=
  m.fmt.toNat * 2 ^ 180 + m.hw.toNat * 2 ^ 168 + m.ha.toNat * 2 ^ 156 + m.hc.toNat * 2 ^ 144
    + m.sha.toNat * 2 ^ 136 + m.shc.toNat * 2 ^ 128 + m.dprec.toNat * 2 ^ 124 + flagNat m.nega * 2 ^ 123
    + flagNat m.negw * 2 ^ 122 + flagNat m.accdis * 2 ^ 121 + m.mm1.toNat * 2 ^ 50
    + m.kr0.toNat * 2 ^ 47 + m.krm1.toNat * 2 ^ 44 + m.nc0.toNat * 2 ^ 40 + m.ncm1.toNat * 2 ^ 36

/-- MEPI's own fields in place (R194). -/
def mepiNat (e : MepiF) : Nat :=
  e.fmt.toNat * 2 ^ 180 + e.hw.toNat * 2 ^ 168 + e.ha.toNat * 2 ^ 156 + e.hc.toNat * 2 ^ 144
    + e.sha.toNat * 2 ^ 136 + e.shc.toNat * 2 ^ 128 + flagNat e.sat * 2 ^ 119 + e.rnd.toNat * 2 ^ 102
    + e.scm.toNat * 2 ^ 58 + flagNat e.bias * 2 ^ 57 + e.act.toNat * 2 ^ 53 + flagNat e.aow * 2 ^ 51
    + flagNat e.ranked * 2 ^ 50 + flagNat e.zacc * 2 ^ 49 + e.cls.toNat * 2 ^ 16

/-- MEPI's remote destination in place, DEST set (R194). -/
def mdestNat (d : MDest) : Nat :=
  1 * 2 ^ 52 + d.pkg.toNat * 2 ^ 37 + d.core.toNat * 2 ^ 28 + d.gen.toNat * 2 ^ 20

/-- The matrix word of an instruction (R39 to R41, R100, R185 to R194). -/
def encodeMatrix : Instr → Option Nat
  | .mldw f hw dp clr br bc =>
    some (1 * 2 ^ 184 + hw.toNat * 2 ^ 168 + dp.toNat * 2 ^ 124 + missueNat f + flagNat clr * 2 ^ 60
      + br.toNat * 2 ^ 57 + bc.toNat * 2 ^ 53)
  | .mswap f => some (2 * 2 ^ 184 + missueNat f)
  | .mmac f m => some (3 * 2 ^ 184 + mmacNat m + missueNat f)
  | .mepi f e => some (4 * 2 ^ 184 + mepiNat e + missueNat f)
  | .mepiRemote f e d => some (4 * 2 ^ 184 + mepiNat e + mdestNat d + missueNat f)
  | .mmark f => some (5 * 2 ^ 184 + missueNat f)
  | .mnop f => some (12 * 2 ^ 184 + missueNat f)
  | .mloop c lc src v => some (mctlNat 8 c (lc.toNat * 2 ^ 59 + flagNat src * 2 ^ 58 + v.toNat * 2 ^ 42))
  | .mbrAlways c t => some (mctlNat 9 c (t.toNat * 2 ^ 38))
  | .mbrKset c k t => some (mctlNat 9 c (1 * 2 ^ 57 + k.toNat * 2 ^ 53 + t.toNat * 2 ^ 38))
  | .mbrKclr c k t => some (mctlNat 9 c (2 * 2 ^ 57 + k.toNat * 2 ^ 53 + t.toNat * 2 ^ 38))
  | .mbrLoop c lc t => some (mctlNat 9 c (3 * 2 ^ 57 + lc.toNat * 2 ^ 51 + t.toNat * 2 ^ 38))
  | .mbrEnd c => some (mctlNat 9 c (4 * 2 ^ 57))
  | .mmod c len ii ts tr exk exs =>
    some (mctlNat 10 c (len.toNat * 2 ^ 55 + ii.toNat * 2 ^ 49 + flagNat ts * 2 ^ 48 + tr.toNat * 2 ^ 32
      + exk.toNat * 2 ^ 28 + flagNat exs * 2 ^ 27))
  | .mwaitSet c k => some (mctlNat 11 c (k.toNat * 2 ^ 55))
  | .mwaitClr c k => some (mctlNat 11 c (1 * 2 ^ 59 + k.toNat * 2 ^ 55))
  | .mwaitDrain c => some (mctlNat 11 c (2 * 2 ^ 59))
  | _ => none

/-- The row a word decodes to: where a register value splits one word into rows, the first of them
(R94, R161, R319, R322; log 24). -/
def wordRow : Instr → Instr
  | .tsetfFull ra rb => .tsetfEmpty ra rb
  | .tsetfTarget ra rb => .tsetfEmpty ra rb
  | .tskSigWake ra => .tskSigDec ra
  | .hlCancelReset ra rb => .hlCancel ra rb
  | .tokCfgRelease ra rb => .tokCfgClaim ra rb
  | i => i

/-- The word of an instruction with its width in bits; none for what has no word. -/
def encode (i : Instr) : Option (Nat × Nat) :=
  match encodeScalar i with
  | some w => some (32, w)
  | none =>
    match encodeVector i with
    | some w => some (96, w)
    | none =>
      match encodeMatrix i with
      | some w => some (192, w)
      | none => none

/-- A word of a stream by its width (R18). -/
def decodeWord (nbits w : Nat) : Decoded :=
  match nbits with
  | 32 => decodeScalar w
  | 96 => decodeVector w
  | 192 => decodeMatrix w
  | _ => .illegal

/-- The instruction the decoder reads from an instruction whose bits are `w`, by its width. -/
def decodeTableWord (nbits w : Nat) : Option Instr :=
  match decodeWord nbits (w % 2 ^ nbits) with
  | .instr i => some i
  | .operand _ => none
  | .illegal => none

end Sys2Proof
end

