-- ==== Sys2Proof/Machine/Fabric.lean ====
section
/-! DEFINITION. Flits between packages and within one: sending, per-pair order and exactly-once application (R353, R358). -/
namespace Sys2Proof.Machine

/-- A flit handed to the splice unit's send side; a pair of packages is numbered, the package's own mortar network is not
(R353). -/
def sendFlit (s : State) (dst : Nat) (b : FlitBody) : State :=
  if dst = ownPkg then { s with net := s.net ++ [{ arrived := s.clk, src := ownPkg, dst := dst, seq := 0, body := b }] }
  else
    let n := mapGet 0 s.sendSeq dst
    { s with
      net := s.net ++ [{ arrived := s.clk, src := ownPkg, dst := dst, seq := n, body := b }]
      sendSeq := mapSet s.sendSeq dst (n + 1) }

/-- The partition that owns the quad of a core (R387). -/
def corePart (s : State) (core : Nat) : Option Nat :=
  (s.parts.find? (fun e => e.2.quads.contains (quadOf core) || e.2.quadsOut.contains (quadOf core))).map (·.1)

/-- A flit sent by a core, noted in its egress journal (R382). -/
def sendFrom (s : State) (part core dst : Nat) (b : FlitBody) : State := noteEgress (sendFlit s dst b) core part (destOf dst)

/-- An acknowledgement sent for a core, noted in its journal while that has room: no word of the core issues it, so it is not held
(R382; log 41). -/
def sendAck (s : State) (core dst : Nat) (b : FlitBody) : State := sendFrom s ((corePart s core).getD 0) core dst b

/-- The core an acknowledgement is sent for. -/
def ackCore : FlitBody → Nat → Nat
  | .rowAck r _, _ => r.core
  | _, core => core

/-- The source and destination cores whose order the mortar network keeps, 512 for a hub (R353). -/
def flitFlow : FlitBody → Nat × Nat
  | .row r => (r.srcCore, r.core)
  | .piece p => (p.srcCore, p.core)
  | _ => (512, 512)

/-- What the receive side makes of a flit: it is the next of its pair, has been applied already, or waits for an earlier one
(R353). -/
inductive Arrival where
  | next (f : Flit)
  | again
  | notYet
  deriving DecidableEq, Repr

/-- How flit `k` stands at the receive side of this package (R353): the last 1,024 numbers of a pair are known. -/
def arrivalOf (s : State) (k : Nat) : Arrival :=
  match nth s.net k with
  | none => .notYet
  | some f =>
    if f.dst ≠ ownPkg then .notYet
    else if f.src = ownPkg then
      (if (s.net.take k).any (fun g => g.src == ownPkg && g.dst == ownPkg && flitFlow g.body == flitFlow f.body) then .notYet
       else .next f)
    else
      let gap := (mapGet 0 s.recvSeq f.src - f.seq).toNat
      if gap = 0 then .next f else if gap ≤ 1024 then .again else .notYet

/-- The state with flit `k` taken from the network, its number applied (R353). -/
def takeFlit (s : State) (k : Nat) (f : Flit) : State :=
  let t := { s with net := dropAt s.net k }
  if f.src = ownPkg then t else { t with recvSeq := mapSet t.recvSeq f.src (f.seq + 1) }

/-- A flit received and applied by `f`, where it is the next of its pair and of the kind `f` takes; a number applied already
is discarded (R353). -/
def onFlit (s : State) (k : Nat) (f : State → Flit → Option State) : State :=
  match arrivalOf s k with
  | .next fl => (f (takeFlit s k fl) fl).getD s
  | .again => { s with net := dropAt s.net k }
  | .notYet => s

/-- A flit of another package handed over by its link; one that names no other source or no such destination is dropped. -/
def handOver (s : State) (f : Flit) : State :=
  if f.src ≠ ownPkg && f.dst = ownPkg then { s with net := s.net ++ [{ f with arrived := s.clk }] } else s

/-- An acknowledgement owed, as it is sent: it says whether something was refused (R198, R354). -/
def ackBody (o : Owed) : FlitBody :=
  match o.ack with
  | .pieceAck cmd tgt last _ => .pieceAck cmd tgt last o.refused
  | .rowAck r _ => .rowAck r o.refused
  | b => b

end Sys2Proof.Machine
end

