-- ==== Sys2Proof/Machine/Inlet.lean ====
section
/-! DEFINITION. What a physical address may name beside plain memory: the inlet pages of the gatherer's channels (R328,
R393) and lines that hold uncorrectable data (R367). -/
namespace Sys2Proof.Machine

/-- A channel that has never been opened (R328, R330). -/
def Chan.reset : Chan :=
  { opened := false, halted := none, part := 0, buf := 0, breca := 0, tpl := 0, tcba := 0, deadline := 0, bm1 := 0, nbuf := 1
    pins := [], inlet := [], bseq := 0, batch := none, owes := none, drops := 0, closing := none }

/-- A gatherer channel (R328). -/
def chanOf (s : State) (c : Nat) : Chan := mapGet Chan.reset s.chans c

/-- The state with a channel replaced. -/
def withChan (s : State) (c : Nat) (ch : Chan) : State := { s with chans := mapSet s.chans c ch }

/-- The channel whose inlet page holds a physical address (R393). -/
def inletChan (pa : Nat) : Option Nat :=
  if 0x700000000000 ≤ pa && pa < 0x700000010000 then some ((pa - 0x700000000000) / 4096) else none

/-- Whether a channel takes no request: not open, closing or halted (R328, R331, R333). -/
def inletShut (ch : Chan) : Bool := !ch.opened || ch.halted.isSome || ch.closing.isSome

/-- A refused inlet write, counted in DROPS (R328). -/
def inletRefuse (s : State) (c : Nat) : State :=
  withChan s c { chanOf s c with drops := (chanOf s c).drops + 1 }

/-- One write of a whole aligned line to an inlet (R328): refused by a channel that takes none, taken with its arrival TNS
otherwise; none while the inlet is full and the write waits at its writer. -/
def inletOffer (s : State) (c : Nat) (line : BitVec 512) : Option State :=
  let ch := chanOf s c
  if inletShut ch then some (inletRefuse s c)
  else if ch.inlet.length < 64 then some (withChan s c { ch with inlet := ch.inlet ++ [(line, s.tb.tns)] })
  else none

/-- Whether any line of a range is poisoned (R367). -/
def poisoned (s : State) (pa n : Nat) : Bool := s.poison.any (fun l => pa / 64 ≤ l && l ≤ (pa + n - 1) / 64)

/-- The state with bytes of plain memory written (R237, R367). -/
def writeBytes (s : State) (pa : Nat) (bs : List Byte) : State := homeWrite s none pa bs

end Sys2Proof.Machine
end

