-- ==== Sys2Proof/Machine/Memory.lean ====
section
/-! DEFINITION. Scalar loads, stores, atomics and FENCE, the request slots, and the performing of accesses at their
homes in an order the classes allow (R244, R245, R250 to R268). -/
namespace Sys2Proof.Machine

/-- The compute die of a core (R8). -/
def dieOf (core : Nat) : Nat := core / 128

/-! ## Request slots (R244, R245) -/

/-- The requesters of shared slots in the cyclic order of R245: 0 the walker, 1 to 4 the scalar streams, 5 the layout-record reads,
6 the hod engine. -/
def reqScalar (slot : Nat) : Nat := 1 + slot
def reqLayout : Nat := 5
def reqHod : Nat := 6

/-- Steps from requester `last` to requester `j` in the cyclic order of R245. -/
def reqGap (last j : Nat) : Nat := (j + 7 - last % 7 - 1) % 7

/-- Slots of a unit slot's scalar reserve in use. -/
def reserveUsed (k : Core) (slot : Nat) : Nat :=
  (k.accs.filter (fun a => a.granted && a.reserve && !a.ride && a.slot == slot)).length
  + (k.brief.filter (fun b => b == (reqScalar slot, true))).length

/-- Shared slots in use. -/
def sharedUsed (k : Core) : Nat :=
  (k.accs.filter (fun a => a.granted && !a.reserve && !a.ride)).length + (k.brief.filter (fun b => !b.2)).length + k.hodLines

/-- Whether a requester waits for a shared slot: an access of it has none, or it has asked in vain in this clock or the one before. -/
def waitsShared (k : Core) (who : Nat) : Bool :=
  k.asks.contains who || k.asked.contains who || k.accs.any (fun b => !b.granted && reqScalar b.slot == who)

/-- Whether a requester may have `n` shared slots now: they are free, and no requester that waits stands before it in the cyclic order
(R245). -/
def sharedFor (k : Core) (who n : Nat) : Bool :=
  sharedUsed k + n ≤ 976 && (span 1 6).all (fun w => w == who || !waitsShared k w || reqGap k.grantLast who < reqGap k.grantLast w)

/-- The core once a requester has had shared slots: it is the last in the cyclic order, and waits no more (R245). -/
def shareTaken (k : Core) (who : Nat) : Core :=
  { k with grantLast := who, asks := k.asks.filter (· != who), asked := k.asked.filter (· != who) }

/-- An access with the slot the device can give it: one of its unit's 8 reserve slots, else one of the 976 shared
ones, else none yet (R244, R245). -/
def grantSlot (k : Core) (a : Access) : Access :=
  if reserveUsed k a.slot < 8 then { a with granted := true, reserve := true }
  else if sharedFor k (reqScalar a.slot) 1 then { a with granted := true, reserve := false }
  else { a with granted := false, reserve := false }

/-- The core in focus with an access issued. -/
def issueAccess (s : State) (a : Access) : State :=
  let k := curCore s
  let b := grantSlot k { a with id := k.accSeq }
  setCur s { (if b.granted && !b.reserve then shareTaken k (reqScalar a.slot) else k) with accs := k.accs ++ [b], accSeq := k.accSeq + 1 }

/-- Whether the scalar stream of a slot can have slots for `n` lines requested together: those of its reserve first, the others shared
(R244, R245). -/
def linesFor (k : Core) (slot n : Nat) : Bool :=
  n ≤ 8 - reserveUsed k slot || sharedFor k (reqScalar slot) (n - (8 - reserveUsed k slot))

/-- The core with slots held for `n` lines of the scalar stream of a slot, until the clock is over (R244; log 53). -/
def holdLines (k : Core) (slot n : Nat) : Core :=
  let own := min n (8 - reserveUsed k slot)
  let k1 := if own < n then shareTaken k (reqScalar slot) else k
  { k1 with brief := List.replicate own (reqScalar slot, true) ++ List.replicate (n - own) (reqScalar slot, false) ++ k.brief }

/-- The state with slots held for `n` lines homed in a package that the scalar stream in focus reads, which is egress of the core (R244,
R382). -/
def useLines (s : State) (n : Nat) (pkg : Dest) : State :=
  noteEgress (setCur s (holdLines (curCore s) s.focus.slot n)) s.focus.core (getUnit s).part pkg

/-- Whether the journal of the core in focus takes an egress of its unit to a package (R382). -/
def journalOk (s : State) (pkg : Dest) : Bool := egressOk (curCore s) (getUnit s).part pkg

/-- Whether a walk that the unit in focus needs for an address is held by a full journal (R239, R382). -/
def walkHeld (s : State) (va : Word) : Bool := walks (curCore s) (getUnit s).part va.toNat && !journalOk s none

/-- Whether the unit in focus may go to the home of a physical address: the journal takes that (R382), and a path to the package remains
(R257, R356; log 15). -/
def homeOk (s : State) (pa : Nat) : Bool := journalOk s (homePkg pa) && reachable s (homePkg pa)

/-! ## Fences (R264, R265) -/

/-- Whether an access is outstanding. -/
def outstanding (k : Core) (id : Nat) : Bool := k.accs.any (fun a => a.id == id)

/-- Whether a FENCE is incomplete (R264). -/
def fenceOpen (k : Core) (f : FenceW) : Bool := f.counted.any (outstanding k)

/-- The unit's FENCE words that are incomplete (R264). -/
def openFences (k : Core) (u : Unit) : List FenceW := u.fences.filter (fenceOpen k)

/-- Whether an incomplete FENCE holds an access of a class (R264). -/
def fenceHolds (k : Core) (u : Unit) (cls : BitVec 4) : Bool :=
  (openFences k u).any (fun f => f.after.getLsbD cls.toNat)

/-- Whether an access reads or writes a byte of a range. -/
def overlaps (a : Access) (pa n : Nat) : Bool := a.pa < pa + n && pa < a.pa + a.n

/-- Whether an access is a COM or NOR atomic, which keeps no order within its class (R267). -/
def looseAtomic (a : Access) : Bool :=
  match a.kind with
  | .atom _ use _ _ _ => use == 1 || use == 2
  | _ => false

/-- Whether a read that happens at once must wait for an outstanding access of the unit: one of its class that keeps order, or one to
the same bytes (R258, R259, R267; log 13). -/
def readBlocked (k : Core) (u : Unit) (cls : BitVec 4) (pa n : Nat) : Bool :=
  k.accs.any (fun a => a.uid == u.uid && ((a.cls == cls && !looseAtomic a) || overlaps a pa n))

/-! ## Loads, stores and atomics at issue (R250 to R254) -/

/-- First virtual address and span of the page a virtual address of the unit in focus has just been translated through (R239). -/
def pageSpan (s : State) (va : Nat) : Nat × Nat :=
  match (curCore s).tlb.find? (tlbHit (getUnit s).part va) with
  | some e => (e.vpage, e.span)
  | none => (va / 65536 * 65536, 65536)

/-- Whether an access is a QNT add of some bytes that another may be merged with (R269). -/
def quantumAt (b a : Access) : Bool :=
  match a.kind, b.kind with
  | .atom .add 3 _ _ _, .atom .add 3 _ _ _ => b.uid == a.uid && b.cls == a.cls && b.pa == a.pa && b.n == a.n && b.slot == a.slot
  | _, _ => false

/-- The state with the access just issued merged with the QNT adds of its unit to the same location that no other access of the unit
to those bytes follows, where the device merges them, which is open (R269; log 5). -/
def mergeQuanta (s : State) : State :=
  let k := curCore s
  match k.accs.getLast? with
  | none => s
  | some a =>
    match (k.accs.dropLast.filter (fun b => b.uid == a.uid && overlaps b a.pa a.n)).getLast? with
    | none => s
    | some b =>
      if quantumAt b a then
        let t := { s with fresh := s.fresh + 1 }
        if Config.qntMerges s.fresh then
          setCur t { k with accs := k.accs.map (fun x => if x.id = b.id || x.join = some b.id then { x with join := some a.id } else x) }
        else t
      else s

/-- An access of the unit in focus, aligned to its size and translated, is issued; an incomplete FENCE or a full egress journal
holds it (R264, R382). -/
def memWord (i : Instr) (acc : AccKind) (cls : BitVec 4) (n : Nat) (ea : Word) (kind : AccessKind)
    (rd : BitVec 5) (s : State) : Host.Outcome State Fault Refusal :=
  scalarWord i (fun t =>
    if fenceHolds (curCore t) (getUnit t) cls || walkHeld t ea then .hold
    else if ea.toNat % n ≠ 0 then .trap cALIGN ea
    else
      match translate t ea kind with
      | (.fail c, _) => .trap c ea
      | (.ok pa leaf, t') =>
        if !homeOk t' pa then .hold
        else .done (mergeQuanta (issueAccess t'
          { id := 0, slot := t.focus.slot, uid := (getUnit t).uid, part := (getUnit t).part, pc := (getUnit t).pc, kind := acc, cls := cls, va := ea.toNat
            pa := pa, n := n, rd := rd, leaf := leaf, vpage := (pageSpan t' ea.toNat).1, span := (pageSpan t' ea.toNat).2
            granted := false, reserve := false, issue := t.clk, smode := (getUnit t).mode = .s, ride := false, join := none, passed := false }))) s

/-- A load (R250). -/
def opLoad (i : Instr) (signed : Bool) (n : Nat) (rd ra : BitVec 5) (cls : BitVec 4) (off : BitVec 12)
    (s : State) : Host.Outcome State Fault Refusal :=
  memWord i (.load signed) cls n (effAddr (regRead s ra) off) .read rd s

/-- A store (R250). -/
def opStore (i : Instr) (n : Nat) (rs ra : BitVec 5) (cls : BitVec 4) (off : BitVec 12) (s : State) :
    Host.Outcome State Fault Refusal :=
  memWord i (.store (regRead s rs)) cls n (effAddr (regRead s ra) off) .write 0 s

/-- Bytes of an atomic by its size field (R32). -/
def atomBytes (size : BitVec 1) : Nat := if size = 1 then 8 else 4

/-- AMO and CAS (R252 to R254): COM returns nothing, SPC also writes rb. -/
def opAtomic (i : Instr) (op : AtomOp) (rd ra rb : BitVec 5) (cls : BitVec 4) (use : BitVec 3)
    (size : BitVec 1) (s : State) : Host.Outcome State Fault Refusal :=
  memWord i (.atom op use (regRead s rb) (regRead s rd) (if use = 4 then rb else 0)) cls (atomBytes size)
    (regRead s ra) .write rd s

/-- LDB (R250). -/
def execLdb (rd ra : BitVec 5) (cls : BitVec 4) (off : BitVec 12) (s : State) :
    Host.Outcome State Fault Refusal := opLoad (.ldb rd ra cls off) true 1 rd ra cls off s
/-- LDH (R250). -/
def execLdh (rd ra : BitVec 5) (cls : BitVec 4) (off : BitVec 12) (s : State) :
    Host.Outcome State Fault Refusal := opLoad (.ldh rd ra cls off) true 2 rd ra cls off s
/-- LDW (R250). -/
def execLdw (rd ra : BitVec 5) (cls : BitVec 4) (off : BitVec 12) (s : State) :
    Host.Outcome State Fault Refusal := opLoad (.ldw rd ra cls off) true 4 rd ra cls off s
/-- LDD (R250). -/
def execLdd (rd ra : BitVec 5) (cls : BitVec 4) (off : BitVec 12) (s : State) :
    Host.Outcome State Fault Refusal := opLoad (.ldd rd ra cls off) false 8 rd ra cls off s
/-- LDBU (R250). -/
def execLdbu (rd ra : BitVec 5) (cls : BitVec 4) (off : BitVec 12) (s : State) :
    Host.Outcome State Fault Refusal := opLoad (.ldbu rd ra cls off) false 1 rd ra cls off s
/-- LDHU (R250). -/
def execLdhu (rd ra : BitVec 5) (cls : BitVec 4) (off : BitVec 12) (s : State) :
    Host.Outcome State Fault Refusal := opLoad (.ldhu rd ra cls off) false 2 rd ra cls off s
/-- LDWU (R250). -/
def execLdwu (rd ra : BitVec 5) (cls : BitVec 4) (off : BitVec 12) (s : State) :
    Host.Outcome State Fault Refusal := opLoad (.ldwu rd ra cls off) false 4 rd ra cls off s
/-- STB (R250). -/
def execStb (rs ra : BitVec 5) (cls : BitVec 4) (off : BitVec 12) (s : State) :
    Host.Outcome State Fault Refusal := opStore (.stb rs ra cls off) 1 rs ra cls off s
/-- STH (R250). -/
def execSth (rs ra : BitVec 5) (cls : BitVec 4) (off : BitVec 12) (s : State) :
    Host.Outcome State Fault Refusal := opStore (.sth rs ra cls off) 2 rs ra cls off s
/-- STW (R250). -/
def execStw (rs ra : BitVec 5) (cls : BitVec 4) (off : BitVec 12) (s : State) :
    Host.Outcome State Fault Refusal := opStore (.stw rs ra cls off) 4 rs ra cls off s
/-- STD (R250). -/
def execStd (rs ra : BitVec 5) (cls : BitVec 4) (off : BitVec 12) (s : State) :
    Host.Outcome State Fault Refusal := opStore (.std rs ra cls off) 8 rs ra cls off s
/-- AMO.ADD (R253). -/
def execAmoAdd (rd ra rb : BitVec 5) (cls : BitVec 4) (use : BitVec 3) (size : BitVec 1) (s : State) :
    Host.Outcome State Fault Refusal := opAtomic (.amoAdd rd ra rb cls use size) .add rd ra rb cls use size s
/-- AMO.AND (R253). -/
def execAmoAnd (rd ra rb : BitVec 5) (cls : BitVec 4) (use : BitVec 3) (size : BitVec 1) (s : State) :
    Host.Outcome State Fault Refusal := opAtomic (.amoAnd rd ra rb cls use size) .and rd ra rb cls use size s
/-- AMO.OR (R253). -/
def execAmoOr (rd ra rb : BitVec 5) (cls : BitVec 4) (use : BitVec 3) (size : BitVec 1) (s : State) :
    Host.Outcome State Fault Refusal := opAtomic (.amoOr rd ra rb cls use size) .or rd ra rb cls use size s
/-- AMO.XOR (R253). -/
def execAmoXor (rd ra rb : BitVec 5) (cls : BitVec 4) (use : BitVec 3) (size : BitVec 1) (s : State) :
    Host.Outcome State Fault Refusal := opAtomic (.amoXor rd ra rb cls use size) .xor rd ra rb cls use size s
/-- AMO.MIN (R253). -/
def execAmoMin (rd ra rb : BitVec 5) (cls : BitVec 4) (use : BitVec 3) (size : BitVec 1) (s : State) :
    Host.Outcome State Fault Refusal := opAtomic (.amoMin rd ra rb cls use size) .min rd ra rb cls use size s
/-- AMO.MAX (R253). -/
def execAmoMax (rd ra rb : BitVec 5) (cls : BitVec 4) (use : BitVec 3) (size : BitVec 1) (s : State) :
    Host.Outcome State Fault Refusal := opAtomic (.amoMax rd ra rb cls use size) .max rd ra rb cls use size s
/-- AMO.SWAP (R253, R254). -/
def execAmoSwap (rd ra rb : BitVec 5) (cls : BitVec 4) (use : BitVec 3) (size : BitVec 1) (s : State) :
    Host.Outcome State Fault Refusal := opAtomic (.amoSwap rd ra rb cls use size) .swap rd ra rb cls use size s
/-- CAS (R253, R254). -/
def execCas (rd ra rb : BitVec 5) (cls : BitVec 4) (use : BitVec 3) (size : BitVec 1) (s : State) :
    Host.Outcome State Fault Refusal := opAtomic (.cas rd ra rb cls use size) .cas rd ra rb cls use size s

/-! ## Performing an access at its home (R237, R250 to R254, R256, R258, R259, R267) -/

/-- Whether the page of an access is being migrated (R237). -/
def migrating (s : State) (a : Access) : Bool :=
  leafMig a.leaf || onMigrating s a.pa

/-- The status an SPC atomic would take if it were performed now (R254): 0x14 while the page migrates, 2 when it fails spuriously, as one
that has been passed does (R267), 1 when CAS compares unequal, 0 when it writes. -/
def spcStatus (s : State) (a : Access) : Nat :=
  match a.kind with
  | .atom op _ _ expect _ =>
    if migrating s a then 0x14
    else if a.passed || Config.spcFails s.fresh then 2
    else if op = .cas && memNat s.mem a.pa a.n != expect.toNat % 2 ^ (8 * a.n) then 1
    else 0
  | _ => 0

/-- Whether an access releases its class (R266, R267): a QNT atomic, or an SPC atomic that would take status 0. -/
def releasing (s : State) (a : Access) : Bool :=
  match a.kind with
  | .atom _ use _ _ _ => use == 3 || (use == 4 && spcStatus s a == 0)
  | _ => false

/-- Whether an access is an SPC atomic. -/
def spcAtomic (a : Access) : Bool :=
  match a.kind with
  | .atom _ use _ _ _ => use == 4
  | _ => false

/-- Whether an access acquires its class: an SPC atomic that would take status 0 or 1; one of status 2 or 0x14 orders nothing (R266,
R267). -/
def acquiring (s : State) (a : Access) : Bool := spcAtomic a && spcStatus s a < 2

/-- The core with access `a` about to be performed: an SPC atomic of its unit and class that a COM or NOR passes keeps a status that orders
nothing (R267). -/
def passSpc (k : Core) (a : Access) : Core :=
  if looseAtomic a then
    { k with accs := k.accs.map (fun b => if b.uid = a.uid && b.cls = a.cls && b.id < a.id && spcAtomic b then { b with passed := true } else b) }
  else k

/-- Whether access `a` waits for the earlier access `b` of its unit (R258, R259, R266, R267); one merged into a later QNT add takes
the place of that one (R269). -/
def waitsFor (s : State) (die : Nat) (a b : Access) : Bool :=
  b.uid == a.uid && (match b.join with
    | none => true
    | some j => j < a.id)
  && (overlaps b a.pa a.n
      || (b.cls == a.cls
          && ((!looseAtomic a && !looseAtomic b) || acquiring s b
              || (releasing s a && homeScope die b.pa ≤ leafDom a.leaf))))

/-- Whether an access leaves the core: a store or an atomic, which the checker core compares for eight clocks first (R141). -/
def leavesCore (a : Access) : Bool :=
  match a.kind with
  | .load _ => false
  | _ => true

/-- Whether an access stands at, or behind, a compared word of its unit that the checker core does not agree to: it leaves the core no
more (R141). -/
def compareHolds (u : Unit) (a : Access) : Bool :=
  u.uid == a.uid && leavesCore a && u.compare.any (fun c => c.1 ≤ a.issue + 8)

/-- Whether access number `k` may be performed now: its slot granted, the checker's clocks over and no disagreement, and no earlier access
it waits for; one merged into a later add is performed with that. -/
def mayPerform (s : State) (die : Nat) (accs : List Access) (k : Nat) : Bool :=
  match nth accs k with
  | none => false
  | some a =>
    a.granted && a.join.isNone && (!leavesCore a || a.issue + 8 ≤ s.clk)
    && !s.cores.any (fun e => e.2.units.any (fun x => compareHolds x.2 a)) && !(accs.take k).any (waitsFor s die a)

/-- A loaded value of `n` bytes extended to 64 bits (R250). -/
def extend (signed : Bool) (n v : Nat) : Word :=
  if signed then BitVec.ofInt 64 (signedNat (8 * n) v) else BitVec.ofNat 64 v

/-- The new memory value of an AMO or of a CAS that compares equal, at `n` bytes (R253). -/
def atomNew (op : AtomOp) (n old b : Nat) : Nat :=
  match op with
  | .add => (old + b) % 2 ^ (8 * n)
  | .and => old &&& b
  | .or => old ||| b
  | .xor => old ^^^ b
  | .min => if signedNat (8 * n) old ≤ signedNat (8 * n) b then old else b
  | .max => if signedNat (8 * n) old ≤ signedNat (8 * n) b then b else old
  | .swap | .cas => b

/-- A core without access number `k`: its request slot is released. -/
def releaseSlot (c : Core) (k : Nat) : Core := { c with accs := dropAt c.accs k }

/-- The state with a register written by a returning access, if its unit still stands in its slot. -/
def returnReg (s : State) (core : Nat) (a : Access) (r : BitVec 5) (v : Word) : State :=
  if (unitAt s core a.slot).live && (unitAt s core a.slot).uid == a.uid then regWriteAt s core a.slot r v
  else s

/-- A load performed: its value is taken and written (R250, R251). -/
def performLoad (s : State) (core : Nat) (a : Access) (signed : Bool) : State :=
  returnReg s core a a.rd (extend signed a.n (memNat s.mem a.pa a.n))

/-- An atomic other than SPC performed (R253); COM returns nothing. -/
def performAtom (s : State) (core : Nat) (a : Access) (op : AtomOp) (use : BitVec 3) (b expect : Word) : State :=
  let old := memNat s.mem a.pa a.n
  let new := atomNew op a.n old (b.toNat % 2 ^ (8 * a.n))
  let t := if op = .cas && old != expect.toNat % 2 ^ (8 * a.n) then s
           else { s with mem := memSetNat s.mem a.pa a.n new }
  if use = 1 then t else returnReg t core a a.rd (extend true a.n old)

/-- An SPC atomic performed or failed with its status (R254). -/
def performSpc (s : State) (core : Nat) (a : Access) (b : Word) (rb : BitVec 5) : State :=
  let old := memNat s.mem a.pa a.n
  let t := { s with fresh := s.fresh + 1 }
  match spcStatus s a with
  | 0 =>
    let t' := { t with mem := memSetNat t.mem a.pa a.n (b.toNat % 2 ^ (8 * a.n)) }
    returnReg (returnReg t' core a rb (extend true a.n old)) core a a.rd 0
  | 1 => returnReg (returnReg t core a rb (extend true a.n old)) core a a.rd 1
  | st => returnReg t core a a.rd (BitVec.ofNat 64 st)

/-- Whether an access waits at its home for a migration to be remapped (R237). -/
def heldByMigration (s : State) (a : Access) : Bool :=
  migrating s a && (match a.kind with
    | .load _ => false
    | .store _ => true
    | .atom _ use _ _ _ => use != 4)

/-- A load or atomic that consumes uncorrectable data (R367): UNCORR at its word, STREAM 9, EVAL the virtual address; a word that issued
in S mode ends its unit, whatever the mode has become (R125), and BRK does not follow a word that traps (R138). Behind a word that the
checker core does not agree to, the CHECK of that word comes first and this one is not taken (R141; log 52). -/
def consumeBad (s : State) (core : Nat) (a : Access) : State :=
  let u := unitAt s core a.slot
  if u.live && u.uid == a.uid && !u.compare.any (fun c => c.1 ≤ a.issue + 8) then
    if a.smode then setUnitAt s core a.slot { u with ending := some (u.ending.getD cUNCORR), wait := none }
    else setUnitAt s core a.slot (trapUnit s { u with stepped := false } 9 cUNCORR (BitVec.ofNat 64 a.va) a.pc)
  else s

/-- An access to an inlet page (R328, R393): a scalar write is narrower than a line and is refused; what a read returns is
open (log 5). -/
def touchInlet (s : State) (core c : Nat) (a : Access) : State :=
  match a.kind with
  | .load signed =>
    let r := freeWord s
    returnReg r.2 core a a.rd (extend signed a.n (r.1.toNat % 2 ^ (8 * a.n)))
  | .store _ => inletRefuse s c
  | .atom _ use _ _ _ =>
    let r := freeWord s
    if use = 1 then inletRefuse s c
    else returnReg (inletRefuse r.2 c) core a a.rd (extend true a.n (r.1.toNat % 2 ^ (8 * a.n)))

/-- Whether an access reads its bytes. -/
def readsBytes (a : Access) : Bool :=
  match a.kind with
  | .store _ => false
  | _ => true

/-- Whether a result of a unit that an earlier word is to bring is still under way, so that a trap of a later one waits (R122). -/
def earlierOut (k : Core) (a : Access) : Bool :=
  (match k.divider with
   | some d => d.uid == a.uid
   | none => false)
  || k.accs.any (fun b => b.uid == a.uid && b.id < a.id && responds b && (match b.join with
      | none => true
      | some j => j < a.id))

/-- Whether an access that reads uncorrectable data waits for the results of earlier words before its trap is taken (R122). -/
def trapWaits (s : State) (core : Nat) (a : Access) : Bool :=
  readsBytes a && (inletChan a.pa).isNone && poisoned s a.pa a.n && earlierOut (getCore s core) a

/-- Access number `k` of a core performed at its home, its slot released and the egress noted (R251 to R254, R256, R382). -/
def performOne (s : State) (core k : Nat) (a : Access) : State :=
  let t := noteEgress (setCore s core (passSpc (releaseSlot (getCore s core) k) a)) core a.part (homePkg a.pa)
  match inletChan a.pa with
  | some c => touchInlet t core c a
  | none =>
  if readsBytes a && poisoned t a.pa a.n then consumeBad t core a
  else
  match a.kind with
  | .load signed => performLoad t core a signed
  | .store data => { t with mem := memSetNat t.mem a.pa a.n data.toNat }
  | .atom op use b expect rb =>
    if use = 4 then performSpc t core a b rb else performAtom t core a op use b expect

/-- The place of an access among those of a core. -/
def accPlace (k : Core) (id : Nat) : Nat := (k.accs.takeWhile (fun a => a.id != id)).length

/-- The accesses of a list performed one after the other. -/
def performAll (s : State) (core : Nat) : List Access → State
  | [] => s
  | a :: as => performAll (performOne s core (accPlace (getCore s core) a.id) a) core as

/-- An access performed, with the QNT adds merged into it, in their order and in one instant (R269). -/
def perform (s : State) (core : Nat) (a : Access) : State :=
  performAll s core (((getCore s core).accs.filter (fun b => b.join == some a.id)) ++ [a])

/-- Access `k` performed if it responds as asked and its order and its page allow it, else nothing (log 7). -/
def tryPerform (s : State) (core k : Nat) (resp : Bool) : State :=
  match nth (getCore s core).accs k with
  | none => s
  | some a =>
    if responds a == resp && mayPerform s (dieOf core) (getCore s core).accs k && !heldByMigration s a && !trapWaits s core a
        && reachable s (homePkg a.pa) then
      perform s core a
    else s

/-- LOAD_RESPONSE (R251): the data of a load or the value an atomic returns. -/
def execLoadResponse (core k : Nat) (s : State) : Host.Outcome State Fault Refusal :=
  .next (tryPerform s core k true)

/-- STORE_ACKNOWLEDGEMENT (R251): the home accepts a store or a COM atomic. -/
def execStoreAcknowledgement (core k : Nat) (s : State) : Host.Outcome State Fault Refusal :=
  .next (tryPerform s core k false)

/-- Steps from unit slot `last` to slot `j` in a cyclic order of the four. -/
def cyclicGap (last j : Nat) : Nat := (j + 4 - last % 4 - 1) % 4

/-- Whether waiting access `a` is the next to take a shared slot (R245): its stream is the next in the cyclic order of the requesters, and
no earlier access of it waits. -/
def nextForShared (k : Core) (a : Access) : Bool :=
  sharedFor k (reqScalar a.slot) 1 && k.accs.all (fun b => b.granted || b.ride || b.slot != a.slot || a.id ≤ b.id)

/-- The accesses of a core with one given a slot, and with it the pieces of a record that share it (R244). -/
def giveSlot (accs : List Access) (a : Access) (reserve : Bool) : List Access :=
  accs.map (fun b => if b.id = a.id || (b.ride && b.uid == a.uid && b.issue == a.issue) then { b with granted := true, reserve := reserve } else b)

/-- REQUEST_SLOT_GRANT (R245): a freed slot goes to a waiting access, a reserve slot to its owner and a shared slot in
cyclic order. -/
def execRequestSlotGrant (core k : Nat) (s : State) : Host.Outcome State Fault Refusal :=
  let c := getCore s core
  match nth c.accs k with
  | none => .next s
  | some a =>
    if a.granted || a.ride then .next s
    else if reserveUsed c a.slot < 8 then .next (setCore s core { c with accs := giveSlot c.accs a true })
    else if nextForShared c a then
      .next (setCore s core { shareTaken c (reqScalar a.slot) with accs := giveSlot c.accs a false })
    else .next s

/-! ## FENCE (R33, R264, R265) -/

/-- The accesses a FENCE counts: the unit's outstanding ones of the before-mask with a home within the scope. -/
def fenceCounts (k : Core) (core uid : Nat) (before : BitVec 16) (scope : Nat) : List Nat :=
  (k.accs.filter (fun a => a.uid == uid && before.getLsbD a.cls.toNat
    && homeScope (dieOf core) a.pa ≤ scope)).map (·.id)

/-- The commands of a unit whose push is still to be performed, with a class of the before-mask and a home within a scope: the core's
own hod engine, or the hub (R258, R264). -/
def pushesCounted (u : Unit) (before : BitVec 16) (scope : Nat) : List Cmd :=
  u.ports.flatMap (fun e => e.2.queue.filter (fun c =>
    before.getLsbD (c.quad.cw0.toNat / 2 ^ 52 % 16) && (if e.1 = 0 then 0 else 2) ≤ scope))

/-- Whether an access keeps a push of a class and scope from being performed: one of the class, or a COM or NOR atomic of it within the
scope (R258, R266, R267). -/
def keepsPush (die uid cls pushed scope : Nat) (a : Access) : Bool :=
  a.uid == uid && a.cls.toNat == cls && a.id < pushed && (!looseAtomic a || homeScope die a.pa ≤ scope)

/-- The accesses that the pushes a FENCE counts wait for: such a push is performed once they are (R264). -/
def pushCounts (k : Core) (core : Nat) (u : Unit) (before : BitVec 16) (scope : Nat) : List Nat :=
  (k.accs.filter (fun a => (pushesCounted u before scope).any (fun c =>
    keepsPush (dieOf core) u.uid (c.quad.cw0.toNat / 2 ^ 52 % 16) c.pushed (c.quad.cw0.toNat / 2 ^ 50 % 4) a))).map (·.id)

/-- FENCE (R264): a mask register with bits above 15 raises OPERAND; a fifth incomplete FENCE waits at issue until the oldest
completes (R265). -/
def execFence (scope : BitVec 2) (ball aall : BitVec 1) (ra rb : BitVec 5) (s : State) :
    Host.Outcome State Fault Refusal :=
  scalarWord (.fence scope ball aall ra rb) (fun t =>
    let k := curCore t
    let u := getUnit t
    let bv := if ball = 1 then 0xFFFF#64 else regRead t ra
    let av := if aall = 1 then 0xFFFF#64 else regRead t rb
    if !zeroAbove bv 16 || !zeroAbove av 16 then .trap cOPERAND 0
    else if (openFences k u).length ≥ 4 then .hold
    else
      let counted := fenceCounts k t.focus.core u.uid (bv.setWidth 16) scope.toNat ++ pushCounts k t.focus.core u (bv.setWidth 16) scope.toNat
      .done (setUnit t { u with fences := openFences k u ++ [{ after := av.setWidth 16, counted := counted }] })) s

end Sys2Proof.Machine
end

