-- ==== Sys2Proof/Machine/Numbers.lean ====
section
/-! DEFINITION. Exact values, the thirteen formats bit by bit, rounding, saturation and conversion, and the weight
digits of the fabric (R46, R61 to R77). -/
namespace Sys2Proof.Machine

/-- An exact value (R64 to R66): NaN, an infinity, or (-1)^neg × num ÷ den; a zero keeps its sign. -/
inductive XVal where
  | nan
  | inf (neg : Bool)
  | fin (neg : Bool) (num den : Nat)
  deriving DecidableEq, Repr

/-- The rational m × 2^e as numerator and denominator. -/
def scaled (m : Nat) (e : Int) : Nat × Nat := if 0 ≤ e then (m * 2 ^ e.toNat, 1) else (m, 2 ^ (-e).toNat)

/-- The exact value of an integer. -/
def xint (v : Int) : XVal := .fin (v < 0) v.natAbs 1

/-! ## Formats (R61, R64, R65) -/

/-- Fraction width, exponent width and bias of a floating format (R64). -/
def fparams : Fmt → Nat × Nat × Int
  | .f32 => (23, 8, 127)
  | .bf16 => (7, 8, 127)
  | .f16 => (10, 5, 15)
  | .e5m2 => (2, 5, 15)
  | .e4m3 => (3, 4, 7)
  | _ => (0, 0, 0)

/-- The canonical NaN of a floating format (R65). -/
def canonNan : Fmt → Nat
  | .f32 => 0x7FC00000
  | .bf16 => 0x7FC0
  | .f16 => 0x7E00
  | .e5m2 => 0x7E
  | _ => 0x7F

/-- The greatest finite value of a floating format, as its bits without the sign (R64). -/
def maxFinite (f : Fmt) : Nat :=
  match f with
  | .e4m3 => 0x7E
  | _ => (2 ^ (fparams f).2.1 - 1) * 2 ^ (fparams f).1 - 1

/-- The sign bit of a format in place. -/
def signBit (f : Fmt) (neg : Bool) : Nat := if neg then 2 ^ (fmtBits f - 1) else 0

/-- InfOf of R68: the infinity of a sign; E4M3 has none and gives its canonical NaN. -/
def infBits (f : Fmt) (neg : Bool) : Nat :=
  match f with
  | .e4m3 => canonNan .e4m3
  | _ => signBit f neg + (2 ^ (fparams f).2.1 - 1) * 2 ^ (fparams f).1

/-- The value of a floating element (R64, R65). -/
def floatVal (f : Fmt) (bits : Nat) : XVal :=
  let fw := (fparams f).1
  let ew := (fparams f).2.1
  let bias := (fparams f).2.2
  let neg := bits / 2 ^ (fw + ew) % 2 == 1
  let e := bits / 2 ^ fw % 2 ^ ew
  let t := bits % 2 ^ fw
  if f == .e4m3 && e == 15 && t == 7 then .nan
  else if f != .e4m3 && e == 2 ^ ew - 1 then (if t = 0 then .inf neg else .nan)
  else
    let nd := if e = 0 then scaled t (1 - bias - fw) else scaled (2 ^ fw + t) (e - bias - fw)
    .fin neg nd.1 nd.2

/-- The value of an integer element (R46, R61); the reserved T2 code reads as zero and is found by `t2Reserved`. -/
def intVal (f : Fmt) (bits : Nat) : Int :=
  match f with
  | .t2 => if bits % 4 = 1 then 1 else if bits % 4 = 3 then -1 else 0
  | _ => if fmtUnsigned f then (bits % 2 ^ fmtBits f : Nat) else signedNat (fmtBits f) bits

/-- Whether an element is the reserved T2 code (R46, R63). -/
def t2Reserved (f : Fmt) (bits : Nat) : Bool := f == .t2 && bits % 4 == 2

/-- The exact value of an element (R61, R64). -/
def elemVal (f : Fmt) (bits : Nat) : XVal := if fmtFloat f then floatVal f bits else xint (intVal f bits)

/-! ## Rounding (R68 to R70) -/

/-- Whether rounding a magnitude `t` with remainder `r` of `d` goes up in a mode: 0 RNE, 1 RTZ, 2 RUP, 3 RDN (R35,
R68). -/
def roundsUp (m : BitVec 2) (neg : Bool) (t r d : Nat) : Bool :=
  match m.toNat with
  | 0 => 2 * r > d || (2 * r == d && t % 2 == 1)
  | 1 => false
  | 2 => !neg && r != 0
  | _ => neg && r != 0

/-- floor(log2 (num ÷ den)) of a positive rational. -/
def floorLog2 (num den : Nat) : Int :=
  let a : Int := (Nat.log2 num : Int) - Nat.log2 den
  let low := if 0 ≤ a then num < den * 2 ^ a.toNat else num * 2 ^ (-a).toNat < den
  if low then a - 1 else a

/-- RoundToFormat of a value to a floating format, then R69 when `sat` is set (R68, R69). -/
def roundFloat (f : Fmt) (m : BitVec 2) (sat : Bool) (x : XVal) : Nat :=
  match x with
  | .nan => canonNan f
  | .inf neg => if sat then signBit f neg + maxFinite f else infBits f neg
  | .fin neg num den =>
    if num = 0 then signBit f neg
    else
      let fw := (fparams f).1
      let bias := (fparams f).2.2
      let qe := max (floorLog2 num den) (1 - bias) - fw
      let n' := if 0 ≤ qe then num else num * 2 ^ (-qe).toNat
      let d' := if 0 ≤ qe then den * 2 ^ qe.toNat else den
      let t := n' / d' + (if roundsUp m neg (n' / d') (n' % d') d' then 1 else 0)
      let pattern := (qe + bias + fw - 1).toNat * 2 ^ fw + t
      if pattern > maxFinite f then
        if sat then signBit f neg + maxFinite f
        else if m = 0 || (m = 2 && !neg) || (m = 3 && neg) then infBits f neg
        else signBit f neg + maxFinite f
      else signBit f neg + pattern

/-- A finite value rounded to an integer in a mode (R68). -/
def roundInt (m : BitVec 2) (neg : Bool) (num den : Nat) : Int :=
  let t := num / den + (if roundsUp m neg (num / den) (num % den) den then 1 else 0)
  if neg then -(t : Int) else t

/-- An integer result in an integer format (R70): saturated, or its low bits; T2 always saturates. -/
def packInt (f : Fmt) (sat : Bool) (v : Int) : Nat :=
  let lo := (fmtRange f).1
  let hi := (fmtRange f).2
  let c := if sat || f == .t2 then (if v < lo then lo else if hi < v then hi else v) else v
  (c % (2 ^ fmtBits f : Nat)).toNat

/-- A value delivered in a format under R68 to R71: rounding for a floating format; for an integer format rounding and
R70, an infinity by its sign when it saturates and 0 otherwise, NaN 0. -/
def deliver (f : Fmt) (m : BitVec 2) (sat : Bool) (x : XVal) : Nat :=
  if fmtFloat f then roundFloat f m sat x
  else
    match x with
    | .nan => 0
    | .inf neg =>
      if sat || f == .t2 then packInt f true (if neg then (fmtRange f).1 else (fmtRange f).2) else 0
    | .fin neg num den => packInt f sat (roundInt m neg num den)

/-- Conversion of an element between formats (R71). -/
def convert (src dst : Fmt) (m : BitVec 2) (sat : Bool) (bits : Nat) : Nat :=
  if src = dst then
    (if fmtFloat src && floatVal src bits == .nan then canonNan src else bits % 2 ^ fmtBits src)
  else deliver dst m sat (elemVal src bits)

/-! ## Exact arithmetic (R69, R77, R211) -/

/-- Negation. -/
def xneg : XVal → XVal
  | .nan => .nan
  | .inf n => .inf !n
  | .fin n a b => .fin (!n) a b

/-- Absolute value. -/
def xabs : XVal → XVal
  | .nan => .nan
  | .inf _ => .inf false
  | .fin _ a b => .fin false a b

/-- Sum; an exact zero that is not of two zeros of one sign is -0 under RDN and +0 otherwise (R69). -/
def xadd (m : BitVec 2) : XVal → XVal → XVal
  | .nan, _ => .nan
  | _, .nan => .nan
  | .inf p, .inf q => if p = q then .inf p else .nan
  | .inf p, .fin _ _ _ => .inf p
  | .fin _ _ _, .inf q => .inf q
  | .fin p a b, .fin q c d =>
    if a = 0 && c = 0 && p = q then .fin p 0 1
    else
      let l : Int := (if p then -1 else 1) * (a * d : Nat)
      let r : Int := (if q then -1 else 1) * (c * b : Nat)
      if l + r = 0 then .fin (m = 3) 0 1 else .fin (l + r < 0) (l + r).natAbs (b * d)

/-- Product; a zero product takes the exclusive-or of the signs, 0 × infinity is NaN (R211). -/
def xmul : XVal → XVal → XVal
  | .nan, _ => .nan
  | _, .nan => .nan
  | .inf p, .inf q => .inf (p != q)
  | .inf p, .fin q c _ => if c = 0 then .nan else .inf (p != q)
  | .fin p a _, .inf q => if a = 0 then .nan else .inf (p != q)
  | .fin p a b, .fin q c d => .fin (p != q) (a * c) (b * d)

/-- The order of R211 on values that are not NaN, with -0 below +0. -/
def xltStrict : XVal → XVal → Bool
  | .inf p, .inf q => p && !q
  | .inf p, .fin _ _ _ => p
  | .fin _ _ _, .inf q => !q
  | .fin p a b, .fin q c d =>
    let l : Int := (if p then -1 else 1) * (a * d : Nat)
    let r : Int := (if q then -1 else 1) * (c * b : Nat)
    l < r || (a == 0 && c == 0 && p && !q)
  | _, _ => false

/-- Numeric comparison with -0 = +0 (R215): less, for values that are not NaN. -/
def xlt : XVal → XVal → Bool
  | .fin p a b, .fin q c d => !(a == 0 && c == 0) && xltStrict (.fin p a b) (.fin q c d)
  | x, y => xltStrict x y

/-- Numeric equality with -0 = +0 (R215), for values that are not NaN. -/
def xeq (x y : XVal) : Bool := !xlt x y && !xlt y x

/-- Whether a value is NaN. -/
def isNan : XVal → Bool
  | .nan => true
  | _ => false

/-- The product of an activation and a weight in a cell (R77): a zero product is +0. -/
def cellProduct (a w : XVal) : XVal :=
  match xmul a w with
  | .fin _ 0 _ => .fin false 0 1
  | x => x

/-- An F32 accumulator after one contribution (R78). -/
def f32Add (acc : Nat) (p : XVal) : Nat := roundFloat .f32 0 false (xadd 0 (floatVal .f32 acc) p)

/-- Entry ci of the constant table as an exact value (R47); the irrational entries to 40 decimal digits, which
decides every rounding to a format of the device. -/
def constVal (i : Nat) : XVal :=
  match constRat i with
  | some (n, d) => .fin (n < 0) n.natAbs d
  | none =>
    match i with
    | 60 => .fin false 6931471805599453094172321214581765680755 (10 ^ 40)
    | 61 => .fin false 14426950408889634073599246810018921374266 (10 ^ 40)
    | 62 => .fin false 7071067811865475244008443621048490392848 (10 ^ 40)
    | _ => .fin false 1591549430918953357688837633725143620345 (10 ^ 40)

/-- Const(i, t): the bits an operand field delivers for entry ci in a type (R47, R48). -/
def constBits (i : Nat) (t : Fmt) : Nat := deliver t 0 false (constVal i)

/-! ## Weight digits (R46, R72 to R75) -/

/-- D, the digit count of a weight format; 0 for a format the fabric does not take (R72). -/
def digitCount : Fmt → Nat
  | .t2 => 1 | .i4 => 2 | .i8 => 4 | .e5m2 => 2 | .e4m3 => 2 | .bf16 => 4 | .f16 => 6 | .f32 => 12
  | _ => 0

/-- Bit k of a quantity of n bits read as two's complement, its sign repeated above, 0 below bit 0 (R73). -/
def recodeBit (n v : Nat) (k : Int) : Int :=
  if k < 0 then 0 else if k ≥ n then (v / 2 ^ (n - 1) % 2 : Nat) else (v / 2 ^ k.toNat % 2 : Nat)

/-- Digit i of a quantity of n bits (R73). -/
def recodeDigit (n v i : Nat) : Int :=
  -2 * recodeBit n v (2 * i + 1) + recodeBit n v (2 * i) + recodeBit n v ((2 * i : Int) - 1)

/-- The recoded digit i of a weight element (R72, R73). -/
def weightDigit (f : Fmt) (bits i : Nat) : Int :=
  match f with
  | .t2 => intVal .t2 bits
  | .i4 => recodeDigit 4 (bits % 16) i
  | .i8 => recodeDigit 8 (bits % 256) i
  | _ => recodeDigit ((fparams f).1 + 1) (bits % 2 ^ (fparams f).1) i

/-- The three planes of a digit: sign, mag-high, mag-low as bits 0, 1, 2 (R46, R73). -/
def digitPlanes (d : Int) : Nat :=
  (if d < 0 then 1 else 0) + (if d.natAbs = 2 then 2 else 0) + (if d.natAbs = 1 then 4 else 0)

/-- The digit three planes hold; none for the reserved code (R46). -/
def planesDigit (p : Nat) : Option Int :=
  let mag : Int := if p / 2 % 2 = 1 then (if p / 4 % 2 = 1 then 3 else 2) else (if p / 4 % 2 = 1 then 1 else 0)
  if mag = 3 then none else some (if p % 2 = 1 then -mag else mag)

/-- The head of a floating weight (R74). -/
def weightHead (f : Fmt) (bits : Nat) : Nat :=
  let fw := (fparams f).1
  let ew := (fparams f).2.1
  let ws := bits / 2 ^ (fw + ew) % 2
  match floatVal f bits with
  | .nan => ws * 32768 + 2 * 8192
  | .inf _ => ws * 32768 + 1 * 8192
  | .fin _ _ _ => ws * 32768 + bits / 2 ^ fw % 2 ^ ew

/-- Whether a head is one R74 assigns. -/
def headOk (h : Nat) : Bool :=
  h / 8192 % 4 != 3 && h / 256 % 32 == 0 && (h / 8192 % 4 == 0 || h % 256 == 0)

/-- The sum of digits i ≥ lo of a cell's planes, digit i at bits 3i on (R75); none where a digit is reserved. -/
def digitSum (planes lo : Nat) : Nat → Nat → Option Int
  | 0, _ => some 0
  | n + 1, i =>
    match digitSum planes lo n (i + 1) with
    | none => none
    | some t =>
      if i < lo then some t
      else
        match planesDigit (planes / 2 ^ (3 * i) % 8) with
        | none => none
        | some d => some (t + d * 4 ^ i)

/-- WeightValue of R75: the weight a cell's planes and head give in a format, reading the leading P digits; none
where a digit read or the head is reserved (R46, R74). -/
def weightValue (f : Fmt) (planes head P : Nat) : Option XVal :=
  let D := digitCount f
  let lo := if P = 0 || P ≥ D then 0 else D - P
  match digitSum planes lo D 0 with
  | none => none
  | some t =>
    if !fmtFloat f then some (xint t)
    else if !headOk head then none
    else
      let ws := head / 32768 % 2 == 1
      match head / 8192 % 4 with
      | 1 => some (.inf ws)
      | 2 => some .nan
      | _ =>
        let fw := (fparams f).1
        let wexp := head % 256
        let m : Int := (if wexp = 0 then 0 else 2 ^ fw) + t
        let nd := scaled m.natAbs ((max wexp 1 : Nat) - (fparams f).2.2 - fw)
        some (.fin (ws != (m < 0)) nd.1 nd.2)

end Sys2Proof.Machine
end

