-- ==== Sys2Proof/Machine/System.lean ====
section
/-! DEFINITION. System words, special registers, knots, token queues and the branches on knots and engine flags
(R94 to R99, R117 to R121, R134, R136, R139, R288). HALT stands in Machine/Units.lean and ERET
in Machine/Containment.lean. -/
namespace Sys2Proof.Machine

/-- NOP (R134). -/
def execNop (s : State) : Host.Outcome State Fault Refusal := scalarWord .nop (fun t => .done t) s

/-- TRAP (R134): EPC is the word after it (R123); in S mode the unit ends with TRAP (R125). -/
def execTrap (ra : BitVec 5) (s : State) : Host.Outcome State Fault Refusal :=
  scalarWord (.trap ra) (fun t => .trapAfter cTRAP (regRead t ra)) s

/-- BRK (R134). -/
def execBrk (s : State) : Host.Outcome State Fault Refusal :=
  scalarWord .brk (fun _ => .trapAfter cBRK 0) s

/-- What WFE does when it issues or is tried again (R136). -/
def wfeBody (t : State) : Act :=
  if (getUnit t).evl then .done (setUnit t { getUnit t with evl := false }) else .wait

/-- WFE (R136). -/
def execWfe (s : State) : Host.Outcome State Fault Refusal := scalarWord .wfe wfeBody s

/-! ## Special registers (R117 to R121, R139) -/

/-- Whether a mode may read a special register (R117). -/
def srReadable (m : Mode) (n : Nat) : Bool := m == .s || n < 4 || n == 0x15

/-- Whether a mode may write a special register (R117). -/
def srWritable (m : Mode) (n : Nat) : Bool := n == 0x15 || (m == .s && (n == 0 || (16 ≤ n && n < 21)))

/-- The value of a special register (R117 to R120). -/
def srValue (u : Unit) (n : Nat) : Word :=
  match n with
  | 0 => statusWord u
  | 1 => u.unitid
  | 2 => u.argp
  | 3 => u.tcbp
  | 0x10 => u.tvec
  | 0x11 => u.epc
  | 0x12 => u.ecause
  | 0x13 => u.eval
  | 0x14 => u.sscratch
  | _ => u.uscratch

/-- Whether a value may be written to a special register: no reserved bit set, and STATUS.MODE unchanged
(R118, R120, R121). -/
def srValueOk (u : Unit) (n : Nat) (v : Word) : Bool :=
  match n with
  | 0 => zeroAbove v 4 && wbits v 1 1 == 0 && (wbits v 0 1 == 1) == (u.mode == .s)
  | 0x11 => zeroAbove v 55 && wbits v 0 2 == 0
  | 0x12 => zeroAbove v 16 && wbits v 8 4 == 0
  | _ => true

/-- The unit with a special register written (R117, R118). -/
def srWrite (u : Unit) (n : Nat) (v : Word) : Unit :=
  match n with
  | 0 => { u with sstep := wbits v 2 1 == 1, evl := wbits v 3 1 == 1 }
  | 0x10 => { u with tvec := v }
  | 0x11 => { u with epc := v }
  | 0x12 => { u with ecause := v }
  | 0x13 => { u with eval := v }
  | 0x14 => { u with sscratch := v }
  | _ => { u with uscratch := v }

/-- GETSR (R139). -/
def execGetsr (rd : BitVec 5) (sr : BitVec 12) (s : State) : Host.Outcome State Fault Refusal :=
  scalarWord (.getsr rd sr) (fun t =>
    let u := getUnit t
    if !srExists sr then .trap cILLEGAL 0
    else if !srReadable u.mode sr.toNat then .trap cPRIV 0
    else .done (regWriteAfter t rd (srValue u sr.toNat) 1)) s

/-- PUTSR (R121, R139). -/
def execPutsr (ra : BitVec 5) (sr : BitVec 12) (s : State) : Host.Outcome State Fault Refusal :=
  scalarWord (.putsr ra sr) (fun t =>
    let u := getUnit t
    if !srExists sr then .trap cILLEGAL 0
    else if !srWritable u.mode sr.toNat then .trap cPRIV 0
    else if !srValueOk u sr.toNat (regRead t ra) then .trap cOPERAND 0
    else .done (setUnit t (srWrite u sr.toNat (regRead t ra)))) s

/-! ## Knots (R96 to R99) -/

/-- A core with a knot write under way (R97). -/
def postKnot (k : Core) (due order : Nat) (knot : BitVec 4) (v : Bool) : Core :=
  { k with knotw := k.knotw ++ [{ due := due, order := order, knot := knot, value := v }] }

/-- The place of the scalar stream of a slot in the stream order of R95. -/
def scalarOrder (slot : Nat) : Nat := 9 + slot

/-- A list of knot writes with one placed by its order, after those of the same order. -/
def placeKnot (w : KnotWrite) : List KnotWrite → List KnotWrite
  | [] => [w]
  | x :: xs => if x.order ≤ w.order then x :: placeKnot w xs else w :: x :: xs

/-- The knots after a list of writes, applied in order. -/
def applyKnots (b : BitVec 16) : List KnotWrite → BitVec 16
  | [] => b
  | w :: ws =>
    applyKnots (if w.value then b ||| (1#16 <<< w.knot.toNat) else b &&& ~~~(1#16 <<< w.knot.toNat)) ws

/-- A core at the start of a clock: the knot writes that become visible are applied in stream order, and a knot
that changes sets every unit's event latch (R97, R136). -/
def knotsDue (clk : Nat) (k : Core) : Core :=
  let now := (k.knotw.filter (fun w => w.due ≤ clk)).foldl (fun acc w => placeKnot w acc) []
  let b := applyKnots k.knots now
  let k' := { k with knots := b, knotw := k.knotw.filter (fun w => !(w.due ≤ clk)) }
  if b = k.knots then k' else latchAll k'

/-- KNOT.SET (R98). -/
def execKnotSet (num : BitVec 4) (s : State) : Host.Outcome State Fault Refusal :=
  scalarWord (.knotSet num)
    (fun t => .done (setCur t (postKnot (curCore t) (t.clk + 1) (scalarOrder t.focus.slot) num true))) s

/-- KNOT.CLR (R98). -/
def execKnotClr (num : BitVec 4) (s : State) : Host.Outcome State Fault Refusal :=
  scalarWord (.knotClr num)
    (fun t => .done (setCur t (postKnot (curCore t) (t.clk + 1) (scalarOrder t.focus.slot) num false))) s

/-- What KNOT.WAIT does when it issues or is tried again (R98). -/
def knotWaitBody (num : BitVec 4) (t : State) : Act :=
  if (curCore t).knots.getLsbD num.toNat then .done t else .wait

/-- KNOT.WAIT (R98). -/
def execKnotWait (num : BitVec 4) (s : State) : Host.Outcome State Fault Refusal :=
  scalarWord (.knotWait num) (knotWaitBody num) s

/-- BKNOT.SET (R99). -/
def execBknotSet (k : BitVec 4) (off : BitVec 16) (s : State) : Host.Outcome State Fault Refusal :=
  scalarWord (.bknotSet k off) (fun t =>
    if (curCore t).knots.getLsbD k.toNat then .jump t (branchTarget (getUnit t).pc off) else .done t) s

/-- BKNOT.CLR (R99). -/
def execBknotClr (k : BitVec 4) (off : BitVec 16) (s : State) : Host.Outcome State Fault Refusal :=
  scalarWord (.bknotClr k off) (fun t =>
    if (curCore t).knots.getLsbD k.toNat then .done t else .jump t (branchTarget (getUnit t).pc off)) s

/-- BSTAT.SET (R30, R288). -/
def execBstatSet (eng : BitVec 4) (flag : BitVec 2) (off : BitVec 16) (s : State) :
    Host.Outcome State Fault Refusal :=
  scalarWord (.bstatSet eng flag off) (fun t =>
    if eng.toNat ≥ 5 then .trap cOPERAND 0
    else if flagRead t (getUnit t) eng.toNat flag.toNat then .jump t (branchTarget (getUnit t).pc off)
    else .done t) s

/-- BSTAT.CLR (R30, R288). -/
def execBstatClr (eng : BitVec 4) (flag : BitVec 2) (off : BitVec 16) (s : State) :
    Host.Outcome State Fault Refusal :=
  scalarWord (.bstatClr eng flag off) (fun t =>
    if eng.toNat ≥ 5 then .trap cOPERAND 0
    else if flagRead t (getUnit t) eng.toNat flag.toNat then .done t
    else .jump t (branchTarget (getUnit t).pc off)) s

/-! ## Token queues (R93, R94) -/

/-- A token queue of a core (R93). -/
def tokOf (k : Core) (q : Nat) : TokQ := mapGet { owner := none, count := 0, rsv := 0 } k.tokq q

/-- The core with a token queue replaced. -/
def withTok (k : Core) (q : Nat) (t : TokQ) : Core := { k with tokq := mapSet k.tokq q t }

/-- What TOK.GIVE does when it issues or is tried again (R94). -/
def tokGiveBody (num : BitVec 4) (t : State) : Act :=
  let q := tokOf (curCore t) num.toNat
  if q.owner != some (getUnit t).uid then .trap cOPERAND 0
  else if q.count + q.rsv < 32 then
    .done (setCur t (withTok (curCore t) num.toNat { q with count := q.count + 1 }))
  else .wait

/-- TOK.GIVE (R94). -/
def execTokGive (num : BitVec 4) (s : State) : Host.Outcome State Fault Refusal :=
  scalarWord (.tokGive num) (tokGiveBody num) s

/-- What TOK.TAKE does when it issues or is tried again (R94). -/
def tokTakeBody (num : BitVec 4) (t : State) : Act :=
  let q := tokOf (curCore t) num.toNat
  if q.owner != some (getUnit t).uid then .trap cOPERAND 0
  else if 1 ≤ q.count then
    .done (setCur t (withTok (curCore t) num.toNat { q with count := q.count - 1 }))
  else .wait

/-- TOK.TAKE (R94). -/
def execTokTake (num : BitVec 4) (s : State) : Host.Outcome State Fault Refusal :=
  scalarWord (.tokTake num) (tokTakeBody num) s

/-- Whether TOK.CFG's operands break R94 for a unit. -/
def tokCfgBad (k : Core) (uid : Nat) (a b : Word) : Bool :=
  let q := tokOf k (wbits a 0 4)
  !zeroAbove a 4
  || (if wbits b 63 1 = 1 then wbits b 0 63 != 0 || q.owner != some uid
      else wbits b 6 57 != 0 || wbits b 0 6 > 32 || (q.owner.isSome && q.owner != some uid))

/-- What TOK.CFG does when it issues or is tried again: bit 63 of rb selects release or claim (R94). -/
def tokCfgBody (ra rb : BitVec 5) (t : State) : Act :=
  let a := regRead t ra
  let b := regRead t rb
  let k := curCore t
  let q := tokOf k (wbits a 0 4)
  if tokCfgBad k (getUnit t).uid a b then .trap cOPERAND 0
  else if q.rsv ≠ 0 then .wait
  else if wbits b 63 1 = 1 then .done (setCur t (withTok k (wbits a 0 4) { q with owner := none, count := 0 }))
  else .done (setCur t (withTok k (wbits a 0 4) { q with owner := some (getUnit t).uid, count := wbits b 0 6 }))

/-- TOK.CFG, the claim (R94); rb selects the form (log 24). -/
def execTokCfgClaim (ra rb : BitVec 5) (s : State) : Host.Outcome State Fault Refusal :=
  scalarWord (.tokCfgClaim ra rb) (tokCfgBody ra rb) s

/-- TOK.CFG, the release (R94); rb selects the form (log 24). -/
def execTokCfgRelease (ra rb : BitVec 5) (s : State) : Host.Outcome State Fault Refusal :=
  scalarWord (.tokCfgRelease ra rb) (tokCfgBody ra rb) s

end Sys2Proof.Machine
end

