-- ==== Sys2Proof/Machine/Tiles.lean ====
section
/-! DEFINITION. Tile handles, their placement and storage, deposits, the tile instructions and shape records
(R142 to R166, R348, R349). -/
namespace Sys2Proof.Machine

/-! ## Geometry and placement (R148 to R151) -/

def tileRows (t : Tile) : Nat := t.rowsm1.toNat + 1
def tileCols (t : Tile) : Nat := t.colsm1.toNat + 1

/-- The format of a tile; an allocated tile always names one (R158). -/
def tileFmt (t : Tile) : Fmt := (fmtOfCode t.fmt).getD .f32

/-- ROWBYTES of an element tile (R148). -/
def rowBytes (t : Tile) : Nat := ceilDiv (tileCols t * fmtBits (tileFmt t)) 8

/-- PITCH of an element tile (R148). -/
def pitch (t : Tile) : Nat := 64 * ceilDiv (rowBytes t) 64

/-- S, the bytes of a SCRATCH tile (R149, R150). -/
def tileSize (t : Tile) : Nat :=
  if t.pl = 0 then tileRows t * pitch t
  else 3 * t.pl.toNat * tileRows t * tileCols t / 8
    + (if fmtFloat (tileFmt t) then 2 * tileRows t * tileCols t else 0)

/-- The default TARGET of R158. -/
def defaultTarget (t : Tile) : Nat :=
  if t.acc then 0 else if t.pl = 0 then tileRows t * ceilDiv (rowBytes t) 4 else tileSize t / 4

/-- NLINES, NB and LPB of R150. -/
def tileLines (t : Tile) : Nat := ceilDiv (tileSize t) 64
def tileBanks (t : Tile) : Nat := pow2Floor (min 128 (tileLines t)) 8 1
def linesPerBank (t : Tile) : Nat := ceilDiv (tileLines t) (tileBanks t)

/-- Whether two runs of numbers meet. -/
def runsMeet (a n b m : Nat) : Bool := a < b + m && b < a + n

/-- Whether lines L0 on of banks B0 on are free of every SCRATCH tile (R150). -/
def linesFree (k : Core) (b0 nb l0 lpb : Nat) : Bool :=
  k.tiles.all (fun e => !(e.2.valid && !e.2.acc && runsMeet b0 nb e.2.p0 e.2.p1 && runsMeet l0 lpb e.2.p2 e.2.p3))

/-- The placement of a SCRATCH tile: lowest bank, then lowest line (R150). -/
def placeScratch (k : Core) (nb lpb : Nat) : Option (Nat × Nat) :=
  ((span 0 (128 / nb)).filterMap (fun j =>
    (firstIn (fun l0 => linesFree k (j * nb) nb l0 lpb) 0 (257 - lpb)).map (fun l0 => (j * nb, l0)))).head?

/-- Whether row blocks RB0 on of column blocks CB0 on of a sub-array's pool are free (R151). -/
def blocksFree (k : Core) (sub rb nr cb nc : Nat) : Bool :=
  k.tiles.all (fun e => !(e.2.valid && e.2.acc && e.2.sub.toNat == sub
    && runsMeet rb nr e.2.p0 e.2.p1 && runsMeet cb nc e.2.p2 e.2.p3))

/-- The placement of an ACC tile: lowest column block, then lowest row block (R151). -/
def placeAcc (k : Core) (sub h w nr nc : Nat) : Option (Nat × Nat) :=
  ((span 0 (w + 1 - nc)).filterMap (fun cb =>
    (firstIn (fun rb => blocksFree k sub rb nr cb nc) 0 (8 * h + 1 - nr)).map (fun rb => (rb, cb)))).head?

/-! ## Storage (R142, R148 to R150) -/

/-- The scratchpad word that holds 4-byte word `w` of a tile (R150). -/
def tileKey (t : Tile) (w : Nat) : Nat :=
  ((t.p0 + w / 16 % t.p1) * 256 + (t.p2 + w / 16 / t.p1)) * 16 + w % 16

/-- A 4-byte word of a tile. -/
def tileWord (k : Core) (t : Tile) (w : Nat) : Lane := mapGet 0 k.scratch (tileKey t w)

/-- A 4-byte word of a tile as it stood at a clock (R189): the value before the first later write. -/
def tileWordAt (k : Core) (t : Tile) (w clk : Nat) : Lane :=
  match k.scrLog.find? (fun e => e.2.1 == tileKey t w && e.1 > clk) with
  | some e => e.2.2
  | none => tileWord k t w

/-- The scratchpad with a word written; a word of zero is not listed. -/
def scratchSet (m : List (Nat × Lane)) (key : Nat) (v : Lane) : List (Nat × Lane) :=
  if v = 0 then mapErase m key else mapSet m key v

/-- Whether an MLDW in flight still reads tile words as they stood before a clock (R189). -/
def loadReads (k : Core) (clk : Nat) : Bool :=
  k.subs.any (fun b => b.2.flights.any (fun f => match f.effect with
    | .load _ _ _ _ _ _ => f.issue < clk
    | _ => false))

/-- The core with a tile word written at a clock; values overwritten in the last 300 clocks, or that an MLDW in flight may still
read, are kept (R189). -/
def setTileWord (k : Core) (t : Tile) (w clk : Nat) (v : Lane) : Core :=
  { k with
    dirty := addDirty k.dirty (11, tileKey t w / 16)
    scratch := scratchSet k.scratch (tileKey t w) v
    scrLog := k.scrLog.filter (fun e => e.1 + 300 > clk || loadReads k e.1) ++ [(clk, tileKey t w, tileWord k t w)] }

/-- Bit range `lo` to `lo + n - 1` of a tile's byte storage, for ranges within one 4-byte word. -/
def tileBits (k : Core) (t : Tile) (bit n : Nat) : Nat :=
  (tileWord k t (bit / 32)).toNat / 2 ^ (bit % 32) % 2 ^ n

/-- Whether any 4-byte word of a list of words of a tile is poisoned (R367). -/
def spoilt (k : Core) (t : Tile) (ws : List Nat) : Bool := !k.spoil.isEmpty && ws.any (fun w => k.spoil.contains (tileKey t w))

/-- The bit at which element (r, c) of an element tile starts (R148). -/
def elemBit (t : Tile) (r c : Nat) : Nat := 8 * (r * pitch t) + c * fmtBits (tileFmt t)

/-- The raw bits of element (r, c) of an element tile (R148). -/
def tileElem (k : Core) (t : Tile) (r c : Nat) : Nat := tileBits k t (elemBit t r c) (fmtBits (tileFmt t))

/-- The core with a tile's storage zeroed: scratchpad words of a SCRATCH tile, pool elements and INV marks of an ACC
tile (R156, R201). -/
def clearStorage (k : Core) (t : Tile) : Core :=
  if t.acc then
    let s := t.sub.toNat
    let blocks := (span t.p0 t.p1).flatMap (fun r => (span t.p2 t.p3).map (fun c => (12, s * 65536 + 16 * r + c)))
    { k with
      dirty := addDirties k.dirty blocks
      subs := k.subs.map (fun e => if e.1 = s then
        (e.1, { e.2 with
          acc := e.2.acc.filter (fun a => !(runsMeet (a.1 / 16384) 1 t.p0 t.p1 && runsMeet (a.1 % 512 / 32) 1 t.p2 t.p3))
          inv := e.2.inv.filter (fun b => !(runsMeet (b / 16) 1 t.p0 t.p1 && runsMeet (b % 16) 1 t.p2 t.p3)) })
        else e) }
  else
    { k with
      dirty := addDirties k.dirty ((span t.p0 t.p1).flatMap (fun b => (span t.p2 t.p3).map (fun l => (11, 256 * b + l))))
      scratch := k.scratch.filter (fun e => !(runsMeet (e.1 / 4096) 1 t.p0 t.p1 && runsMeet (e.1 / 16 % 256) 1 t.p2 t.p3))
      spoil := k.spoil.filter (fun w => !(runsMeet (w / 4096) 1 t.p0 t.p1 && runsMeet (w / 16 % 256) 1 t.p2 t.p3)) }

/-! ## State of a fill (R146, R152 to R156) -/

/-- FULL as it reads in a clock (R152, R155). -/
def isFull (t : Tile) (clk : Nat) : Bool := t.acc || (t.full && t.fullAt ≤ clk)

/-- Whether a tile's storage may be accessed: it is not being cleared, nor out of the core (R156, R166). -/
def storageIn (t : Tile) : Bool := t.clearing.isNone && t.p1 != 0

/-- Whether a unit may name a handle (R145, R146). -/
def mayName (t : Tile) (uid : Nat) : Bool := t.valid && (t.ownerUid == uid || t.share)

/-- EVAL of a TILE trap: the handle in bits 27:16 and a word number below (R124). -/
def tileEval (h : BitVec 12) (pc : BitVec 14) : Word := h.setWidth 64 <<< 16 ||| pc.setWidth 64

/-- A tile with one more deposit counted; the count that reaches TARGET makes it FULL from the next clock
(R152). -/
def counted (t : Tile) (clk : Nat) : Tile :=
  let t' := { t with arrival := t.arrival + 1 }
  if t'.arrival = t.target then { t' with full := true, fullAt := clk + 1 } else t'

/-- Whether a deposit of a source is outstanding. -/
def hasDeps (s : State) (src : DepSrc) : Bool := s.deps.any (fun d => d.src == src)

/-- A masked word: the bits of `mask` from `new`, the others from `old` (R197). -/
def maskWord (old new mask : Lane) : Lane := (old &&& ~~~mask) ||| (new &&& mask)

/-- The format a deposit combines in; none where it writes. -/
def kindFmt : DepKind → Option Fmt
  | .write => none
  | .sum f => some f
  | .least f => some f
  | .most f => some f

/-- The lesser of two elements as VMIN, or the greater as VMAX (R211, R345). -/
def pickElem (f : Fmt) (most : Bool) (a b : Nat) : Nat :=
  if fmtFloat f then
    let x := floatVal f a
    let y := floatVal f b
    if isNan x || isNan y then canonNan f else if (if most then xltStrict x y else xltStrict y x) then b else a
  else if (if most then intVal f a < intVal f b else intVal f b < intVal f a) then b else a

/-- One element combined with an arriving one (R345, R348): floating sums round RNE without saturation, integer sums wrap, T2
saturates. -/
def addElem (k : DepKind) (a b : Nat) : Nat :=
  match k with
  | .write => b
  | .sum f =>
    if fmtFloat f then roundFloat f 0 false (xadd 0 (floatVal f a) (floatVal f b))
    else packInt f false (intVal f a + intVal f b)
  | .least f => pickElem f false a b
  | .most f => pickElem f true a b

/-- A word with `new` combined into each element of `n` bits the mask covers (R348), element j at bits n × j on. -/
def addWord (kd : DepKind) (n : Nat) (old new mask : Lane) : Nat → Lane
  | 0 => old
  | j + 1 =>
    let prev := addWord kd n old new mask j
    if mask.toNat / 2 ^ (n * j) % 2 = 1 then
      let e := addElem kd (old.toNat / 2 ^ (n * j) % 2 ^ n) (new.toNat / 2 ^ (n * j) % 2 ^ n)
      maskWord prev (BitVec.ofNat 32 (e * 2 ^ (n * j))) (BitVec.ofNat 32 ((2 ^ n - 1) * 2 ^ (n * j)))
    else prev

/-- Whether a word's masked elements hold the reserved T2 code in the old or the new value (R348). -/
def addReserved (f : Fmt) (old new mask : Lane) : Bool :=
  f == .t2 && (span 0 16).any (fun j => mask.toNat / 2 ^ (2 * j) % 2 == 1
    && (old.toNat / 2 ^ (2 * j) % 4 == 2 || new.toNat / 2 ^ (2 * j) % 4 == 2))

/-- The spoilt words after word `w` of a tile is written: written from uncorrectable data it is poisoned, written whole it is
clear (R367). -/
def spoilAfter (k : Core) (t : Tile) (w : Nat) (whole bad : Bool) : List Nat :=
  let rest := k.spoil.filter (· != tileKey t w)
  if bad then tileKey t w :: rest else if whole then rest else k.spoil

/-- The core with a deposit's word written or added and counted (R152, R348). -/
def applyWord (k : Core) (h : Nat) (clk w : Nat) (data mask : Lane) (kd : DepKind) (bad : Bool) : Core :=
  let t := tileOf k h
  let old := tileWord k t w
  let v := match kindFmt kd with
    | none => maskWord old data mask
    | some f => addWord kd (fmtBits f) old data mask (32 / fmtBits f)
  let k' := setTileWord k t w clk v
  withTile { k' with spoil := spoilAfter k t w (kd == .write && mask == BitVec.allOnes 32) bad } h (counted t clk)

/-- Whether a deposit is refused for what its handle is, R146, R155 and R348: not VALID or of another generation, an ACC tile, a word
outside the tile, an ADD into a digit-plane tile or in another format. -/
def handleRefused (k : Core) (d : Deposit) : Bool :=
  let t := tileOf k d.handle.toNat
  !t.valid || t.gen != d.gen || t.acc || d.word ≥ ceilDiv (tileSize t) 4
  || (match kindFmt d.kind with
      | none => false
      | some f => t.pl != 0 || f != tileFmt t)

/-- Whether a deposit is refused for the reserved T2 code in its element or the one it meets (R348). -/
def codeRefused (k : Core) (d : Deposit) : Bool :=
  match kindFmt d.kind with
  | none => false
  | some f => addReserved f (tileWord k (tileOf k d.handle.toNat) d.word) d.data d.mask

/-- Whether a deposit is refused under R146, R155 and R348. -/
def depositRefused (k : Core) (d : Deposit) : Bool := handleRefused k d || codeRefused k d

/-! ### RANKED reception (R349, R350) -/

/-- W of R349, the element words of an element tile. -/
def elemWords (t : Tile) : Nat := tileRows t * ceilDiv (rowBytes t) 4

/-- Whether word `w` of an element tile holds an element (R349). -/
def isElemWord (t : Tile) (w : Nat) : Bool := 4 * w / pitch t < tileRows t && 4 * w % pitch t < rowBytes t

/-- Whether a 256-byte segment holds an element word (R349). -/
def segHasWords (t : Tile) (g : Nat) : Bool := (span (64 * g) 64).any (isElemWord t)

/-- Contributions of a tile held for a word. -/
def heldFor (k : Core) (h : BitVec 12) (w : Nat) : Nat :=
  (k.parked.filter (fun p => p.handle == h && p.word == w)).length

/-- Landing rows a segment uses: the most contributions held for one of its words (R349). -/
def segRows (k : Core) (h : BitVec 12) (g : Nat) : Nat :=
  (span (64 * g) 64).foldl (fun a w => max a (heldFor k h w)) 0

/-- The lowest segment of a tile that holds element words and is not complete (R349). -/
def lowestSeg (t : Tile) (r : RankTile) : Option Nat :=
  firstIn (fun g => segHasWords t g && !r.complete.contains g) 0 (ceilDiv (tileSize t) 256)

/-- Landing rows of the core outside every reservation and unused (R349, R350): of 64, less the reservations of tiles and
of commands, less the rows segments use outside a reservation. -/
def freeRows (k : Core) : Int :=
  let resv : Nat := (k.ranks.filter (·.gained)).foldl (fun a r => a + r.s) 0
  let cmd : Nat := k.lrows.foldl (fun a e => a + e.2) 0
  let other : Nat := k.ranks.foldl (fun a r =>
    let t := tileOf k r.handle.toNat
    let low := lowestSeg t r
    a + (span 0 (ceilDiv (tileSize t) 256)).foldl (fun b g =>
      if r.gained && low == some g then b else b + segRows k r.handle g) 0) 0
  64 - (resv + cmd + other : Nat)

/-- The core with reservations gained in order of first arrival while rows suffice: a tile for which they do not keeps those that
came after it waiting (R349). -/
def gainRows (k : Core) : List RankTile → List RankTile → Core
  | done, [] => { k with ranks := done }
  | done, r :: rs =>
    let k' := { k with ranks := done ++ [r] ++ rs }
    if r.gained then gainRows k (done ++ [r]) rs
    else if freeRows k' + (match lowestSeg (tileOf k r.handle.toNat) r with
        | some g => (segRows k r.handle g : Int)
        | none => 0) ≥ r.s then
      gainRows k (done ++ [{ r with gained := true }]) rs
    else k'

/-- A list of contributions with one placed by its key, after those of the same key. -/
def placePark (p : Park) : List Park → List Park
  | [] => [p]
  | x :: xs => if x.key ≤ p.key then x :: placePark p xs else p :: x :: xs

/-- The core with a complete segment's contributions applied in ascending source key and its rows freed (R349). -/
def applySegment (k : Core) (h : BitVec 12) (g clk : Nat) : Core :=
  let mine := k.parked.filter (fun p => p.handle == h && p.word / 64 == g)
  let k1 := { k with
    parked := k.parked.filter (fun p => !(p.handle == h && p.word / 64 == g))
    ranks := k.ranks.map (fun r => if r.handle == h then { r with complete := g :: r.complete } else r) }
  let k2 := (mine.foldl (fun acc p => placePark p acc) []).foldl
    (fun c p => applyWord c h.toNat clk p.word p.data p.mask p.kind p.bad) k1
  let t := tileOf k2 h.toNat
  let k3 := { k2 with ranks := k2.ranks.filter (fun r => !(r.handle == h && (lowestSeg t r).isNone)) }
  gainRows k3 [] k3.ranks

/-- The core with the tile of a RANKED deposit in its list from its first contribution on, its reservation asked for (R349). -/
def rankTile (k : Core) (d : Deposit) : Core :=
  let t := tileOf k d.handle.toNat
  if k.ranks.any (fun r => r.handle == d.handle) then k
  else
    let ranks := k.ranks ++ [{ handle := d.handle, gen := d.gen, s := t.target.toNat / elemWords t, complete := [], gained := false }]
    gainRows { k with ranks := ranks } [] ranks

/-- A RANKED deposit at its bank controller, its tile being listed (R349): none while no landing row it may use is free; else parked,
and the segment applied when it is complete. -/
def parkDeposit (k0 : Core) (d : Deposit) (key : Nat) (clk : Nat) : Option Core :=
  let t := tileOf k0 d.handle.toNat
  let s := t.target.toNat / elemWords t
  let g := d.word / 64
  let reserved := k0.ranks.any (fun r => r.handle == d.handle && r.gained && lowestSeg t r == some g)
  let needsRow := heldFor k0 d.handle d.word + 1 > segRows k0 d.handle g
  if reserved || !needsRow || freeRows k0 ≥ 1 then
    let k1 := { k0 with parked := k0.parked ++ [{ src := d.src, handle := d.handle, gen := d.gen, word := d.word, key := key
                                                  data := d.data, mask := d.mask, kind := d.kind, cls := d.cls, bad := d.bad }] }
    if (span (64 * g) 64).all (fun w => !isElemWord t w || heldFor k1 d.handle w == s) then
      some (applySegment k1 d.handle g clk)
    else some k1
  else none

/-- The contributions held for the segment of a deposit's word. -/
def segParked (k : Core) (d : Deposit) : List Park := k.parked.filter (fun p => p.handle == d.handle && p.word / 64 == d.word / 64)

/-- The state with the contributions held for some handles of a core deposits again, which the freed handles refuse (R146, R361). -/
def unpark (s : State) (core : Nat) (hs : List Nat) : State :=
  let k := getCore s core
  let back := k.parked.filter (fun p => hs.contains p.handle.toNat)
  let t := { s with deps := s.deps ++ back.map (fun p =>
    { src := p.src, core := core, handle := p.handle, gen := p.gen, word := p.word, data := p.data, mask := p.mask, kind := p.kind
      ranked := some p.key, cls := p.cls, due := s.clk, held := false, bad := p.bad }) }
  setCore t core { k with parked := k.parked.filter (fun p => !hs.contains p.handle.toNat) }

/-- Whether a RANKED deposit is refused (R349). -/
def rankRefused (t : Tile) : Bool :=
  elemWords t == 0 || t.target.toNat % elemWords t != 0 || t.target.toNat / elemWords t > 64

/-- The run of a command with TILE reported (R146). -/
def reportTile (s : State) (id : Nat) : State :=
  { s with cmds := s.cmds.map (fun r => if r.cmd.id = id && r.status = 0 then { r with status := cTILE, detail := 0 } else r) }

/-- Whether an acknowledgement is owed for a word of a tile deposited by a source. -/
def owes (o : Owed) (src : DepSrc) (w : Nat × Nat) : Bool := o.src == src && o.left.contains w

/-- An itinerary with a failure at a hop of step `i`: the lowest failed step and its status stand (R304), and the hop has
ended. -/
def failAt (it : Itin) (i h : Nat) (status : BitVec 8) (sub : Nat) : Itin :=
  let it1 := { it with steps := it.steps.map (fun e => if e.1 = i then (i, { e.2 with started := e.2.started.filter (· != h) }) else e) }
  match it.fail with
  | some (j, _, _) => if j ≤ i then it1 else { it1 with fail := some (i, status, BitVec.ofNat 8 sub) }
  | none => { it1 with fail := some (i, status, BitVec.ofNat 8 sub) }

/-- A hop of the itinerary in a slot failed with sub-status `sub`, which is its number and one (R304, R309). -/
def reportHop (s : State) (slot step : Nat) (status : BitVec 8) (sub : Nat) : State :=
  match mapFind s.itins slot with
  | some it => { s with itins := mapSet s.itins slot (failAt it step (sub - 1) status sub) }
  | none => s

/-- The acknowledgement owed first for a deposit marked as a refusal (R198, R354). -/
def markRefused (s : State) (d : Deposit) : State :=
  let go := fun (acc : List Owed × Bool) (o : Owed) =>
    if !acc.2 && owes o d.src (d.handle.toNat, d.word) then (acc.1 ++ [{ o with refused := true }], true) else (acc.1 ++ [o], acc.2)
  { s with owed := (s.owed.foldl go ([], false)).1 }

/-- A refused deposit discarded, its command's record reporting TILE (R146). -/
def discardDeposit (s : State) (d : Deposit) : State :=
  match d.src with
  | .cmd id => reportTile s id
  | .hop slot step => reportHop s slot step cTILE 3
  | .net _ _ _ => markRefused s d
  | .row _ _ _ _ => markRefused s d
  | _ => s

/-- Whether two sources are one agent (R256): an engine stream, an engine for one command or itinerary, a remote sender's command at
one destination, or a sub-array's rows to one destination core. -/
def sameAgent (a b : DepSrc) : Bool :=
  match a, b with
  | .vec c _, .vec d _ => c == d
  | .mat c n _, .mat d m _ => c == d && n == m
  | .hop i _, .hop j _ => i == j
  | x, y => x == y

/-- Whether a deposit made before another is applied before it: one agent's in one class, or into one word, and all rows of a
sub-array to one core (R198, R258, R259); and the first contribution a word takes of a reduction before the others (R346). -/
def ordered (e d : Deposit) : Bool :=
  let oneWord := e.core == d.core && e.handle == d.handle && e.word == d.word
  (sameAgent e.src d.src
    && (e.cls == d.cls || oneWord
      || (match d.src with
          | .row _ _ _ _ => true
          | _ => false)))
  || (oneWord && kindFmt e.kind == none && d.ranked.isNone && (match e.src, d.src with
      | .net _ _ a, .net _ _ b => a == b
      | _, _ => false))

/-- Whether an access writes memory. -/
def writesMem (a : Access) : Bool :=
  match a.kind with
  | .load _ => false
  | _ => true

/-- The instance and issue clock of the word in flight that made a deposit. -/
def wordOf (s : State) (src : DepSrc) : Option (Nat × Nat) :=
  match src with
  | .vec c id => ((getCore s c).vec.flights.find? (fun f => f.id == id)).map (fun f => (f.uid, f.issue))
  | .mat c n id => (mapFind (getCore s c).subs n).bind (fun b => (b.flights.find? (fun f => f.id == id)).map (fun f => (f.uid, f.issue)))
  | _ => none

/-- Whether a source is a word of a unit that issued before a clock. -/
def wordBefore (s : State) (uid clk : Nat) (src : DepSrc) : Bool :=
  match wordOf s src with
  | some (v, c) => v == uid && c < clk
  | none => false

/-- Whether a unit's writes of class 0 that came before a clock are still to be performed (R229, R256): its scalar stores and atomics, the
deposits of its streams, those held in landing rows among them, and its remote rows, handed to egress or not. -/
def owesClass0 (s : State) (core uid clk : Nat) (d : Deposit) : Bool :=
  let k := getCore s core
  k.accs.any (fun a => a.uid == uid && a.cls == 0 && a.issue < clk && writesMem a)
  || s.deps.any (fun e => e.cls == 0 && !sameAgent e.src d.src && wordBefore s uid clk e.src)
  || k.parked.any (fun p => p.cls == 0 && wordBefore s uid clk p.src)
  || s.rowsOut.any (fun e => e.2.cls == 0 && e.2.srcCore == core && wordBefore s uid clk (.mat core e.2.srcSub e.2.srcId))
  || k.subs.any (fun b => b.2.flights.any (fun f => f.uid == uid && f.issue < clk && (match f.effect with
      | .epiRemote _ (r :: _) => r.cls == 0
      | _ => false)))

/-- Whether a VSTT's deposit that would bring its tile FULL waits for the unit's earlier class-0 writes, which it releases (R229,
R266). -/
def releaseWaits (s : State) (d : Deposit) : Bool :=
  let t := tileOf (getCore s d.core) d.handle.toNat
  match d.src with
  | .vec core _ => t.arrival + 1 == t.target && (match wordOf s d.src with
      | some (uid, clk) => owesClass0 s core uid clk d
      | none => false)
  | _ => false

/-- Whether deposit `k` waits where it is: for its clock, for earlier deposits it is ordered after, or for a TSETF or TINFO of this
clock, which follows the deposits of the clock (R154, R160). -/
def depositWaits (s : State) (k : Nat) (d : Deposit) : Bool :=
  d.due > s.clk || (s.deps.take k).any (fun e => ordered e d)
  || mapFind (getCore s d.core).seen d.handle.toNat == some s.clk

/-- Deposit `k` at its bank controller, held or not as asked (R152, R156, R166): it waits its turn, and for its tile's clearing or
return; a refused one is discarded; one that meets a FULL tile is held. -/
def landDeposit (s : State) (k : Nat) (held : Bool) : State :=
  match nth s.deps k with
  | none => s
  | some d =>
    let c := getCore s d.core
    let t := tileOf c d.handle.toNat
    let drop := discardDeposit { s with deps := dropAt s.deps k } d
    if d.held != held || depositWaits s k d then s
    else if handleRefused c d || (d.ranked.isSome && rankRefused t) then drop
    else if !storageIn t then s
    else if isFull t s.clk then (if held then s else { s with deps := setAt s.deps k { d with held := true } })
    else if codeRefused c d then drop
    else if releaseWaits s d then s
    else
      match d.ranked with
      | some key =>
        let c0 := rankTile c d
        match parkDeposit c0 d key s.clk with
        | some c' => setCore { s with deps := dropAt s.deps k } d.core c'
        | none => setCore s d.core c0
      | none =>
        setCore { s with deps := dropAt s.deps k } d.core
          (applyWord c d.handle.toNat s.clk d.word d.data d.mask d.kind d.bad)

/-- Whether the landing of deposit `k` would change anything in this clock. -/
def depositMoves (s : State) (k : Nat) (d : Deposit) : Bool :=
  let c := getCore s d.core
  let t := tileOf c d.handle.toNat
  !depositWaits s k d
  && (handleRefused c d || (d.ranked.isSome && rankRefused t)
    || (storageIn t
      && (if isFull t s.clk then !d.held
          else codeRefused c d || (!releaseWaits s d && (match d.ranked with
            | some key => !(c.ranks.any (fun r => r.handle == d.handle)) || (parkDeposit c d key s.clk).isSome
            | none => true)))))

/-- TILE_CLEAR_END (R156). -/
def execTileClearEnd (core h : Nat) (s : State) : Host.Outcome State Fault Refusal :=
  let k := getCore s core
  match (tileOf k h).clearing with
  | some due => if due ≤ s.clk then .next (setCore s core (withTile k h { tileOf k h with clearing := none })) else .next s
  | none => .next s

/-! ## TALLOC and TFREE (R158, R159) -/

/-- The sub-array of a core if it exists. -/
def subOf (k : Core) (n : Nat) : Option Sub := mapFind k.subs n

/-- Whether a unit holds a sub-array (R82, R168). -/
def holds (k : Core) (uid n : Nat) : Bool :=
  match subOf k n with
  | some b => b.holder == uid
  | none => false

/-- The entry a TALLOC descriptor asks for, before placement (R158). -/
def tallocTile (d : Word) (slot uid : Nat) : Tile :=
  { Tile.reset with
    valid := true
    share := wbits d 62 1 == 1
    acc := wbits d 61 1 == 1
    fmt := BitVec.ofNat 4 (wbits d 56 4)
    pl := BitVec.ofNat 4 (wbits d 52 4)
    owner := BitVec.ofNat 2 slot
    ownerUid := uid
    sub := BitVec.ofNat 4 (wbits d 48 4)
    rowsm1 := BitVec.ofNat 12 (wbits d 36 12)
    colsm1 := BitVec.ofNat 12 (wbits d 24 12) }

/-- Whether a TALLOC descriptor raises OPERAND (R158). -/
def tallocBad (k : Core) (uid : Nat) (d : Word) : Bool :=
  let t := tallocTile d 0 uid
  let f := tileFmt t
  wbits d 60 1 != 0 || wbits d 13 11 != 0
  || (wbits d 12 1 == 1 && wbits d 0 12 != 0)
  || (fmtOfCode t.fmt).isNone
  || (if t.acc then
        !(f == .f32 || f == .i32) || t.pl != 0 || t.share
        || (match subOf k t.sub.toNat with
            | some b => b.holder != uid || tileRows t > 256 * b.h || tileCols t > 32 * b.w
            | none => true)
      else
        t.sub != 0
        || (t.pl != 0 && (digitCount f == 0 || t.pl.toNat > digitCount f
              || tileRows t % 32 != 0 || tileRows t > 256 || tileCols t % 32 != 0 || tileCols t > 512))
        || tileSize t > 2097152)

/-- The entry placed, if a placement exists (R150, R151). -/
def placeTile (k : Core) (t : Tile) : Option Tile :=
  if t.acc then
    match subOf k t.sub.toNat with
    | none => none
    | some b =>
      let nr := ceilDiv (tileRows t) 32
      let nc := ceilDiv (tileCols t) 32
      (placeAcc k t.sub.toNat b.h b.w nr nc).map (fun p => { t with p0 := p.1, p1 := nr, p2 := p.2, p3 := nc })
  else
    (placeScratch k (tileBanks t) (linesPerBank t)).map (fun p =>
      { t with p0 := p.1, p1 := tileBanks t, p2 := p.2, p3 := linesPerBank t })

/-- Clocks the clearing of a placed tile takes (R156). -/
def clearClocks (t : Tile) : Nat := if t.acc then 32 * t.p1 else t.p3

/-- The core with a placed tile allocated at handle `h`: GEN advanced, empty, its storage being cleared (R145, R156,
R158). -/
def allocate (k : Core) (h clk : Nat) (t : Tile) : Core :=
  let t' := { t with
    gen := (tileOf k h).gen + 1
    target := BitVec.ofNat 24 (defaultTarget t)
    clearing := some (clk + clearClocks t) }
  withTile (clearStorage k t') h t'

/-- The handle TALLOC takes: the one requested, or the lowest that is not VALID (R158). -/
def tallocHandle (k : Core) (d : Word) : Option Nat :=
  if wbits d 12 1 = 0 then some (wbits d 0 12) else firstIn (fun h => !(tileOf k h).valid) 0 4096

/-- A TALLOC result: status above, GEN and handle below (R158). -/
def tallocResult (st gen h : Nat) : Word := BitVec.ofNat 64 (st * 2 ^ 56 + gen * 4096 + h)

/-- What TALLOC does when it issues or is tried again (R158). A named handle that is free and finds no placement waits, as the rule's
pseudocode has it, though its prose says that a TALLOC for a named handle never waits (the model's reading, log 63). -/
def tallocBody (rd ra : BitVec 5) (s : State) : Act :=
  let d := regRead s ra
  let k := curCore s
  let uid := (getUnit s).uid
  if tallocBad k uid d then .trap cOPERAND 0
  else
    let nw := wbits d 63 1 == 1
    match tallocHandle k d with
    | none => if nw then .done (regWriteAfter s rd (tallocResult 1 0 0) 2) else .wait
    | some h =>
      if (tileOf k h).valid then .done (regWriteAfter s rd (tallocResult 3 0 0) 2)
      else
        match placeTile k (tallocTile d s.focus.slot uid) with
        | some t =>
          let k' := allocate k h s.clk t
          .done (regWriteAfter (setCur s k') rd (tallocResult 0 (tileOf k' h).gen.toNat h) 2)
        | none => if nw then .done (regWriteAfter s rd (tallocResult 2 0 0) 2) else .wait

/-- TALLOC (R158). -/
def execTalloc (rd ra : BitVec 5) (s : State) : Host.Outcome State Fault Refusal :=
  scalarWord (.talloc rd ra) (tallocBody rd ra) s

/-- Whether a word of a unit that names a handle has issued and not retired (R159, R161). -/
def wordsName (k : Core) (uid : Nat) (h : BitVec 12) : Bool :=
  k.vec.flights.any (fun f => f.uid == uid && (f.op == .ldt || f.op == .stt) && f.handle == h)
  || k.subs.any (fun e => e.2.flights.any (fun f => f.uid == uid && !f.retired && f.handles.contains h))

/-- The handle a splice command's member list gives for a tile of the poster's core: its own entry, or the target's of a put
(R339, R341). -/
def spliceHandle (s : State) (c : Cmd) : List (BitVec 12) :=
  if c.block.length = 128 && fieldNat c.block 3 1 / 2 % 2 = 1 then
    let r := if fieldNat c.block 0 1 = 6 then fieldNat c.block 30 2 else fieldNat c.block 6 2
    match hubRead s c.part (fieldNat c.block 8 8 + 8 * r) 8 with
    | some bs =>
      if leNat bs % 4096 = ownPkg && leNat bs / 4096 % 512 = c.core then [BitVec.ofNat 12 (leNat bs / 2 ^ 32)] else []
    | none => []
  else []

/-- The DEST handle of the steps `i` on of an itinerary that name H2 on a core: of a step the engine has read as it stood then, of
another as it stands in memory (R298, R300). -/
def stepHandles (s : State) (part iva core : Nat) (read : Nat → Option TStep) : Nat → Nat → List (BitVec 12)
  | 0, _ => []
  | n + 1, i =>
    let more := stepHandles s part iva core read n (i + 1)
    match read i with
    | some t => if t.hops / 4 % 2 = 1 && t.core = core then t.handle :: more else more
    | none =>
      match hubRead s part (iva + 32 + 32 * i) 32 with
      | some bs =>
        if fieldNat bs 2 1 / 4 % 2 = 1 && fieldNat bs 8 2 % 512 = core then BitVec.ofNat 12 (fieldNat bs 4 2) :: more else more
      | none => more

/-- The handles the steps of a TIER.RUN or TIER.ROPE quote on its poster's core (R298, R304). -/
def tierHandles (s : State) (c : Cmd) : List (BitVec 12) :=
  let code := wbits c.quad.cw0 56 8
  let iva := wbits c.quad.cw1 0 55
  if code = 1 || code = 3 then
    match hubRead s c.part iva 32 with
    | some bs =>
      let first := if code = 1 then wbits c.quad.cw2 0 16 else 0
      let it := s.itins.find? (fun e => e.2.cmd == c.id)
      stepHandles s c.part iva c.core (fun i => it.bind (fun e => mapFind e.2.steps i)) (fieldNat bs 0 2 - first) first
    | none => []
  else []

/-- The tile handles a command quotes on its poster's core (R291, R298, R339, R344). -/
def cmdHandles (s : State) (c : Cmd) : List (BitVec 12) :=
  if c.eng = 0 then
    (if wbits c.quad.cw0 56 8 = 3 || (wbits c.quad.cw0 56 8 = 1 && wbits c.quad.cw1 30 2 = 2)
        || (wbits c.quad.cw0 56 8 = 2 && wbits c.quad.cw1 30 2 = 1) then []
     else [BitVec.ofNat 12 (wbits c.quad.cw1 0 12)])
  else if c.eng = 1 then tierHandles s c
  else if c.eng = 2 then spliceHandle s c
  else []

/-- Whether a command that a unit posted and that quotes a handle has neither ended nor been cut (R159). -/
def cmdsName (s : State) (u : Unit) (h : BitVec 12) : Bool :=
  u.ports.any (fun e => e.2.queue.any (fun c => (cmdHandles s c).contains h))
  || s.cmds.any (fun r => r.cmd.uid == u.uid && (cmdHandles s r.cmd).contains h)

/-- The core with a handle freed; GEN is kept, and tiles that wait for landing rows gain those that free (R145, R159, R349). -/
def freeTile (k : Core) (h : Nat) : Core :=
  let k1 := withTile { k with ranks := k.ranks.filter (fun r => r.handle.toNat != h)
                              parked := k.parked.filter (fun p => p.handle.toNat != h) } h
    { Tile.reset with gen := (tileOf k h).gen }
  gainRows k1 [] k1.ranks

/-- What TFREE does when it issues or is tried again (R159). -/
def tfreeBody (ra : BitVec 5) (s : State) : Act :=
  let v := regRead s ra
  let h : BitVec 12 := v.setWidth 12
  let k := curCore s
  let u := getUnit s
  let t := tileOf k h.toNat
  if !zeroAbove v 12 then .trap cOPERAND 0
  else if !t.valid || t.ownerUid != u.uid then .trap cTILE (tileEval h 0)
  else if wordsName k u.uid h || cmdsName s u h then .wait
  else
    let s1 := unpark s s.focus.core [h.toNat]
    .done (setCur s1 (freeTile (curCore s1) h.toNat))

/-- TFREE (R159). -/
def execTfree (ra : BitVec 5) (s : State) : Host.Outcome State Fault Refusal :=
  scalarWord (.tfree ra) (tfreeBody ra) s

/-! ## TINFO, TSETF, TWAIT (R160 to R162) -/

/-- The words TINFO returns (R160). -/
def tinfoWord (t : Tile) (clk sel : Nat) : Word :=
  if !t.valid then 0
  else if sel = 0 then
    BitVec.ofNat 64 (2 ^ 63 + (if t.share then 2 ^ 62 else 0) + (if t.acc then 2 ^ 61 else 0)
      + (if isFull t clk then 2 ^ 60 else 0) + t.fmt.toNat * 2 ^ 56 + t.pl.toNat * 2 ^ 52
      + t.owner.toNat * 2 ^ 50 + t.sub.toNat * 2 ^ 46 + t.gen.toNat * 2 ^ 38 + t.arrival.toNat)
  else BitVec.ofNat 64 (t.rowsm1.toNat * 2 ^ 52 + t.colsm1.toNat * 2 ^ 40 + t.target.toNat)

/-- The core with a handle noted as seen in a clock, after that clock's deposits (R154, R160). -/
def noteSeen (k : Core) (h clk : Nat) : Core := { k with seen := mapSet k.seen h clk }

/-- TINFO (R160): the values after this clock's deposits. -/
def execTinfo (rd ra : BitVec 5) (s : State) : Host.Outcome State Fault Refusal :=
  scalarWord (.tinfo rd ra) (fun t =>
    let v := regRead t ra
    let k := curCore t
    if !zeroAbove v 13 then .trap cOPERAND 0
    else .done (regWriteAfter (setCur t (noteSeen k (wbits v 0 12) t.clk)) rd (tinfoWord (tileOf k (wbits v 0 12)) t.clk (wbits v 12 1)) 1)) s

/-- A tile after TSETF's operation 0, 1 or 2 (R161). -/
def tsetfTile (t : Tile) (op v clk : Nat) : Tile :=
  let target : BitVec 24 := BitVec.ofNat 24 (if v = 0 then defaultTarget t else v)
  match op with
  | 0 => { t with full := false, arrival := 0, target := target }
  | 1 => { t with full := true, fullAt := clk, arrival := t.target }
  | _ => if target.toNat ≤ t.arrival.toNat && !t.full then { t with target := target, full := true, fullAt := clk + 1 }
         else { t with target := target }

/-- What TSETF does when it issues or is tried again: rb[63:62] selects the operation (R161). -/
def tsetfBody (ra rb : BitVec 5) (s : State) : Act :=
  let a := regRead s ra
  let b := regRead s rb
  let h : BitVec 12 := a.setWidth 12
  let k := curCore s
  let u := getUnit s
  let t := tileOf k h.toNat
  let op := wbits b 62 2
  if !zeroAbove a 12 || wbits b 24 38 != 0 || op = 3 || (op = 1 && wbits b 0 24 != 0) then .trap cOPERAND 0
  else if !mayName t u.uid || t.acc then .trap cTILE (tileEval h 0)
  else if wordsName k u.uid h then .wait
  else .done (setCur s (noteSeen (withTile k h.toNat (tsetfTile t op (wbits b 0 24) s.clk)) h.toNat s.clk))

/-- TSETF EMPTY (R161); rb selects the operation (log 24). -/
def execTsetfEmpty (ra rb : BitVec 5) (s : State) : Host.Outcome State Fault Refusal :=
  scalarWord (.tsetfEmpty ra rb) (tsetfBody ra rb) s

/-- TSETF FULL (R161); rb selects the operation (log 24). -/
def execTsetfFull (ra rb : BitVec 5) (s : State) : Host.Outcome State Fault Refusal :=
  scalarWord (.tsetfFull ra rb) (tsetfBody ra rb) s

/-- TSETF TARGET (R161); rb selects the operation (log 24). -/
def execTsetfTarget (ra rb : BitVec 5) (s : State) : Host.Outcome State Fault Refusal :=
  scalarWord (.tsetfTarget ra rb) (tsetfBody ra rb) s

/-- What TWAIT does when it issues or is tried again (R162). -/
def twaitBody (ra rb : BitVec 5) (s : State) : Act :=
  let a := regRead s ra
  let b := regRead s rb
  let h : BitVec 12 := a.setWidth 12
  let t := tileOf (curCore s) h.toNat
  if !zeroAbove a 12 || !zeroAbove b 24 then .trap cOPERAND 0
  else if !mayName t (getUnit s).uid then .trap cTILE (tileEval h 0)
  else if isFull t s.clk || (b != 0 && wbits b 0 24 ≤ t.arrival.toNat) then .done s
  else .wait

/-- TWAIT (R162). -/
def execTwait (ra rb : BitVec 5) (s : State) : Host.Outcome State Fault Refusal :=
  scalarWord (.twait ra rb) (twaitBody ra rb) s

/-! ## Shape records (R163, R164) -/

/-- Shape record n; record 0, and a record never written, is natural (R163). -/
def shapeOf (k : Core) (n : Nat) : Shape := mapGet Shape.natural k.shapes n

/-- The shape a 16-byte record holds; none where a reserved bit is set (R163, R164). -/
def shapeOfBytes (bs : List Byte) : Option Shape :=
  if fieldNat bs 12 1 > 1 || fieldNat bs 13 3 != 0 then none
  else some
    { rowoff := fieldNat bs 0 2, coloff := fieldNat bs 2 2, rowstr := signedNat 16 (fieldNat bs 4 2)
      colstr := signedNat 16 (fieldNat bs 6 2), rows := fieldNat bs 8 2, cols := fieldNat bs 10 2
      trans := fieldNat bs 12 1 == 1 }

/-- The image sets of a core with one changed for a unit (R377). -/
def noteImage (k : Core) (uid : Nat) (f g : ImageSet → ImageSet) : Core :=
  let rest := k.images.map (fun i => if i.uid = uid then f i else g i)
  if k.images.any (fun i => i.uid == uid) then { k with images := rest }
  else { k with images := rest ++ [f { uid := uid, vwords := [], mwords := [], shapes := [] }] }

/-- SHAPE.W (R164), which takes a request slot (R244); a record on a poisoned line raises UNCORR as a load does (R367; log 50). -/
def execShapeW (ra rb : BitVec 5) (s : State) : Host.Outcome State Fault Refusal :=
  scalarWord (.shapeW ra rb) (fun t =>
    let a := regRead t ra
    let va := regRead t rb
    let cls : BitVec 4 := BitVec.ofNat 4 (wbits a 8 4)
    let n := wbits a 0 8
    let u := getUnit t
    if n = 0 || !zeroAbove a 12 then .trap cOPERAND 0
    else if fenceHolds (curCore t) u cls || walkHeld t va then .hold
    else if va.toNat % 16 ≠ 0 then .trap cALIGN va
    else
      match translate t va .read with
      | (.fail c, _) => .trap c va
      | (.ok pa _, t') =>
        if readBlocked (curCore t') u cls pa 16 || !homeOk t' pa then .hold
        else if !linesFor (curCore t') t'.focus.slot 1 then .lack (reqScalar t'.focus.slot)
        else if poisoned t' pa 16 then .trap cUNCORR va
        else
          match shapeOfBytes (recordBytes t' pa 16) with
          | none => .trap cOPERAND 0
          | some sh =>
            let k := curCore (useLines t' 1 (homePkg pa))
            .done (setCur t' (noteImage { k with shapes := mapSet k.shapes n sh } u.uid
              (fun i => { i with shapes := if i.shapes.contains n then i.shapes else i.shapes ++ [n] })
              (fun i => { i with shapes := i.shapes.filter (· != n) })))) s

end Sys2Proof.Machine
end

