-- ==== Sys2Proof/Machine/Streams.lean ====
section
/-! DEFINITION. Engine streams: their state, ENG.START, BIND, FORK, STOP and STAT, their faults, the gate every vector and
matrix word passes at issue, and the throttle's stretch (R82 to R90, R93, R95, R96, R109, R302, R362 to R364). -/
namespace Sys2Proof.Machine

/-! ## The state of a stream as a unit sees it (R83, R84, R89) -/

/-- The code of MODE (R83). -/
def modeCode : StreamMode → Nat
  | .idle => 0 | .armed => 1 | .forked => 2 | .bound => 3 | .stopping => 4 | .faulted => 5

/-- The unit that owns the vector sequencer (R82): none once ENG.STOP has been issued for an idle stream, though the operand file
keeps what the unit left there (R144). -/
def vecOwner (k : Core) : Option Nat := if k.vec.released && k.vec.strm.mode = .idle then none else k.vec.owner

/-- Stream `n` of a unit: 0 to 7 matrix, 8 vector; the vector stream of a unit that does not own the sequencer is at
reset (R84). -/
def strmOf (k : Core) (uid n : Nat) : Strm :=
  if n = 8 then (if vecOwner k = some uid then k.vec.strm else Strm.reset) else matOf k n

/-- The core with stream `n` replaced. -/
def withStrm (k : Core) (n : Nat) (m : Strm) : Core :=
  if n = 8 then { k with vec := { k.vec with strm := m } } else withMat k n m

/-- The word ENG.STAT writes (R89). -/
def statBits (m : Strm) : Word :=
  BitVec.ofNat 64 (m.cause.toNat * 2 ^ 56 + m.repcnt.toNat * 2 ^ 49 + m.rotb.toNat * 2 ^ 45
    + m.pc.toNat % 8192 * 2 ^ 32 + m.lc0.toNat * 2 ^ 16 + m.pc.toNat / 8192 * 256
    + (if m.mod.isSome then 128 else 0) + modeCode m.mode)

/-- The unit slot whose unit works the vector sequencer (R82). -/
def vecSlot (k : Core) : Option Nat := (vecOwner k).bind (slotOfUid k)

/-- The unit slot whose unit works matrix sequencer `n` (R82). -/
def matSlot (k : Core) (n : Nat) : Option Nat := (subOf k n).bind (fun b => slotOfUid k b.holder)

/-- Whether words of a stream have issued and not retired; a row write of a latency shadow is one (R373). -/
def inFlight (k : Core) (n : Nat) : Bool :=
  if n = 8 then !k.vec.flights.isEmpty || !k.vec.shadow.isEmpty
  else match subOf k n with
    | some b => b.flights.any (fun f => !f.retired)
    | none => false

/-- A stream whose last word has retired: STOPPING becomes IDLE (R88, R102). -/
def settle (k : Core) (n : Nat) : Core :=
  let m := if n = 8 then k.vec.strm else matOf k n
  if m.mode = .stopping && !inFlight k n then withStrm k n { m with mode := .idle } else k

/-- A stream that issues no further word, its repeat and its loop abandoned (R88). -/
def stopped (m : Strm) : Strm :=
  match m.mode with
  | .idle => m
  | _ => { m with mode := .stopping, repn := 0, repcnt := 0, mod := none, rotb := 0, passed := false }

/-! ## The bound group (R86, R87) -/

/-- Whether a unit's group has been launched: its vector stream is BOUND, or FAULTED in a course. -/
def launched (k : Core) (u : Unit) : Bool :=
  u.group != 0 && ((strmOf k u.uid 8).mode = .bound || (strmOf k u.uid 8).mode = .faulted)

/-- The streams of a mask, in the stream order of R95: vector, then matrix 0 to 7. -/
def maskStreams (mask : BitVec 9) : List Nat := ([8, 0, 1, 2, 3, 4, 5, 6, 7] : List Nat).filter (fun n => mask.getLsbD n)

/-- The core with every stream of a list changed. -/
def mapStrms (k : Core) (uid : Nat) (f : Strm → Strm) : List Nat → Core
  | [] => k
  | n :: ns => mapStrms (withStrm k n (f (strmOf k uid n))) uid f ns

/-- A stream of a group that leaves bound mode (R87, R107); STAMPOFF is zero in forked mode (R109). -/
def leaveBound (m : Strm) : Strm :=
  if m.mode = .bound || m.mode = .armed then { m with mode := .forked, stampoff := 0 } else { m with stampoff := 0 }

/-! ## ENG.START, ENG.BIND, ENG.FORK, ENG.STOP, ENG.STAT (R84 to R89) -/

/-- Whether a selector names a stream of the unit (R84). -/
def selectorOk (k : Core) (uid : Nat) (a : Word) : Bool :=
  zeroAbove a 4 && a.toNat < 9 && (a.toNat == 8 || holds k uid a.toNat)

/-- Whether a mask names streams of the unit (R84). -/
def maskOk (k : Core) (uid : Nat) (a : Word) : Bool :=
  zeroAbove a 9 && a != 0 && (span 0 8).all (fun n => !a.getLsbD n || holds k uid n)

/-- The core with the vector sequencer passed to a unit: the operand file and the latch, with their marks, and VSHAPE are set to
their initial values when it is a different unit (R144, R205). -/
def passVector (k : Core) (uid : Nat) : Core :=
  if k.vec.owner = some uid then { k with vec := { k.vec with released := false } }
  else
    { k with
      vec := { Vec.reset with owner := some uid, nextId := k.vec.nextId }
      vrows := k.vrows.filter (fun e => e.1 < 2048)
      badRows := k.badRows.filter (fun r => r < 2048)
      rowLog := [] }

/-- Whether another unit keeps the vector sequencer (R82, R85). -/
def vectorTaken (k : Core) (uid : Nat) : Bool :=
  match vecOwner k with
  | none => false
  | some o => o != uid

/-- A stream as ENG.START sets it, before its MODE (R85). -/
def startedStrm (m : Strm) (b : Word) (clk : Nat) (mode : StreamMode) : Strm :=
  { m with
    mode := mode
    pc := BitVec.ofNat 14 (wbits b 0 13)
    lc0 := BitVec.ofNat 16 (wbits b 16 16)
    lc1 := BitVec.ofNat 16 (wbits b 32 16)
    lc2 := BitVec.ofNat 16 (wbits b 48 16)
    lc3 := 0, repn := 0, repcnt := 0, mod := none, rotb := 0, cause := 0, stampoff := 0
    issueAt := max m.issueAt (clk + 1), passed := false }

/-- A stream of a group that is launched (R85). -/
def bindStrm (clk : Nat) (m : Strm) : Strm := { m with mode := .bound, stampoff := 0, issueAt := max m.issueAt (clk + 1) }

/-- What ENG.START does when it issues or is tried again (R85). -/
def engStartBody (ra rb : BitVec 5) (t : State) : Act :=
  let a := regRead t ra
  let b := regRead t rb
  let k := curCore t
  let u := getUnit t
  let n := a.toNat
  let grouped := u.group.getLsbD n
  if !selectorOk k u.uid a || wbits b 13 3 != 0 then .trap cOPERAND 0
  else if n = 8 && vectorTaken k u.uid then .wait
  else if (strmOf k u.uid n).mode ≠ .idle && (strmOf k u.uid n).mode ≠ .armed then .trap cOPERAND 0
  else if n ≠ 8 && (subOf k n).any (fun b => b.usable > t.clk) then .hold
  else if n ≠ 8 then
    .done (setCur t (withMat k n (startedStrm (matOf k n) b t.clk (if grouped then .armed else .forked))))
  else if grouped && (maskStreams (u.group &&& 0xFF)).any (fun j => (matOf k j).mode ≠ .armed) then .trap cOPERAND 0
  else
    let k1 := passVector k u.uid
    let k2 := withStrm k1 8 (startedStrm k1.vec.strm b t.clk .forked)
    .done (setCur t (if grouped then mapStrms k2 u.uid (bindStrm t.clk) (maskStreams u.group) else k2))

/-- ENG.START (R85). -/
def execEngStart (ra rb : BitVec 5) (s : State) : Host.Outcome State Fault Refusal :=
  scalarWord (.engStart ra rb) (engStartBody ra rb) s

/-- ENG.BIND (R86). The spec does not say what a second ENG.BIND does to an armed group that has not been launched: the new mask
replaces the unit's group, and a matrix stream of the old group that is ARMED already stays so, in no group (log 51). -/
def execEngBind (ra : BitVec 5) (s : State) : Host.Outcome State Fault Refusal :=
  scalarWord (.engBind ra) (fun t =>
    let a := regRead t ra
    let k := curCore t
    let u := getUnit t
    let mask : BitVec 9 := a.setWidth 9
    if !maskOk k u.uid a || !mask.getLsbD 8 || mask == 0x100 || launched k u
        || (maskStreams mask).any (fun n => (strmOf k u.uid n).mode ≠ .idle) then .trap cOPERAND 0
    else .done (setUnit t { u with group := mask })) s

/-- The core with the row writes of a latency shadow timed from a clock, where no course has issued since the return (R373). -/
def baseShadow (k : Core) (clk : Nat) : Core :=
  if k.vec.base.isNone && !k.vec.shadow.isEmpty then { k with vec := { k.vec with base := some clk } } else k

/-- The greatest clock from which a stream of a unit's group may issue. -/
def groupFree (k : Core) (u : Unit) : Nat := (maskStreams u.group).foldl (fun m n => max m (strmOf k u.uid n).issueAt) 0

/-- The core with the group of the unit in a slot dissolved and its streams FORKED (R87, R107); a shadow not yet timed is timed from
this clock (log 44). -/
def dissolveGroup (k : Core) (slot clk : Nat) : Core :=
  let u := unitOf k slot
  let live := (maskStreams u.group).filter (fun n => n ≠ 8 || vecOwner k = some u.uid)
  let k1 := mapStrms (baseShadow k clk) u.uid leaveBound live
  withUnit k1 slot { unitOf k1 slot with group := 0, leaving := false }

/-- Whether the launched group of a unit stands at a course boundary: every stream has ended its previous word's occupancy
(R105). -/
def courseOver (k : Core) (u : Unit) (clk : Nat) : Bool := groupFree k u ≤ clk

/-- ENG.FORK (R87): a launched group leaves bound mode at the next course boundary, an armed one is dissolved at once. -/
def execEngFork (ra : BitVec 5) (s : State) : Host.Outcome State Fault Refusal :=
  scalarWord (.engFork ra) (fun t =>
    let a := regRead t ra
    let k := curCore t
    let u := getUnit t
    let mask : BitVec 9 := a.setWidth 9
    if !maskOk k u.uid a || mask != u.group then .trap cOPERAND 0
    else if launched k u && !courseOver k u t.clk then .done (setUnit t { u with leaving := true })
    else .done (setCur t (dissolveGroup k t.focus.slot t.clk))) s

/-- The core with the mismatched remote rows of a sub-array free to go to egress once more (R88, R362, R369). -/
def unstick (k : Core) (n : Nat) : Core :=
  { k with subs := k.subs.map (fun e => if e.1 = n then
      (n, { e.2 with flights := e.2.flights.map (fun f => { f with stuck := false }) }) else e) }

/-- ENG.STOP's effect on one stream: its pending cause withdrawn, its words left to retire (R88, R362); the vector
sequencer is released once idle (R82). -/
def stopStream (t : State) (n : Nat) : State :=
  let k := curCore t
  let u := getUnit t
  if n = 8 && vecOwner k ≠ some u.uid then t
  else
    let k0 := if n = 8 then baseShadow k t.clk else unstick k n
    let k1 := settle (withStrm k0 n (stopped (strmOf k0 u.uid n))) n
    let k2 := if n = 8 then { k1 with vec := { k1.vec with released := true } } else k1
    setUnit (setCur t k2) { u with pending := u.pending.filter (fun p => p.stream != n) }

/-- ENG.STOP over a list of streams. -/
def stopStreams (t : State) : List Nat → State
  | [] => t
  | n :: ns => stopStreams (stopStream t n) ns

/-- The state with the unit's launched group dissolved when a mask covers it (R88). -/
def endGroup (t : State) (mask : BitVec 9) : State :=
  let u := getUnit t
  if launched (curCore t) u && (u.group &&& mask) == u.group then setUnit t { u with group := 0, leaving := false } else t

/-- ENG.STOP (R88). -/
def execEngStop (ra : BitVec 5) (s : State) : Host.Outcome State Fault Refusal :=
  scalarWord (.engStop ra) (fun t =>
    let a := regRead t ra
    let k := curCore t
    let u := getUnit t
    let mask : BitVec 9 := a.setWidth 9
    if !maskOk k u.uid a
        || (launched k u && (u.group &&& mask) != 0 && (u.group &&& mask) != u.group) then .trap cOPERAND 0
    else .done (stopStreams (endGroup t mask) (maskStreams mask))) s

/-- ENG.STAT (R89). -/
def execEngStat (rd ra : BitVec 5) (s : State) : Host.Outcome State Fault Refusal :=
  scalarWord (.engStat rd ra) (fun t =>
    let a := regRead t ra
    if !selectorOk (curCore t) (getUnit t).uid a then .trap cOPERAND 0
    else .done (regWriteAfter t rd (statBits (strmOf (curCore t) (getUnit t).uid a.toNat)) 1)) s

/-! ## Faults of a stream (R22, R124, R362, R364) -/

/-- A list of pending causes with one placed by its stream; a stream has one (R363, R376). -/
def addPending (p : Pending) : List Pending → List Pending
  | [] => [p]
  | x :: xs => if x.stream = p.stream then x :: xs else if p.stream < x.stream then p :: x :: xs else x :: addPending p xs

/-- A unit with a cause pending, which is an interrupt in U mode (R81, R136). -/
def pend (u : Unit) (stream : Nat) (cause : BitVec 8) (eval : Word) : Unit :=
  { u with
    pending := addPending { stream := stream, cause := cause, eval := eval } u.pending
    evl := u.evl || u.mode = .u }

/-- The state with stream `n` of the unit in a slot faulted: FAULTED unless it is stopping, CAUSE set, the cause pending;
the clock is noted from which a launched group stands still (R109, R364), and a cause that bypasses the handler ends the unit
(R366). A stream that is STOPPING stays so though one of its issued words faults, since R88 ends it in IDLE; once it is IDLE the
cause of its last word makes it FAULTED (log 51). -/
def streamFault (s : State) (core slot n : Nat) (cause : BitVec 8) (eval : Word) : State :=
  let k := getCore s core
  let u := unitOf k slot
  let m := strmOf k u.uid n
  let m' := { m with cause := cause, mode := if m.mode = .stopping then .stopping else .faulted }
  let u0 := pend u n cause eval
  let u' := if bypasses s u cause then { u0 with ending := some (u.ending.getD cause), wait := none } else u0
  let u'' := if u.group.getLsbD n && launched k u then { u' with away := some (u.away.getD s.clk) } else u'
  let k1 := if n = 8 && cause = cCHECK then { k with mismatch := false } else k
  setCore s core (withUnit (withStrm k1 n m') slot u'')

/-- EVAL of a cause raised by a vector or matrix word at a word number (R124). -/
def pcEval (pc : BitVec 14) : Word := pc.setWidth 64

/-! ## The gate at issue (R90, R93, R95, R96, R109, R188) -/

/-- The word standing next to issue: its core, unit, stream, word number, REP step, ROTB, and whether it issues in a
course. -/
structure Ctx where
  core : Nat
  slot : Nat
  uid : Nat
  strm : Nat
  pc : BitVec 14
  step : Nat
  rotb : Nat
  bound : Bool
  deriving DecidableEq, Repr

/-- Whether the unit of a context owns the queue a field names; 0xF names none (R93). -/
def ownsQueue (k : Core) (uid : Nat) (q : BitVec 4) : Bool := q == 0xF || (tokOf k q.toNat).owner == some uid

/-- Whether TAKE and GIVE can be served (R93, conditions 2 and 3 of R90). -/
def tokensReady (k : Core) (take give : BitVec 4) : Bool :=
  (take == 0xF || (tokOf k take.toNat).count ≥ 1)
  && (give == 0xF || (tokOf k give.toNat).count + (tokOf k give.toNat).rsv < 32)

/-- The core with the token taken and the reservation made (R93). -/
def moveTokens (k : Core) (take give : BitVec 4) : Core :=
  let k1 := if take = 0xF then k
    else withTok k take.toNat { tokOf k take.toNat with count := (tokOf k take.toNat).count - 1 }
  if give = 0xF then k1 else withTok k1 give.toNat { tokOf k1 give.toNat with rsv := (tokOf k1 give.toNat).rsv + 1 }

/-- The core with the token of a finished word given (R93); a queue released meanwhile has no reservation left. -/
def giveToken (k : Core) (uid : Nat) (give : BitVec 4) : Core :=
  let q := tokOf k give.toNat
  if give = 0xF || q.owner != some uid || q.rsv = 0 then k
  else withTok k give.toNat { q with rsv := q.rsv - 1, count := q.count + 1 }

/-- Whether a knot lets a word issue; 0xF is always (R96). -/
def knotPass (k : Core) (knot : BitVec 4) : Bool := knot == 0xF || k.knots.getLsbD knot.toNat

/-- The distance from CYC to a stamp (R109). -/
def stampGap (stamp off : BitVec 40) (clk : Nat) : Nat := (stamp + off - BitVec.ofNat 40 clk).toNat

/-- What the gate decides. -/
inductive Gate where
  | pass
  | skip
  | wait
  | viol
  | fault (cause : BitVec 8) (eval : Word)

/-- The checks of a word next to issue, in their order: its fields, its queues, its stamp, its knot, its handles, then
readiness; `landed` is the condition that a course checks and does not wait for (R91, R187). The checks are made in every clock in
which the word stands next to issue, so a word that would wait faults at once (R188 says 'at issue' only; log 51). -/
def gate (k : Core) (clk : Nat) (c : Ctx) (fieldsOk : Bool) (take give knot : BitVec 4) (stamp : Option (BitVec 40))
    (check : Option (BitVec 8 × Word)) (ready landed : Bool) : Gate :=
  let gap := match stamp with
    | some st => stampGap st (strmOf k c.uid c.strm).stampoff clk
    | none => 0
  if !fieldsOk || !ownsQueue k c.uid take || !ownsQueue k c.uid give then .fault cOPERAND (pcEval c.pc)
  else if 2 ^ 39 ≤ gap then .fault cSCHEDMISS (pcEval c.pc)
  else if gap ≠ 0 then .wait
  else if !knotPass k knot then .skip
  else
    match check with
    | some (cause, eval) => .fault cause eval
    | none =>
      if !(ready && tokensReady k take give) then (if stamp.isSome then .fault cSCHEDMISS (pcEval c.pc) else .wait)
      else if landed then .pass
      else if c.bound then .viol
      else if stamp.isSome then .fault cSCHEDMISS (pcEval c.pc)
      else .wait

/-- What a word of an engine stream comes to in a clock: it issues, with its sequencer's occupancy and, for a control word,
the word number that follows; it is skipped; it waits; it breaks a schedule; it faults. -/
inductive SAct where
  | go (s : State) (occ : Nat) (tgt : Option (BitVec 14))
  | skipped
  | notReady
  | viol
  | fault (cause : BitVec 8) (eval : Word)

/-- The gate's answer, `f` being the effect of a word that passes. -/
def passGate (g : Gate) (f : SAct) : SAct :=
  match g with
  | .pass => f
  | .skip => .skipped
  | .wait => .notReady
  | .viol => .viol
  | .fault c e => .fault c e

/-! ## The throttle (R301, R302) -/

/-- stretch(h) of a running itinerary (R301). -/
def hopStretch (t : Itin) (h : Nat) : Nat :=
  let g := (nth t.gain h).getD 0
  let l := (nth t.lat h).getD (-32768)
  let th := (nth t.thresh h).getD 0
  if g ≠ 0 && l > th then min 4095 ((l - th).toNat * g) else 0

/-- The stretch a matrix word of a sub-array carries (R302). -/
def stretchOf (s : State) (core sub : Nat) : Nat :=
  s.itins.foldl (fun a e => (span 0 3).foldl (fun b h =>
    if (nth e.2.names h).join = some (core, sub) then max b (hopStretch e.2 h) else b) a) 0

/-! ## Sequencers of a unit (R82, R362) -/

/-- Whether the sequencer of a stream may issue in this clock: its unit in U mode and not ending, not held after a return nor
stopped for a pre-emption, and its previous word's occupancy over. -/
def mayIssue (s : State) (core slot n : Nat) : Bool :=
  let k := getCore s core
  let u := unitOf k slot
  u.live && u.mode = .u && u.ending.isNone && u.engineAt ≤ s.clk && (strmOf k u.uid n).issueAt ≤ s.clk
  && (!preempting s core slot || (strmOf k u.uid n).mode = .bound)

end Sys2Proof.Machine
end

