-- ==== Sys2Proof/Machine/Bonds.lean ====
section
/-! DEFINITION. Bricks, sub-arrays and bonds: FAB.BOND, FAB.BOND.NW, FAB.DRAIN and FAB.QUERY, and the forming and dissolving
of sub-arrays that dispatch, resumption and the end of a unit share (R167 to R181). -/
namespace Sys2Proof.Machine

/-! ## Bricks (R167 to R171) -/

/-- The member cores of a sub-array led by a core (R169). -/
def membersOf (core : Nat) : SubKind → List Nat
  | .loc => [core]
  | .tall => [core, core + 2]
  | .wide => [core, core + 1]
  | .square => [core, core + 1, core + 2, core + 3]

/-- Whether a core may lead a shape (R169). -/
def mayLead (core : Nat) : SubKind → Bool
  | .loc => true
  | .tall => core % 4 < 2
  | .wide => core % 2 == 0
  | .square => core % 4 == 0

/-- The bricks of a rectangle, brick 8 × row + column (R167, R168). -/
def rectBricks (row0 h col0 w : Nat) : List Nat :=
  (span row0 h).flatMap (fun r => (span col0 w).map (fun c => 8 * r + c))

/-- The bricks of this core that a sub-array of it takes (R167, R169). -/
def subBricks (b : Sub) : List Nat :=
  match b.kind with
  | .loc => rectBricks b.row0 b.h b.col0 b.w
  | _ => span 0 32

/-- The core of the same quad that a core lends its bricks to (R167, R171). -/
def lentTo (s : State) (core : Nat) : Option Nat :=
  (span (core / 4 * 4) 4).find? (fun c => c != core && (match subOf (getCore s c) 0 with
    | some b => b.kind != .loc && (membersOf c b.kind).contains core
    | none => false))

/-- The sub-array of a core that a brick belongs to. -/
def brickSub (k : Core) (b : Nat) : Option Nat := (k.subs.find? (fun e => (subBricks e.2).contains b)).map (·.1)

/-- Whether every brick of a list is free on a core, or part of a sub-array of `mask` that a unit holds (R174). -/
def bricksFree (s : State) (core uid : Nat) (mask : List Nat) (bs : List Nat) : Bool :=
  (lentTo s core).isNone && bs.all (fun b => match brickSub (getCore s core) b with
    | none => true
    | some n => mask.contains n && holds (getCore s core) uid n)

/-- HeldMask() (R174). -/
def heldMask (k : Core) (uid : Nat) : Nat := (span 0 8).foldl (fun a n => a + (if holds k uid n then 2 ^ n else 0)) 0

/-! ## Forming and dissolving (R174, R175, R183) -/

/-- A sub-array as it is formed: weights zero and the state of R183 at its reset values. -/
def newSub (uid slot : Nat) (kind : SubKind) (row0 h col0 w usable : Nat) : Sub :=
  { holder := uid, slot := slot, kind := kind, row0 := row0, h := h, col0 := col0, w := w, set0 := [], set1 := []
    actsel := false, afmt := 0xF, sfmt := 0xF, atag := [], stag := [], mcnt := 0, erow := 0, inv := [], win := []
    age := 127, touched := [], replayTo := 0, acc := [], loadFree := 0, arrayFree := 0, drainFree := 0, nextId := 0, flights := [], usable := usable }

/-- Brick-rows and brick-columns of a cross-core shape (R169). -/
def shapeDims : SubKind → Nat × Nat
  | .loc => (4, 8) | .tall => (8, 8) | .wide => (4, 16) | .square => (8, 16)

/-- The core without sub-array `n`; its stream, if FAULTED, becomes IDLE and keeps CAUSE, and a cause it has pending for its
unit is withdrawn (R174, R362); its MCNT is frozen (R302). -/
def dissolve (k : Core) (n : Nat) : Core :=
  match subOf k n with
  | none => k
  | some b =>
    let m := matOf k n
    { withMat k n { m with mode := if m.mode = .faulted then .idle else m.mode } with
      subs := mapErase k.subs n
      frozen := mapSet k.frozen n b.mcnt
      units := k.units.map (fun e => if e.2.uid = b.holder then
        (e.1, { e.2 with pending := e.2.pending.filter (fun p => p.stream != n) }) else e) }

/-- The granules of both weight sets of a sub-array (R378). -/
def brickDirt (n h w : Nat) : List (Nat × Nat) :=
  (span 0 2).flatMap (fun z => (span 0 h).flatMap (fun r => (span 0 w).map (fun c => (14, (2 * n + z) * 128 + 16 * r + c))))

/-- The core with sub-array `n` formed, its weights cleared (R174, R183). -/
def formSub (k : Core) (n : Nat) (b : Sub) : Core :=
  { k with subs := mapSet k.subs n b, dirty := addDirties k.dirty (brickDirt n b.h b.w) }

/-- The core with the sub-arrays of a list that a unit holds dissolved. -/
def dissolveHeld (k : Core) (uid : Nat) : List Nat → Core
  | [] => k
  | n :: ns => dissolveHeld (if holds k uid n then dissolve k n else k) uid ns

/-! ## The bond record (R172, R173) -/

/-- ENTRYk of a bond record (R172). -/
def bondEntry (r : List Byte) (n : Nat) : Nat := fieldNat r (16 + 2 * n) 2

/-- Whether an entry is VALID, and its rectangle: ROW0, h, COL0, w (R172). -/
def entryValid (e : Nat) : Bool := e / 32768 % 2 == 1
def entryRow (e : Nat) : Nat := e / 8192 % 4
def entryH (e : Nat) : Nat := e / 2048 % 4 + 1
def entryCol (e : Nat) : Nat := e / 256 % 8
def entryW (e : Nat) : Nat := e / 32 % 8 + 1
def entryBricks (e : Nat) : List Nat := rectBricks (entryRow e) (entryH e) (entryCol e) (entryW e)

/-- The sub-arrays MASK names (R172). -/
def bondMask (r : List Byte) : List Nat := (span 0 8).filter (fun n => fieldNat r 1 1 / 2 ^ n % 2 == 1)

/-- The VALID entries of a record. -/
def bondValid (r : List Byte) : List Nat := (span 0 8).filter (fun n => entryValid (bondEntry r n))

/-- The shape KIND asks for (R172). -/
def bondKind (r : List Byte) : SubKind :=
  match fieldNat r 0 1 with
  | 0 => .loc | 1 => .tall | 2 => .wide | _ => .square

/-- Whether two lists of bricks share one. -/
def bricksMeet (a b : List Nat) : Bool := a.any (fun x => b.contains x)

/-- The conditions on the entries of a KIND 0 record (R172, R173). -/
def localEntriesOk (k : Core) (uid : Nat) (r : List Byte) : Bool :=
  let mask := bondMask r
  let valid := bondValid r
  fieldNat r 1 1 != 0
  && (span 0 8).all (fun n => bondEntry r n % 32 == 0)
  && valid.all (fun n => mask.contains n && entryRow (bondEntry r n) + entryH (bondEntry r n) ≤ 4
      && entryCol (bondEntry r n) + entryW (bondEntry r n) ≤ 8)
  && valid.all (fun n => valid.all (fun m => n == m || !bricksMeet (entryBricks (bondEntry r n)) (entryBricks (bondEntry r m))))
  && valid.all (fun n => k.subs.all (fun e => e.2.holder != uid || mask.contains e.1
      || !bricksMeet (entryBricks (bondEntry r n)) (subBricks e.2)))

/-- The conditions on a record of KIND 1 to 3 (R172, R173). -/
def crossOk (k : Core) (core uid : Nat) (r : List Byte) : Bool :=
  fieldNat r 1 1 == 1 && fieldNat r 16 16 == 0 && mayLead core (bondKind r)
  && k.subs.all (fun e => e.2.holder != uid || e.1 == 0)

/-- Whether a bond record keeps R172 and R173 for a unit. -/
def bondOk (k : Core) (core uid : Nat) (r : List Byte) : Bool :=
  fieldNat r 0 1 < 4 && fieldNat r 2 1 < 16 && fieldNat r 3 13 == 0
  && (if fieldNat r 0 1 = 0 then localEntriesOk k uid r else crossOk k core uid r)

/-! ## FAB.BOND (R173 to R177) -/

/-- Whether a sub-array replays, or is about to: it has consumed uncorrectable data that is not answered yet, or issues its words again
(R203, R370). -/
def subReplays (k : Core) (clk n : Nat) : Bool :=
  k.upset.any (fun e => e.sub == n) || (match subOf k n with
    | some b => clk < b.replayTo
    | none => false)

/-- STREAMS for one sub-array: its stream IDLE or FAULTED, no replay in progress and none of its words unfinished (R174, R176). -/
def streamRests (k : Core) (clk n : Nat) : Bool :=
  ((matOf k n).mode = .idle || (matOf k n).mode = .faulted) && !subReplays k clk n
  && (match subOf k n with
      | some b => b.flights.isEmpty
      | none => true)

/-- The reason bits rs of R174: BRICKS, STREAMS, ACC as bits 0, 1, 2. -/
def bondReasons (s : State) (core uid : Nat) (r : List Byte) : Nat :=
  let k := getCore s core
  let mask := bondMask r
  let streams := mask.all (fun n => !holds k uid n || streamRests k s.clk n)
  let acc := k.tiles.all (fun e => !(e.2.valid && e.2.acc && e.2.p1 != 0 && mask.contains e.2.sub.toNat))
  let numbers := mask.all (fun n => (subOf k n).isNone || holds k uid n)
  let bricks := if fieldNat r 0 1 = 0 then
      ((bondValid r).flatMap (fun n => entryBricks (bondEntry r n))).isEmpty
        || bricksFree s core uid mask ((bondValid r).flatMap (fun n => entryBricks (bondEntry r n)))
    else (membersOf core (bondKind r)).all (fun c =>
      if c = core then bricksFree s core uid mask (span 0 32)
      else (getCore s c).subs.isEmpty && (match lentTo s c with
        | none => true
        | some l => l == core && holds k uid 0))
  (if numbers && bricks then 0 else 1) + (if streams then 0 else 2) + (if acc then 0 else 4)

/-- The core with a bond installed for a unit (R174). -/
def installBond (k : Core) (uid slot clk : Nat) (r : List Byte) : Core :=
  let k1 := dissolveHeld k uid (bondMask r)
  if fieldNat r 0 1 = 0 then
    (bondValid r).foldl (fun c n =>
      let e := bondEntry r n
      formSub c n (newSub uid slot .loc (entryRow e) (entryH e) (entryCol e) (entryW e) (clk + 12))) k1
  else
    let d := shapeDims (bondKind r)
    formSub k1 0 (newSub uid slot (bondKind r) 0 d.1 0 d.2 (clk + 40))

/-- The clocks after which FAB.BOND's result is usable (R175). -/
def bondClocks (r : List Byte) : Nat := if fieldNat r 0 1 = 0 then 12 else 40

/-- What FAB.BOND does once its record is read and checked (R174). The status BOND_BUSY is usable one clock on, for which no rule states a
figure (R140, R175; the model's choice, log 62). -/
def bondInstall (nw : Bool) (rd : BitVec 5) (r : List Byte) (t : State) : Act :=
  let u := getUnit t
  let rs := bondReasons t t.focus.core u.uid r
  if rs = 0 then
    let k := installBond (curCore t) u.uid t.focus.slot t.clk r
    let t1 := setCur t (withUnit k t.focus.slot { unitOf k t.focus.slot with bond := [] })
    .done (regWriteAfter (marksChanged t1) rd (BitVec.ofNat 64 (heldMask k u.uid)) (bondClocks r))
  else if nw || 4 ≤ rs then
    .done (regWriteAfter (setUnit t { u with bond := [] }) rd
      (BitVec.ofNat 64 (0x0A * 2 ^ 56 + rs * 2 ^ 48 + heldMask (curCore t) u.uid)) 1)
  else .waitIn (setUnit t { u with bond := r })

/-- What FAB.BOND and FAB.BOND.NW do when they issue or are tried again: the record is read once every earlier access of
the unit has been performed and no FENCE holds it (R173); a wait keeps the record it read (R174); a record on a poisoned line raises UNCORR (R367; log 50). The read
takes a request slot (R244); a record on an inlet page, of which the spec says nothing, reads as memory does there, zero (log 51). -/
def bondBody (nw : Bool) (rd ra : BitVec 5) (t : State) : Act :=
  let va := regRead t ra
  let u := getUnit t
  if !u.bond.isEmpty then bondInstall nw rd u.bond t
  else if (curCore t).accs.any (fun a => a.uid == u.uid) || (openFences (curCore t) u).any (fun f => f.after != 0) || walkHeld t va then .hold
  else if va.toNat % 32 ≠ 0 then .trap cALIGN va
  else
    match translate t va .read with
    | (.fail c, _) => .trap c va
    | (.ok pa _, t') =>
      let r := recordBytes t' pa 32
      if !homeOk t' pa then .hold
      else if !linesFor (curCore t') t'.focus.slot 1 then .lack (reqScalar t'.focus.slot)
      else if poisoned t' pa 32 then .trap cUNCORR va
      else if bondOk (curCore t') t'.focus.core u.uid r then bondInstall nw rd r (useLines t' 1 (homePkg pa)) else .trap cOPERAND 0

/-- FAB.BOND (R173, R174). -/
def execFabBond (rd ra : BitVec 5) (s : State) : Host.Outcome State Fault Refusal :=
  scalarWord (.fabBond rd ra) (bondBody false rd ra) s

/-- FAB.BOND.NW (R173, R174). -/
def execFabBondNw (rd ra : BitVec 5) (s : State) : Host.Outcome State Fault Refusal :=
  scalarWord (.fabBondNw rd ra) (bondBody true rd ra) s

/-! ## FAB.DRAIN and FAB.QUERY (R178, R179) -/

/-- What FAB.DRAIN does when it issues or is tried again (R178). -/
def drainBody (ra : BitVec 5) (t : State) : Act :=
  let a := regRead t ra
  let k := curCore t
  let u := getUnit t
  let mask : BitVec 9 := BitVec.ofNat 9 (wbits a 0 8)
  let stop := wbits a 8 1 == 1
  if !zeroAbove a 9 || !maskOk k u.uid (BitVec.ofNat 64 (wbits a 0 8)) then .trap cOPERAND 0
  else if stop && launched k u && (u.group &&& mask) != 0 then .trap cOPERAND 0
  else
    let t' := if stop then stopStreams t (maskStreams mask) else t
    if (maskStreams mask).all (streamRests (curCore t') t'.clk) then .done t' else .waitIn t'

/-- FAB.DRAIN (R178). -/
def execFabDrain (ra : BitVec 5) (s : State) : Host.Outcome State Fault Refusal :=
  scalarWord (.fabDrain ra) (drainBody ra) s

/-- The code of one brick in FAB.QUERY (R179). -/
def brickCode (s : State) (core b : Nat) : Nat :=
  if (lentTo s core).isSome then 8
  else match brickSub (getCore s core) b with
    | none => 15
    | some n => if (subOf (getCore s core) n).any (fun x => x.kind != .loc) then 9 else n

/-- The code of a shape in FAB.QUERY (R179). -/
def kindCode : SubKind → Nat
  | .loc => 0 | .tall => 1 | .wide => 2 | .square => 3

/-- ENTRY of a sub-array (R179). -/
def subEntry (b : Sub) : Nat :=
  match b.kind with
  | .loc => 32768 + b.row0 * 8192 + (b.h - 1) * 2048 + b.col0 * 256 + (b.w - 1) * 32
  | _ => 0x98E0

/-- FAB.QUERY with QSEL 2 (R179). -/
def querySub (k : Core) (n : Nat) : Word :=
  match subOf k n with
  | none => 0
  | some b => BitVec.ofNat 64 (2 ^ 63 + b.slot * 2 ^ 61 + kindCode b.kind * 2 ^ 59 + (8 * b.h - 1) * 2 ^ 40
      + (b.w - 1) * 2 ^ 36 + subEntry b * 2 ^ 16)

/-- FAB.QUERY (R179). -/
def execFabQuery (rd ra : BitVec 5) (s : State) : Host.Outcome State Fault Refusal :=
  scalarWord (.fabQuery rd ra) (fun t =>
    let a := regRead t ra
    let q := wbits a 0 2
    if q = 3 || wbits a 2 2 != 0 || !zeroAbove a 7 then .trap cOPERAND 0
    else if q = 2 then .done (regWriteAfter t rd (querySub (curCore t) (wbits a 4 3)) 1)
    else .done (regWriteAfter t rd (BitVec.ofNat 64
      ((span 0 16).foldl (fun acc i => acc + brickCode t t.focus.core (16 * q + i) * 16 ^ i) 0)) 1)) s

end Sys2Proof.Machine
end

