-- ==== Sys2Proof/Machine/Specials.lean ====
section
/-! DEFINITION. The special functions of R213, correctly rounded: an enclosure of the exact result by integers at a
scale of 2^p is rounded at both ends, at growing p until the ends agree (log 14). -/
namespace Sys2Proof.Machine

/-- An enclosure at scale 2^p: the exact value times 2^p lies between `lo` and `hi`. -/
structure Ivl where
  lo : Int
  hi : Int
  deriving DecidableEq, Repr

/-- Quotient rounded towards plus infinity, for a positive divisor. -/
def ceilQ (a : Int) (d : Nat) : Int := -((-a) / (d : Int))

/-- The enclosure of a rational. -/
def iRat (p : Nat) (n : Int) (d : Nat) : Ivl := { lo := n * 2 ^ p / d, hi := ceilQ (n * 2 ^ p) d }

def iAdd (x y : Ivl) : Ivl := { lo := x.lo + y.lo, hi := x.hi + y.hi }
def iNeg (x : Ivl) : Ivl := { lo := -x.hi, hi := -x.lo }
def iSub (x y : Ivl) : Ivl := iAdd x (iNeg y)

/-- The product of two enclosures. -/
def iMul (p : Nat) (x y : Ivl) : Ivl :=
  let a := x.lo * y.lo
  let b := x.lo * y.hi
  let c := x.hi * y.lo
  let d := x.hi * y.hi
  { lo := min (min a b) (min c d) / 2 ^ p, hi := ceilQ (max (max a b) (max c d)) (2 ^ p) }

/-- An enclosure divided by a positive integer. -/
def iDivN (x : Ivl) (d : Nat) : Ivl := { lo := x.lo / d, hi := ceilQ x.hi d }

/-- The quotient of two enclosures, the divisor's above zero. -/
def iDiv (p : Nat) (x y : Ivl) : Ivl :=
  let yl := y.lo.toNat
  let yh := y.hi.toNat
  { lo := if 0 ≤ x.lo then x.lo * 2 ^ p / (yh : Int) else x.lo * 2 ^ p / (yl : Int)
    hi := if 0 ≤ x.hi then ceilQ (x.hi * 2 ^ p) yl else ceilQ (x.hi * 2 ^ p) yh }

/-- An enclosure widened by `e` units at each end. -/
def iWiden (x : Ivl) (e : Int) : Ivl := { lo := x.lo - e, hi := x.hi + e }

/-- The partial sum of the exponential series: terms k to k + n of r^j / j!, the k-th being `term`. -/
def expSum (p : Nat) (r term : Ivl) (k : Nat) : Nat → Ivl
  | 0 => term
  | n + 1 => iAdd term (expSum p r (iDivN (iMul p term r) (k + 1)) (k + 1) n)

/-- e^r for |r| at most 1; the remainder of the series is below two units. -/
def iExp (p : Nat) (r : Ivl) : Ivl := iWiden (expSum p r { lo := 2 ^ p, hi := 2 ^ p } 0 (p / 4 + 20)) 2

/-- The partial sum of z + z^3/3 + z^5/5 + …, `pow` being z^(2k+1) and `z2` being z^2. -/
def athSum (p : Nat) (z2 pow : Ivl) (k : Nat) : Nat → Ivl
  | 0 => iDivN pow (2 * k + 1)
  | n + 1 => iAdd (iDivN pow (2 * k + 1)) (athSum p z2 (iMul p pow z2) (k + 1) n)

/-- artanh z for z from 0 to 1/3. -/
def iAtanh (p : Nat) (z : Ivl) : Ivl := iWiden (athSum p (iMul p z z) z 0 (p / 3 + 10)) 2

/-- ln 2. -/
def iLn2 (p : Nat) : Ivl := iAdd (iAtanh p (iRat p 1 3)) (iAtanh p (iRat p 1 3))

/-- The alternating sum 1/q − 1/(3 q^3) + …, `pow` being q^(2k+1). -/
def atanSum (p q pow k : Nat) : Nat → Ivl
  | 0 => iRat p 1 ((2 * k + 1) * pow)
  | n + 1 => iSub (iRat p 1 ((2 * k + 1) * pow)) (atanSum p q (pow * q * q) (k + 1) n)

/-- Pi by Machin's formula. -/
def iPi (p : Nat) : Ivl :=
  let a := iWiden (atanSum p 5 5 0 (p / 4 + 10)) 2
  let b := iWiden (atanSum p 239 239 0 (p / 4 + 10)) 2
  iSub (iMul p (iRat p 16 1) a) (iMul p (iRat p 4 1) b)

/-- The partial sum of the sine or cosine series from the term of degree `d`, for |t| at most 1.6. -/
def trigSum (p : Nat) (t2 term : Ivl) (d : Nat) : Nat → Ivl
  | 0 => term
  | n + 1 => iSub term (trigSum p t2 (iDivN (iMul p term t2) ((d + 1) * (d + 2))) (d + 2) n)

/-- sin t for t from 0 to 1.6. -/
def iSin (p : Nat) (t : Ivl) : Ivl := iWiden (trigSum p (iMul p t t) t 1 (p / 8 + 20)) 2

/-- cos t for t from 0 to 1.6. -/
def iCos (p : Nat) (t : Ivl) : Ivl :=
  iWiden (trigSum p (iMul p t t) { lo := 2 ^ p, hi := 2 ^ p } 0 (p / 8 + 20)) 2

/-- The greatest r below 2^n above `r` with r^2 ≤ v, found bit by bit. -/
def isqrtFrom (v r : Nat) : Nat → Nat
  | 0 => r
  | n + 1 => if (r + 2 ^ n) * (r + 2 ^ n) ≤ v then isqrtFrom v (r + 2 ^ n) n else isqrtFrom v r n

/-- Integer square root. -/
def isqrt (v : Nat) : Nat := isqrtFrom v 0 (Nat.log2 v / 2 + 1)

/-- A finite value with a sign. -/
def sgnVal (neg : Bool) (n d : Nat) : XVal := .fin neg n d

/-- The value an enclosure gives when both ends round alike, at a scale of 2^p. -/
def settled (f : Fmt) (m : BitVec 2) (sat : Bool) (p : Nat) (v : Ivl) : Option Nat :=
  let l := roundFloat f m sat (sgnVal (v.lo < 0) v.lo.natAbs (2 ^ p))
  let h := roundFloat f m sat (sgnVal (v.hi < 0) v.hi.natAbs (2 ^ p))
  if l = h && v.lo != 0 && v.hi != 0 then some l else none

/-- The rounding at the first precision that decides, of `p` and the `n` that come of doubling it; at the last one the lower end's
(log 14). -/
def decideFrom (f : Fmt) (m : BitVec 2) (sat : Bool) (g : Nat → Ivl) : Nat → Nat → Nat
  | 0, p => roundFloat f m sat (sgnVal ((g p).lo < 0) (g p).lo.natAbs (2 ^ p))
  | n + 1, p =>
    match settled f m sat p (g p) with
    | some v => v
    | none => decideFrom f m sat g n (2 * p)

/-- What a special function gives: an exact value, or an enclosure to round. -/
inductive SVal where
  | exact (x : XVal)
  | near (g : Nat → Ivl)

/-- A positive value below every format's half least subnormal, standing for any result in that range. -/
def tiny : XVal := .fin false 1 (2 ^ 1000)
/-- A value above every format's range, standing for any result there. -/
def huge : XVal := .fin false (2 ^ 1000) 1
/-- A value just below 1, standing for any result between 1 - 2^-200 and 1. -/
def belowOne (neg : Bool) : XVal := .fin neg (2 ^ 1000 - 1) (2 ^ 1000)

/-- 2^x for a rational x = (-1)^neg n/d within ±400. -/
def exp2Near (neg : Bool) (n d p : Nat) : Ivl :=
  let x : Int := if neg then -(n : Int) else n
  let k := x / d
  let frac : Int := x - k * d
  let e := iExp p (iMul p (iRat p frac d) (iLn2 p))
  if 0 ≤ k then { lo := e.lo * 2 ^ k.toNat, hi := e.hi * 2 ^ k.toNat } else iDivN e (2 ^ (-k).toNat)

/-- e^(-x) for a rational x = n/d from 0 to 400. -/
def expNegNear (n d p : Nat) : Ivl :=
  let k := n / d
  let e1 := iExp p (iRat p (-((n % d : Nat) : Int)) d)
  let e := iExp p (iRat p (-1) 1)
  let rec go : Nat → Ivl
    | 0 => e1
    | j + 1 => iMul p (go j) e
  go k

/-- log2 of a positive rational n/d: the exponent, and ln of the rest over ln 2. -/
def log2Near (n d p : Nat) : Ivl :=
  let e := floorLog2 n d
  let n' := if 0 ≤ e then n else n * 2 ^ (-e).toNat
  let d' := if 0 ≤ e then d * 2 ^ e.toNat else d
  let z := iRat p ((n' : Int) - d') (n' + d')
  let a := iAtanh p z
  iAdd (iRat p e 1) (iDiv p (iAdd a a) (iLn2 p))

/-- sin of π times r = n/d for r from 0 to 1/2, and the cosine. -/
def sinNear (n d p : Nat) : Ivl := iSin p (iMul p (iPi p) (iRat p n d))
def cosNear (n d p : Nat) : Ivl := iCos p (iMul p (iPi p) (iRat p n d))

/-- sin(π n/d) for a rational from 0 to 2 (exclusive): its sign and the argument from 0 to 1/2, or an exact value. -/
def sinReduced (n d : Nat) : SVal :=
  let neg := n ≥ d
  let a := n % d
  let b := if 2 * a > d then d - a else a
  if b = 0 then .exact (.fin false 0 1)
  else if 2 * b = d then .exact (.fin neg 1 1)
  else .near (fun p => if neg then iNeg (sinNear b d p) else sinNear b d p)

/-- Special function results for a finite, non-zero operand (R213). -/
def specialFinite (op : VOp) (neg : Bool) (n d : Nat) : SVal :=
  match op with
  | .rcp => .exact (.fin neg d n)
  | .rsq =>
    if neg then .exact .nan
    else
      let r := isqrt (n * d)
      if r * r = n * d then .exact (.fin false d r)
      else .near (fun p =>
        let v := isqrt (d * 2 ^ (2 * p + 2 * (Nat.log2 n)) / n)
        iDivN { lo := v, hi := v + 1 } (2 ^ Nat.log2 n))
  | .exp2 =>
    if n % d = 0 then
      (if n / d > 400 then .exact (if neg then tiny else huge)
       else .exact (if neg then .fin false 1 (2 ^ (n / d)) else .fin false (2 ^ (n / d)) 1))
    else if n > 400 * d then .exact (if neg then tiny else huge)
    else .near (exp2Near neg n d)
  | .log2 =>
    if neg then .exact .nan
    else
      let e := floorLog2 n d
      if (if 0 ≤ e then n == d * 2 ^ e.toNat else n * 2 ^ (-e).toNat == d) then .exact (xint e)
      else .near (log2Near n d)
  | .tanh =>
    if n > 200 * d then .exact (belowOne neg)
    else .near (fun p =>
      let e := expNegNear (2 * n) d p
      let one : Ivl := { lo := 2 ^ p, hi := 2 ^ p }
      let v := iDiv p (iSub one e) (iAdd one e)
      if neg then iNeg v else v)
  | .sigm =>
    if n > 200 * d then .exact (if neg then tiny else belowOne false)
    else .near (fun p =>
      let e := expNegNear n d p
      let one : Ivl := { lo := 2 ^ p, hi := 2 ^ p }
      if neg then iDiv p e (iAdd one e) else iDiv p one (iAdd one e))
  | .sinpi =>
    match sinReduced (n % (2 * d)) d with
    | .exact (.fin _ 0 b) => .exact (.fin neg 0 b)
    | .exact (.fin q a b) => .exact (.fin (q != neg) a b)
    | .exact x => .exact x
    | .near g => .near (fun p => if neg then iNeg (g p) else g p)
  | _ =>
    -- cos(π x) = sin(π (x + 1/2))
    match sinReduced ((2 * n + d) % (4 * d)) (2 * d) with
    | .near g =>
      let a := n % (2 * d)
      let c := if a > d then 2 * d - a else a
      if 4 * c ≤ d then .near (fun p => cosNear c d p) else .near g
    | x => x

/-- f(A) for the operands the table of R213 lists: NaN, infinities and zeros. -/
def specialEdge (op : VOp) (x : XVal) : XVal :=
  match op, x with
  | _, .nan => .nan
  | .rcp, .inf s => .fin s 0 1
  | .rcp, .fin s _ _ => .inf s
  | .rsq, .inf s => if s then .nan else .fin false 0 1
  | .rsq, .fin s _ _ => .inf s
  | .exp2, .inf s => if s then .fin false 0 1 else .inf false
  | .exp2, .fin _ _ _ => .fin false 1 1
  | .log2, .inf s => if s then .nan else .inf false
  | .log2, .fin _ _ _ => .inf true
  | .tanh, .inf s => .fin s 1 1
  | .tanh, .fin s _ _ => .fin s 0 1
  | .sigm, .inf s => if s then .fin false 0 1 else .fin false 1 1
  | .sigm, .fin _ _ _ => .fin false 1 2
  | .sinpi, .inf _ => .nan
  | .sinpi, .fin s _ _ => .fin s 0 1
  | _, .inf _ => .nan
  | _, .fin _ _ _ => .fin false 1 1

/-- A special function of a value, rounded once in a format (R213). -/
def special (op : VOp) (f : Fmt) (m : BitVec 2) (sat : Bool) (x : XVal) : Nat :=
  match x with
  | .fin neg n d =>
    if n = 0 then roundFloat f m sat (specialEdge op x)
    else
      match specialFinite op neg n d with
      | .exact v => roundFloat f m sat v
      | .near g => decideFrom f m sat g 64 80
  | _ => roundFloat f m sat (specialEdge op x)

/-- Act of R196 on an F32 value: 0 none, 1 RELU, 2 SILU, 3 GELU, 4 SIGM, 5 TANH. -/
def activation (act : Nat) (bits : Nat) : Nat :=
  let x := floatVal .f32 bits
  match act with
  | 1 => if isNan x then canonNan .f32 else if xlt (.fin false 0 1) x then bits else 0
  | 2 => roundFloat .f32 0 false (xmul x (floatVal .f32 (special .sigm .f32 0 false x)))
  | 3 =>
    let g1 := floatVal .f32 0x3F4C422A
    let g2 := floatVal .f32 0x3D122279
    let y := roundFloat .f32 0 false (xadd 0 (xmul g1 x) (xmul g2 (xmul x (xmul x x))))
    let t := floatVal .f32 (special .tanh .f32 0 false (floatVal .f32 y))
    roundFloat .f32 0 false (xmul (.fin false 1 2) (xmul x (xadd 0 (xint 1) t)))
  | 4 => special .sigm .f32 0 false x
  | 5 => special .tanh .f32 0 false x
  | _ => bits

end Sys2Proof.Machine
end

