-- ==== Sys2Proof/Machine/Vector.lean ====
section
/-! DEFINITION. The vector pipes: operands, the issue of a vector word, what each word computes row by row, and the landing
of rows (R63, R90 to R93, R103, R204 to R230). -/
namespace Sys2Proof.Machine

/-! ## Rows and elements (R62, R204) -/

/-- Element `j` of `n` bits of a row. -/
def rowElem (n : Nat) (r : Row) (j : Nat) : Nat := r.toNat / 2 ^ (n * j) % 2 ^ n

/-- The sum of elements `f 0` to `f (c - 1)` of `n` bits in their places. -/
def packElems (n : Nat) (f : Nat → Nat) : Nat → Nat
  | 0 => 0
  | c + 1 => packElems n f c + f c % 2 ^ n * 2 ^ (n * c)

/-- A row whose first `c` elements of `n` bits are `f`, the rest kept from `old` (R204). -/
def withElems (n c : Nat) (f : Nat → Nat) (old : Row) : Row :=
  BitVec.ofNat 1024 (packElems n f c + old.toNat / 2 ^ (n * c) * 2 ^ (n * c))

/-- A row with some lanes from a new value and the others from the old one (R204). -/
def mergeLanes (lanes : BitVec 32) (new old : Row) : Row :=
  BitVec.ofNat 1024 (packElems 32 (fun j => if lanes.getLsbD j then rowElem 32 new j else rowElem 32 old j) 32)

/-- E of R204: the active elements of a type. -/
def activeElems (t : Fmt) (lanes : Nat) : Nat := 32 * lanes / fmtBits t

/-- The row of a core by its number: 0 to 2047 the main file, 2048 to 2063 the operand file, 2064 the latch. -/
def vrow (k : Core) (key : Nat) : Row := mapGet 0 k.vrows key

/-- A row as it stood in a clock: its value before the first landing after that clock (R91, R207). -/
def vrowAt (k : Core) (key clk : Nat) : Row :=
  match k.rowLog.find? (fun e => e.2.1 == key && e.1 > clk) with
  | some e => e.2.2
  | none => vrow k key

/-- The core with a row landed at a clock; values overwritten in the last 300 clocks are kept. -/
def landRow (k : Core) (key clk : Nat) (v : Row) : Core :=
  { k with
    dirty := if key < 2048 then addDirty k.dirty (9, key / 16) else k.dirty
    badRows := k.badRows.filter (· != key)
    vrows := if v = 0 then mapErase k.vrows key else mapSet k.vrows key v
    rowLog := k.rowLog.filter (fun e => e.1 + 300 > clk) ++ [(clk, key, vrow k key)] }

/-! ## Operands (R36, R143, R207, R230) -/

/-- A vector word as the pipes take it: operation, type, VCVT's source format, fields, and for VLDT and VSTT the tile
fields of R227. -/
structure VIn where
  op : VOp
  typ : BitVec 4
  src : BitVec 4
  dst : BitVec 16
  a : BitVec 16
  b : BitVec 16
  c : BitVec 16
  rnd : BitVec 2
  sat : Bool
  knot : BitVec 4
  take : BitVec 4
  give : BitVec 4
  course : Bool
  handle : BitVec 12
  trow : BitVec 12
  tseg : BitVec 7
  tstr : BitVec 3
  deriving DecidableEq, Repr

/-- The pipes' view of an ordinary word (R35). -/
def vinOf (op : VOp) (src : BitVec 4) (w : VWord) : VIn :=
  { op := op, typ := w.typ, src := src, dst := w.dst, a := w.a, b := w.b, c := w.c, rnd := w.rnd, sat := w.sat
    knot := w.kpred, take := w.take, give := w.give, course := w.course, handle := 0, trow := 0, tseg := 0, tstr := 0 }

/-- The pipes' view of VLDT or VSTT (R227). -/
def vinTile (op : VOp) (w : VTile) : VIn :=
  { op := op, typ := w.typ, src := 0, dst := if op = .ldt then w.row else 0, a := if op = .ldt then 0 else w.row, b := 0
    c := 0, rnd := 0, sat := false, knot := w.kpred, take := w.take, give := w.give, course := w.course
    handle := w.handle, trow := w.trow, tseg := w.tseg, tstr := w.tstr }

/-- The pipes' view of VKNOT.ANY, VKNOT.ALL and VNOP (R100, R103). -/
def vinCtl (op : VOp) (a : BitVec 16) (knot take give : BitVec 4) (course : Bool) : VIn :=
  { op := op, typ := 0, src := 0, dst := 0, a := a, b := 0, c := 0, rnd := 0, sat := false, knot := knot, take := take
    give := give, course := course, handle := 0, trow := 0, tseg := 0, tstr := 0 }

/-- TYPE as a format. -/
def vinFmt (v : VIn) : Fmt := (fmtOfCode v.typ).getD .f32

/-- The base index of an operand at a REP step (R113, R230). -/
def stepBase (f : BitVec 16) (step : Nat) : Int :=
  if opLevel f = 1 || opLevel f = 2 then (opIndex f : Int) + (step : Int) * strideRows (opStride f) else opIndex f

/-- An operand field resolved at issue for the vector stream of a unit (R36, R111, R143). -/
def opndOf (u : Unit) (f : BitVec 16) (step rotb : Nat) : Opnd :=
  { level := opLevel f, base := (stepBase f step).toNat, shift := if opLevel f = 1 then rotb else if opLevel f = 2 then u.vbase else 0 }

/-- Whether every row an operand covers lies in its file (R36). -/
def opndFits (u : Unit) (f : BitVec 16) (step rows : Nat) : Bool :=
  match opLevel f with
  | 1 => 0 ≤ stepBase f step && stepBase f step + rows ≤ 16
  | 2 => 0 ≤ stepBase f step && stepBase f step + rows ≤ u.vlen
  | _ => true

/-- The row an operand's row `i` is; none for a constant (R207). -/
def rowKey (o : Opnd) (i : Nat) : Option Nat :=
  match o.level with
  | 0 => some 2064
  | 1 => some (2048 + (o.base + o.shift + i) % 16)
  | 2 => some (o.shift + o.base + i)
  | _ => none

/-- Whether an operation writes rows of the files. -/
def vopWrites : VOp → Bool
  | .stt | .knotAny | .knotAll | .nop => false
  | _ => true

/-- Whether an operation reads SRCA. -/
def vopUsesA : VOp → Bool
  | .ldt | .nop => false
  | _ => true

/-- Rows of the destination (R209, R221); VSTT and VKNOT count the rows they deposit, or one result. -/
def destRows (op : VOp) (rows : Nat) : Nat :=
  match op with
  | .csum | .knotAny | .knotAll => 1
  | .nop => 0
  | _ => rows

/-- Rows of each source a word reads (R207, R222). -/
def readRows (op : VOp) (rows : Nat) : Nat :=
  match op with
  | .bcastRow0 => 1
  | _ => rows

/-- The clocks after issue at which row `j` of the destination lands (R91, R221, R223), a tile row is deposited (R92), or a
VKNOT has read its last row (R97, R103). -/
def landOff (op : VOp) (rows j : Nat) : Nat :=
  match op with
  | .knotAny | .knotAll => rows - 1
  | .csum | .trn => vclassLatency (vopClass op) + rows - 1 + j
  | _ => vclassLatency (vopClass op) + j

/-! ## Checks at issue (R36, R207, R223, R225, R227) -/

/-- Whether a word's own fields are right for its operation (R36, R38, R209). -/
def vinFieldsOk (v : VIn) : Bool :=
  match v.op with
  | .ldt => (fmtOfCode v.typ).isSome && dstFieldOk v.dst
  | .stt => (fmtOfCode v.typ).isSome && valueSrcOk (vinFmt v) v.a
  | .knotAny | .knotAll => srcFieldOk v.a
  | .nop => true
  | _ => vecFieldsOk v.op (if v.op = .cvt then fmtOfCode v.src else none)
      { typ := v.typ, dst := v.dst, a := v.a, b := v.b, c := v.c, kpred := v.knot, take := v.take, give := v.give
        rnd := v.rnd, sat := v.sat, course := v.course } && (v.op != .cvt || (fmtOfCode v.src).isSome)

/-- The keys of an operand's first `n` rows. -/
def opndKeys (o : Opnd) (n : Nat) : List Nat := (span 0 n).filterMap (rowKey o)

/-- Whether a word keeps the limits that depend on VSHAPE, its REP step and the window (R36, R207, R223, R225): a destination at level 1
or 2 covers ROWS rows, that of VCSUM too. The latch takes a word's
result where that is one row: where ROWS is 1, and from VCSUM, which writes one row whatever ROWS is (log 51). -/
def vinShapeOk (u : Unit) (vec : Vec) (v : VIn) (step rotb : Nat) : Bool :=
  let r := vec.rows
  let e := activeElems (vinFmt v) vec.lanes
  (!vopUsesA v.op || opndFits u v.a step r)
  && (!vopUsesB v.op || opndFits u v.b step r)
  && (!vopUsesC v.op || opndFits u v.c step r)
  && (!vopWrites v.op || opndFits u v.dst step r)
  && (!vopWrites v.op || opLevel v.dst != 0 || destRows v.op r == 1)
  && (match v.op with
      | .trn => r ≤ e && !bricksMeet (opndKeys (opndOf u v.a step rotb) r) (opndKeys (opndOf u v.dst step rotb) r)
      | .packCat | .packZip | .unpkLo | .unpkHi | .unpkEven | .unpkOdd => e % 2 == 0
      | _ => true)

/-- The first tile row of a VLDT or VSTT at a REP step (R230). -/
def tileRowAt (v : VIn) (step : Nat) : Int := (v.trow.toNat : Int) + (step : Int) * strideRows v.tstr.toNat

/-- Whether a VLDT or VSTT raises TILE (R146, R227). -/
def tileBad (k : Core) (uid : Nat) (v : VIn) (step : Nat) : Bool :=
  let t := tileOf k v.handle.toNat
  !mayName t uid || t.acc || t.pl != 0 || t.fmt != v.typ || tileRowAt v step < 0
  || tileRowAt v step + k.vec.rows > tileRows t || 128 * v.tseg.toNat ≥ pitch t

/-- The TILE check of a word (R227). -/
def vinCheck (k : Core) (c : Ctx) (v : VIn) : Option (BitVec 8 × Word) :=
  if (v.op = .ldt || v.op = .stt) && tileBad k c.uid v c.step then some (cTILE, tileEval v.handle c.pc) else none

/-- The 4-byte words of its tile that a VLDT reads (R228). -/
def ldtWords (k : Core) (v : VIn) (step : Nat) : List Nat :=
  (span 0 k.vec.rows).flatMap (fun i =>
    span (((tileRowAt v step).toNat + i) * (pitch (tileOf k v.handle.toNat) / 4) + 32 * v.tseg.toNat) k.vec.lanes)

/-- The 4-byte words of its tile that a VSTT in flight has still to make deposits into (R229). -/
def sttWords (f : VFlight) : List Nat :=
  if f.op == .stt then
    (span f.next (f.last - f.next)).flatMap (fun i => span ((f.trow + i) * (pitch f.tile / 4) + 32 * f.tseg) f.lanes)
  else []

/-- Whether the vector stream of a core still owes a deposit into a word that its VLDT reads: the stream's own earlier write comes first
(R259). -/
def loadBehind (s : State) (c : Ctx) (v : VIn) : Bool :=
  let k := getCore s c.core
  let ws := ldtWords k v c.step
  v.op == .ldt
  && (s.deps.any (fun d => d.core == c.core && d.handle == v.handle && ws.contains d.word && (match d.src with
        | .vec n _ => n == c.core
        | _ => false))
      || k.vec.flights.any (fun f => f.handle == v.handle && (sttWords f).any ws.contains))

/-- Whether the tile of a VLDT is FULL, or that of a VSTT not, and is not being cleared (R153, R156, R228, R229). -/
def tileReady (k : Core) (clk : Nat) (v : VIn) : Bool :=
  let t := tileOf k v.handle.toNat
  match v.op with
  | .ldt => isFull t clk && storageIn t
  | .stt => !isFull t clk && storageIn t
  | _ => true

/-- The clock from which the pipe a word needs is free (R92). -/
def pipeFreeAt (vec : Vec) (op : VOp) : Nat :=
  match vclassPipe (vopClass op) with
  | some 0 => vec.pipeA
  | some _ => vec.pipeB
  | none => 0

/-- The row writes of a word in flight: key and landing clock. -/
def pendingWrites (f : VFlight) : List (Nat × Nat) :=
  if vopWrites f.op then
    (span f.next (f.last - f.next)).filterMap (fun j => (rowKey f.dst j).map (fun key => (key, f.issue + landOff f.op f.rows j)))
  else []

/-- Whether no pending write to a row lands after clock `by_`, a word issuing in clock `now`: neither one of a word in flight nor one
of a latency shadow, which without a course since the return counts from this one (R91, R373; log 44). -/
def landedBy (k : Core) (now key by_ : Nat) : Bool :=
  k.vec.flights.all (fun f => (pendingWrites f).all (fun w => w.1 != key || w.2 ≤ by_))
  && k.vec.shadow.all (fun w => w.row != key || k.vec.base.getD now + w.off ≤ by_)

/-- Whether every row of a source will have landed by its read clock (R91). -/
def sourceLanded (k : Core) (clk n : Nat) (o : Opnd) : Bool :=
  (span 0 n).all (fun i => match rowKey o i with
    | some key => landedBy k clk key (clk + i)
    | none => true)

/-- Condition 5 of R90 with the order of writes of R91. -/
def vinLanded (k : Core) (u : Unit) (clk : Nat) (c : Ctx) (v : VIn) : Bool :=
  let n := readRows v.op k.vec.rows
  (!vopUsesA v.op || sourceLanded k clk n (opndOf u v.a c.step c.rotb))
  && (!vopUsesB v.op || sourceLanded k clk n (opndOf u v.b c.step c.rotb))
  && (!vopUsesC v.op || sourceLanded k clk n (opndOf u v.c c.step c.rotb))
  && (!vopWrites v.op || (span 0 (destRows v.op k.vec.rows)).all (fun j =>
      match rowKey (opndOf u v.dst c.step c.rotb) j with
      | some key => landedBy k clk key (clk + landOff v.op k.vec.rows j)
      | none => true))

/-! ## Issue (R90 to R93) -/

/-- The word as it goes into flight. -/
def flightOf (k : Core) (u : Unit) (clk : Nat) (c : Ctx) (v : VIn) (knot : BitVec 4) : VFlight :=
  { id := k.vec.nextId, uid := c.uid, slot := c.slot, op := v.op, typ := vinFmt v, src := fmtOfCode v.src
    a := opndOf u v.a c.step c.rotb, b := opndOf u v.b c.step c.rotb, c := opndOf u v.c c.step c.rotb
    dst := opndOf u v.dst c.step c.rotb, rnd := v.rnd, sat := v.sat, rows := k.vec.rows, lanes := k.vec.lanes
    issue := clk, next := 0, give := v.give, pc := c.pc, knot := knot, handle := v.handle
    gen := (tileOf k v.handle.toNat).gen, trow := (tileRowAt v c.step).toNat, tseg := v.tseg.toNat
    tile := tileOf k v.handle.toNat, last := destRows v.op k.vec.rows, checked := 0 }

/-- The sequencer with a word put into flight and its pipe occupied for ROWS clocks (R92). -/
def launchFlight (vec : Vec) (clk : Nat) (f : VFlight) : Vec :=
  let busy := clk + f.rows
  { vec with
    flights := vec.flights ++ [f]
    nextId := vec.nextId + 1
    pipeA := if vclassPipe (vopClass f.op) = some 0 then busy else vec.pipeA
    pipeB := if vclassPipe (vopClass f.op) = some 1 then busy else vec.pipeB }

/-- The core with a vector word issued: its tokens moved, and the word in flight, or finished at once when it is VNOP:
one that names a GIVE queue gives in its issue clock, at its stream's turn, for which R93 states no clock (the model's choice, log 62). -/
def issueVector (k : Core) (u : Unit) (clk : Nat) (c : Ctx) (v : VIn) (target : BitVec 4) : Core :=
  let k1 := moveTokens k v.take v.give
  if v.op = .nop then giveToken k1 c.uid v.give
  else { k1 with vec := launchFlight k1.vec clk (flightOf k u clk c v target) }

/-- Whether a source's rows include an uncorrectable one that no write in flight will replace (R367). -/
def rowsBad (k : Core) (o : Opnd) (n : Nat) : Bool :=
  !k.badRows.isEmpty && (opndKeys o n).any (fun key => k.badRows.contains key
    && k.vec.flights.all (fun f => (pendingWrites f).all (fun w => w.1 != key)) && k.vec.shadow.all (fun w => w.row != key))

/-- Whether a word reads uncorrectable rows or tile words (R367). -/
def vinPoison (k : Core) (u : Unit) (c : Ctx) (v : VIn) : Bool :=
  let n := readRows v.op k.vec.rows
  let t := tileOf k v.handle.toNat
  (vopUsesA v.op && rowsBad k (opndOf u v.a c.step c.rotb) n)
  || (vopUsesB v.op && rowsBad k (opndOf u v.b c.step c.rotb) n)
  || (vopUsesC v.op && rowsBad k (opndOf u v.c c.step c.rotb) n)
  || (v.op == .ldt && spoilt k t (ldtWords k v c.step))

/-- The causes a word raises beside its fields: TILE, and UNCORR for what it reads (R227, R367). -/
def vinFault (k : Core) (u : Unit) (c : Ctx) (v : VIn) : Option (BitVec 8 × Word) :=
  match vinCheck k c v with
  | some x => some x
  | none => if vinPoison k u c v then some (cUNCORR, pcEval c.pc) else none

/-- A vector word next to issue (R22, R90, R96, R105); `target` is the knot VKNOT.ANY and ALL write. -/
def vectorAct (c : Ctx) (v : VIn) (target : BitVec 4) (s : State) : SAct :=
  let k := getCore s c.core
  let u := unitOf k c.slot
  let ok := vinFieldsOk v && vinShapeOk u k.vec v c.step c.rotb && (!c.bound || v.course)
  let ready := tileReady k s.clk v && !loadBehind s c v && pipeFreeAt k.vec v.op ≤ s.clk
  passGate (gate k s.clk c ok v.take v.give v.knot none (vinFault k u c v) ready (vinLanded k u s.clk c v))
    (.go (setCore s c.core (issueVector k u s.clk c v target)) 1 none)

/-! ## What the words compute (R210 to R226) -/

/-- Row `i` of an operand in a read clock; a constant fills every element (R207). -/
def opndRow (k : Core) (o : Opnd) (t : Fmt) (i clk : Nat) : Row :=
  match rowKey o i with
  | some key => vrowAt k key clk
  | none => withElems (fmtBits t) (1024 / fmtBits t) (fun _ => constBits o.base t) 0

/-- The result of an arithmetic word on exact values (R211, R212). -/
def floatOp (op : VOp) (m : BitVec 2) (a b c : XVal) : XVal :=
  match op with
  | .add => xadd m a b
  | .sub => xadd m a (xneg b)
  | .mul => xmul a b
  | .fma => xadd m (xmul a b) c
  | .fms => xadd m (xmul a b) (xneg c)
  | .nfma => xadd m (xneg (xmul a b)) c
  | .min => if isNan a || isNan b then .nan else if xltStrict b a then b else a
  | .max => if isNan a || isNan b then .nan else if xltStrict a b then b else a
  | .abs => xabs a
  | .neg => xneg a
  | _ => a

/-- trunc(B) clamped to -300 to 300 (R212). -/
def scaleAmount : XVal → Int
  | .nan => 0
  | .inf n => if n then -300 else 300
  | .fin n a b => let t : Int := (a / b : Nat)
    if n then max (-t) (-300) else min t 300

/-- VSCALE (R212). -/
def scaleOp (a b : XVal) : XVal :=
  if isNan a || isNan b then .nan
  else
    let n := scaleAmount b
    match a with
    | .fin s p q => if 0 ≤ n then .fin s (p * 2 ^ n.toNat) q else .fin s p (q * 2 ^ (-n).toNat)
    | x => x

/-- The result of an arithmetic word on integers before R70 (R211). -/
def intOp (op : VOp) (a b : Int) : Int :=
  match op with
  | .add => a + b
  | .sub => a - b
  | .mul => a * b
  | .min => if b < a then b else a
  | .max => if a < b then b else a
  | .abs => if a < 0 then -a else a
  | .neg => -a
  | _ => a

/-- The bitwise and carry-less words on raw bits of width n (R214). A negative constant as shift count, of which R214 does not speak,
is read as the unsigned value of its n bits, which is not below n (log 51). -/
def bitOp (op : VOp) (n a b : Nat) : Nat :=
  match op with
  | .and => a &&& b
  | .or => a ||| b
  | .xor => a ^^^ b
  | .not => 2 ^ n - 1 - a % 2 ^ n
  | .shl => if b < n then a * 2 ^ b % 2 ^ n else 0
  | .shr => if b < n then a / 2 ^ b else 0
  | .sra => ((signedNat n a / 2 ^ (min b n)) % (2 ^ n : Nat)).toNat
  | .clmul => clmulNat a b n % 2 ^ n
  | .clmulh => clmulNat a b n / 2 ^ n
  | _ => popNat n a

/-- Whether a compare holds (R215). -/
def compareOp (op : VOp) (t : Fmt) (a b : Nat) : Bool :=
  let x := elemVal t a
  let y := elemVal t b
  if isNan x || isNan y then false
  else match op with
    | .cmpeq => xeq x y
    | .cmplt => xlt x y
    | _ => xlt x y || xeq x y

/-- The class code of VCLASS (R216). -/
def classCode (t : Fmt) (bits : Nat) : Nat :=
  let fw := (fparams t).1
  match floatVal t bits with
  | .nan => 8
  | .inf n => if n then 0 else 7
  | .fin n a _ =>
    if a = 0 then (if n then 3 else 4)
    else if bits / 2 ^ fw % 2 ^ (fparams t).2.1 = 0 then (if n then 2 else 5)
    else (if n then 1 else 6)

/-- VRND (R218): the value rounded to an integral one, its sign kept. -/
def integralVal (m : BitVec 2) : XVal → XVal
  | .fin n a b => .fin n (roundInt m n a b).natAbs 1
  | x => x

/-- One element of a word that works element by element (R210 to R216, R218). -/
def elemOp (f : VFlight) (a b c : Nat) : Nat :=
  let t := f.typ
  match f.op with
  | .add | .sub | .mul | .min | .max | .abs | .neg =>
    if fmtFloat t then roundFloat t f.rnd f.sat (floatOp f.op f.rnd (floatVal t a) (floatVal t b) .nan)
    else packInt t f.sat (intOp f.op (intVal t a) (intVal t b))
  | .fma | .fms | .nfma => roundFloat t f.rnd f.sat (floatOp f.op f.rnd (floatVal t a) (floatVal t b) (floatVal t c))
  | .scale => roundFloat t f.rnd f.sat (scaleOp (floatVal t a) (floatVal t b))
  | .rcp | .rsq | .exp2 | .log2 | .tanh | .sigm | .sinpi | .cospi => special f.op t f.rnd f.sat (floatVal t a)
  | .and | .or | .xor | .not | .shl | .shr | .sra | .clmul | .clmulh | .popc => bitOp f.op (fmtBits t) a b
  | .cmpeq | .cmplt | .cmple => if compareOp f.op t a b then 2 ^ fmtBits t - 1 else 0
  | .sel => if c ≠ 0 then a else b
  | .cls => classCode t a
  | .rnd => roundFloat t 0 f.sat (integralVal f.rnd (floatVal t a))
  | _ => a

/-- The pairwise tree of R220 over 2^n F32 values from element `lo` on. -/
def treeSum (x : Nat → Nat) : Nat → Nat → Nat
  | 0, lo => x lo
  | n + 1, lo => f32Add (treeSum x n lo) (floatVal .f32 (treeSum x n (lo + 2 ^ n)))

/-- The least n with 2^n not below e, for e up to 512. -/
def treeDepth (e : Nat) : Nat := (firstIn (fun n => e ≤ 2 ^ n) 0 10).getD 9

/-- VRSUM (R220). -/
def rowSum (f : VFlight) (a : Nat → Nat) (e : Nat) : Nat :=
  if fmtFloat f.typ then
    let x := fun j => if j < e then deliver .f32 0 false (floatVal f.typ (a j)) else 0
    roundFloat f.typ f.rnd f.sat (floatVal .f32 (treeSum x (treeDepth e) 0))
  else packInt f.typ f.sat ((span 0 e).foldl (fun acc j => acc + intVal f.typ (a j)) 0)

/-- The greatest or least of the first `e` elements (R219). -/
def rowExtreme (f : VFlight) (a : Nat → Nat) (e : Nat) : Nat :=
  let op := if f.op = .rmax then VOp.max else VOp.min
  if fmtFloat f.typ then
    roundFloat f.typ 0 false
      ((span 1 (e - 1)).foldl (fun acc j => floatOp op 0 acc (floatVal f.typ (a j)) .nan) (floatVal f.typ (a 0)))
  else packInt f.typ false ((span 1 (e - 1)).foldl (fun acc j => intOp op acc (intVal f.typ (a j))) (intVal f.typ (a 0)))

/-- VRARG (R219): the first NaN, else the lowest index of a greatest element. -/
def rowArg (f : VFlight) (a : Nat → Nat) (e : Nat) : Nat :=
  let v := fun j => elemVal f.typ (a j)
  match firstIn (fun j => isNan (v j)) 0 e with
  | some j => j
  | none => (firstIn (fun j => (span 0 e).all (fun i => !xltStrict (v j) (v i))) 0 e).getD 0

/-- VCSUM's sum down column `j` (R221). -/
def colSum (f : VFlight) (col : Nat → Nat) : Nat :=
  if fmtFloat f.typ then
    let start := deliver .f32 0 false (floatVal f.typ (col 0))
    let acc := (span 1 (f.rows - 1)).foldl (fun acc i => f32Add acc (floatVal f.typ (col i))) start
    roundFloat f.typ f.rnd f.sat (floatVal .f32 acc)
  else packInt f.typ f.sat ((span 0 f.rows).foldl (fun acc i => acc + intVal f.typ (col i)) 0)

/-- The rotation count of VROT for row `i` (R224). -/
def rotCount (f : VFlight) (b : Row) : Int :=
  if f.b.level = 3 then (constInt f.b.base).getD 0 else signedNat (fmtBits f.typ) (rowElem (fmtBits f.typ) b 0)

/-- The index of VPERM for element `j` (R226); a constant below zero names no element. -/
def permIndex (f : VFlight) (b : Row) (j e : Nat) : Nat :=
  if f.b.level = 3 then (match constInt f.b.base with
    | some v => if v < 0 then e else v.toNat
    | none => e)
  else rowElem (fmtBits f.typ) b j

/-- Destination row `i` of a word from its source rows in their read clocks and the row it replaces (R210 to R226). -/
def resultRow (f : VFlight) (A B C : Nat → Row) (i : Nat) (old : Row) : Row :=
  let t := f.typ
  let n := fmtBits t
  let e := activeElems t f.lanes
  let a := rowElem n (A i)
  let b := rowElem n (B i)
  let c := rowElem n (C i)
  match f.op with
  | .cvt =>
    let s := f.src.getD .f32
    let cnt := 32 * f.lanes / max n (fmtBits s)
    withElems n cnt (fun j => convert s t f.rnd f.sat (rowElem (fmtBits s) (A i) j)) old
  | .rsum => withElems n e (fun _ => rowSum f a e) old
  | .rmax | .rmin => withElems n e (fun _ => rowExtreme f a e) old
  | .rarg => withElems n e (fun _ => rowArg f a e) old
  | .csum => withElems n e (fun j => colSum f (fun r => rowElem n (A r) j)) old
  | .mov => withElems n e a old
  | .bcastElem => withElems n e (fun _ => a 0) old
  | .bcastRow0 => withElems n e (rowElem n (A 0)) old
  | .trn => withElems n e (fun j => if j < f.rows then rowElem n (A j) i else rowElem n old j) old
  | .rot => withElems n e (fun j => a (((j : Int) + rotCount f (B i)) % (e : Int)).toNat) old
  | .packCat => withElems n e (fun j => if j < e / 2 then a j else b (j - e / 2)) old
  | .packZip => withElems n e (fun j => if j % 2 = 0 then a (j / 2) else b (j / 2)) old
  | .unpkLo => withElems n e (fun j => if j < e / 2 then a j else 0) old
  | .unpkHi => withElems n e (fun j => if j < e / 2 then a (j + e / 2) else 0) old
  | .unpkEven => withElems n e (fun j => if j < e / 2 then a (2 * j) else 0) old
  | .unpkOdd => withElems n e (fun j => if j < e / 2 then a (2 * j + 1) else 0) old
  | .perm => withElems n e (fun j => if permIndex f (B i) j e < e then a (permIndex f (B i) j e) else 0) old
  | _ => withElems n e (fun j => elemOp f (a j) (b j) (c j)) old

/-- Row `i` of a VLDT: its segment of the tile row as it stands in the read clock, zero beyond ROWBYTES (R228). -/
def loadedRow (k : Core) (f : VFlight) (i : Nat) (old : Row) : Row :=
  let rb := rowBytes f.tile
  withElems 32 f.lanes (fun j =>
    let at_ := 128 * f.tseg + 4 * j
    if at_ ≥ rb then 0
    else (tileWordAt k f.tile (((f.trow + i) * pitch f.tile + at_) / 4) (f.issue + i)).toNat % 2 ^ (8 * min 4 (rb - at_))) old

/-! ## Reserved T2 codes (R63) -/

/-- The elements of source row `i` that a word of T2 elements reads, from A and B. VLDT copies bytes (R228) and is taken to read no
element of its tile, of which the spec does not speak (log 51). -/
def t2Reads (f : VFlight) (A B : Row) : List Nat :=
  let e := activeElems .t2 f.lanes
  match f.op with
  | .cvt => if f.src = some .t2 then (span 0 (32 * f.lanes / max (fmtBits f.typ) 2)).map (rowElem 2 A) else []
  | .stt => if f.typ = .t2 then (span 0 e).map (rowElem 2 A) else []
  | .packCat | .packZip => if f.typ = .t2 then (span 0 (e / 2)).map (rowElem 2 A) ++ (span 0 (e / 2)).map (rowElem 2 B) else []
  | .unpkLo => if f.typ = .t2 then (span 0 (e / 2)).map (rowElem 2 A) else []
  | .unpkHi => if f.typ = .t2 then (span (e / 2) (e / 2)).map (rowElem 2 A) else []
  | .unpkEven => if f.typ = .t2 then (span 0 (e / 2)).map (fun j => rowElem 2 A (2 * j)) else []
  | .unpkOdd => if f.typ = .t2 then (span 0 (e / 2)).map (fun j => rowElem 2 A (2 * j + 1)) else []
  | _ => []

/-- Whether a word meets the reserved T2 code in source row `i`, as it stands in its read clock (R63). -/
def readsReserved (k : Core) (f : VFlight) (i : Nat) : Bool :=
  let t := if f.op = .cvt then f.src.getD .f32 else f.typ
  (t2Reads f (opndRow k f.a t i (f.issue + i)) (opndRow k f.b f.typ i (f.issue + i))).any (fun x => x == 2)

/-- Whether a word reads T2 elements at all (R63). -/
def readsT2 (f : VFlight) : Bool :=
  match f.op with
  | .cvt => f.src == some .t2
  | .stt | .packCat | .packZip | .unpkLo | .unpkHi | .unpkEven | .unpkOdd => f.typ == .t2
  | _ => false

/-! ## Landing (R63, R91, R97, R103, R208, R229) -/

/-- The deposits of a VSTT's row: one per active lane with a word inside ROWBYTES, the last masked (R229). -/
def storeDeposits (core : Nat) (f : VFlight) (i : Nat) (v : Row) : List Deposit :=
  let rb := rowBytes f.tile
  (span 0 f.lanes).filterMap (fun j =>
    let at_ := 128 * f.tseg + 4 * j
    if at_ ≥ rb then none
    else some
      { src := .vec core f.id, core := core, handle := f.handle, gen := f.gen
        word := ((f.trow + i) * pitch f.tile + at_) / 4, data := BitVec.ofNat 32 (rowElem 32 v j)
        mask := BitVec.ofNat 32 (2 ^ (8 * min 4 (rb - at_)) - 1), kind := .write, ranked := none, cls := 0
        due := f.issue + landOff .stt f.rows i, held := false, bad := false })

/-- Whether any, or every, active byte of the rows a VKNOT reads is not zero (R103). -/
def knotValue (k : Core) (f : VFlight) : Bool :=
  let bytes := (span 0 f.rows).flatMap (fun i =>
    (span 0 (4 * f.lanes)).map (rowElem 8 (opndRow k f.a .f32 i (f.issue + i))))
  if f.op = .knotAny then bytes.any (fun x => x != 0) else bytes.all (fun x => x != 0)

/-- A flight advanced by one row. -/
def withFlight (k : Core) (f : VFlight) : Core :=
  { k with vec := { k.vec with flights := k.vec.flights.map (fun x => if x.id = f.id then f else x) } }

/-- The state with the vector words that have landed every row, and had every deposit counted, finished: their tokens given, a
stream that was stopping left IDLE (R88, R93, R229). -/
def finishVector (s : State) (core : Nat) : State :=
  let k := getCore s core
  let ended := k.vec.flights.filter (fun f => f.next ≥ f.last && !hasDeps s (.vec core f.id))
  let k1 := ended.foldl (fun c f => giveToken c f.uid f.give) k
  let left := k1.vec.flights.filter (fun f => !(f.next ≥ f.last && !hasDeps s (.vec core f.id)))
  setCore s core (settle { k1 with vec := { k1.vec with flights := left } } 8)

/-- Whether flight `f` lands its next row before flight `g`: by landing clock, row writes before knot tests, then by issue
(R97, R208). -/
def landsBefore (f g : VFlight) : Bool :=
  let cf := f.issue + landOff f.op f.rows f.next
  let cg := g.issue + landOff g.op g.rows g.next
  let kf := f.op = .knotAny || f.op = .knotAll
  let kg := g.op = .knotAny || g.op = .knotAll
  cf < cg || (cf == cg && ((!kf && kg) || (kf == kg && f.id < g.id)))

/-- The flight whose next row lands first, if any row is due (R91). -/
def nextLanding (k : Core) (clk : Nat) : Option VFlight :=
  (k.vec.flights.filter (fun f => f.next < f.last && f.issue + landOff f.op f.rows f.next ≤ clk)).foldl
    (fun best f => match best with
      | none => some f
      | some g => if landsBefore f g then some f else some g) none

/-- The word whose next source row is to be checked for the reserved T2 code in a clock, if one is (R63). -/
def nextCheck (k : Core) (clk : Nat) : Option VFlight :=
  k.vec.flights.find? (fun f => readsT2 f && f.checked < f.last && f.issue + f.checked ≤ clk)

/-- The state with the next source row of a word checked: a reserved code ends the word's writes at that row and raises OPERAND
(R22, R63). -/
def checkRow (s : State) (core : Nat) (f : VFlight) : State :=
  let k := getCore s core
  if readsReserved k f f.checked then
    streamFault (setCore s core (withFlight k { f with last := f.checked })) core f.slot 8 cOPERAND (pcEval f.pc)
  else setCore s core (withFlight k { f with checked := f.checked + 1 })

/-- The state with row `f.next` of a word landed, its value formed from its sources in their read clocks (R91). -/
def landOne (s : State) (core : Nat) (f : VFlight) : State :=
  let k := getCore s core
  let i := f.next
  let t := if f.op = .cvt then f.src.getD .f32 else f.typ
  let A := fun r => opndRow k f.a t r (f.issue + r)
  let B := fun r => opndRow k f.b f.typ r (f.issue + r)
  let C := fun r => opndRow k f.c f.typ r (f.issue + r)
  let clk := f.issue + landOff f.op f.rows i
  let k1 := withFlight k { f with next := i + 1 }
  match f.op with
  | .knotAny | .knotAll => setCore s core (postKnot k1 (f.issue + f.rows) 0 f.knot (knotValue k f))
  | .stt => setCore { s with deps := s.deps ++ storeDeposits core f i (A i) } core k1
  | .ldt => match rowKey f.dst i with
    | some key => setCore s core (landRow k1 key clk (loadedRow k f i (vrow k key)))
    | none => setCore s core k1
  | _ => match rowKey f.dst i with
    | some key => setCore s core (landRow k1 key clk (resultRow f A B C i (vrow k key)))
    | none => setCore s core k1

/-- The write of a latency shadow that a core lands next (R373). -/
def nextShadow (k : Core) (clk : Nat) : Option PendWrite :=
  match k.vec.base with
  | none => none
  | some b => k.vec.shadow.find? (fun e => b + e.off ≤ clk)

/-- The core with a write of a latency shadow landed in the lanes it writes (R204, R373). -/
def landShadowed (k : Core) (w : PendWrite) : Core :=
  landRow { k with vec := { k.vec with shadow := k.vec.shadow.erase w } } w.row (k.vec.base.getD 0 + w.off)
    (mergeLanes w.lanes w.value (vrow k w.row))

/-- ROW_LANDING (R63, R91, R373): the row of this core that is due first lands; once none is, the source row whose read clock this
is is checked. -/
def execRowLanding (core : Nat) (s : State) : Host.Outcome State Fault Refusal :=
  let k := getCore s core
  match nextShadow k s.clk with
  | some w => .next (finishVector (setCore s core (landShadowed k w)) core)
  | none =>
    match nextLanding k s.clk with
    | some f => .next (finishVector (landOne s core f) core)
    | none =>
      match nextCheck k s.clk with
      | some f => .next (finishVector (checkRow s core f) core)
      | none => .next (finishVector s core)

end Sys2Proof.Machine
end

