-- ==== Sys2Proof/Machine/Matrix.lean ====
section
/-! DEFINITION. The matrix data words: checks, issue, what each computes, and retirement (R46, R75 to R78, R163, R183 to
R203). MMAC and MEPI read their operands at issue and MLDW each tile line in its read clock (log 22). -/
namespace Sys2Proof.Machine

/-! ## Operands through shapes (R163) -/

/-- The tile element that operand element (i, j) is (R163). -/
def shapeElem (sh : Shape) (i j : Nat) : Int × Int :=
  if sh.trans then ((sh.rowoff : Int) + j * sh.rowstr, (sh.coloff : Int) + i * sh.colstr)
  else ((sh.rowoff : Int) + i * sh.rowstr, (sh.coloff : Int) + j * sh.colstr)

/-- Whether `n` steps of `st` from `off` stay inside 0 to ext - 1. -/
def runInside (n off : Nat) (st : Int) (ext : Nat) : Bool :=
  let last : Int := (off : Int) + ((n : Int) - 1) * st
  n != 0 && off < ext && 0 ≤ last && last < ext

/-- Whether an operand of rows × cols reaches only elements of a tile (R163). -/
def shapeInside (sh : Shape) (t : Tile) (rows cols : Nat) : Bool :=
  if sh.trans then runInside cols sh.rowoff sh.rowstr (tileRows t) && runInside rows sh.coloff sh.colstr (tileCols t)
  else runInside rows sh.rowoff sh.rowstr (tileRows t) && runInside cols sh.coloff sh.colstr (tileCols t)

/-- Whether ROWS and COLS, where not zero, are the extent the word needs (R163). -/
def shapeFits (sh : Shape) (rows cols : Nat) : Bool :=
  (sh.rows == 0 || sh.rows == rows) && (sh.cols == 0 || sh.cols == cols)

/-- The extent R × C of an MEPI's source operand: ROWS and COLS, and where one is 0 the tile's whole extent in the direction it runs
less the shape's offset, whatever the stride (R163, R194; log 25). -/
def sourceExtent (sh : Shape) (t : Tile) : Nat × Nat :=
  let along := tileRows t - sh.rowoff
  let across := tileCols t - sh.coloff
  let r := if sh.trans then across else along
  let c := if sh.trans then along else across
  (if sh.rows = 0 then r else sh.rows, if sh.cols = 0 then c else sh.cols)

/-! ## Weight sets and the pool (R151, R183, R190) -/

/-- The key of cell (k, n) of a sub-array. -/
def cellKey (k n : Nat) : Nat := 512 * k + n
/-- The key of a brick of a sub-array. -/
def brickKey (r c : Nat) : Nat := 16 * r + c
/-- The ACTIVE set (R183). -/
def activeSet (b : Sub) : List (Nat × BitVec 52) := if b.actsel then b.set1 else b.set0
/-- The SHADOW set (R183). -/
def shadowSet (b : Sub) : List (Nat × BitVec 52) := if b.actsel then b.set0 else b.set1
/-- The sub-array with its SHADOW set replaced. -/
def withShadow (b : Sub) (m : List (Nat × BitVec 52)) : Sub :=
  if b.actsel then { b with set0 := m } else { b with set1 := m }
/-- A tag not VALID (R183). -/
def noTag : Tag := { valid := false, handle := 0, gen := 0 }
/-- X of R186. -/
def crossBit (b : Sub) : Nat := if b.kind = .loc then 0 else 1

/-- The pool element that element (r, c) of an ACC tile is (R151, R170). -/
def poolKey (t : Tile) (r c : Nat) : Nat := 512 * (32 * t.p0 + r) + (32 * t.p2 + c)
/-- The 32 × 32 block of a pool element (R183). -/
def blockOf (key : Nat) : Nat := key / 16384 * 16 + key % 512 / 32
/-- A pool element; an element that is not listed is zero. -/
def accElem (b : Sub) (key : Nat) : Lane := mapGet 0 b.acc key
/-- The pool with an element written; zero is not listed. -/
def accSet (m : List (Nat × Lane)) (key : Nat) (v : Lane) : List (Nat × Lane) :=
  if v = 0 then mapErase m key else mapSet m key v

/-- Element (i, j) of an operand in an ACC tile, as a pool key. -/
def accKeyAt (t : Tile) (sh : Shape) (i j : Nat) : Nat :=
  poolKey t (shapeElem sh i j).1.toNat (shapeElem sh i j).2.toNat

/-- Element (i, j) of an operand in a SCRATCH element tile. -/
def shapedElem (k : Core) (t : Tile) (sh : Shape) (i j : Nat) : Nat :=
  tileElem k t (shapeElem sh i j).1.toNat (shapeElem sh i j).2.toNat

/-- The distinct members of a list. -/
def distinct : List Nat → List Nat
  | [] => []
  | x :: xs => if xs.contains x then distinct xs else x :: distinct xs

/-! ## Issue (R185 to R188, R200, R203) -/

/-- The sub-array a context's stream serves. -/
def ctxSub (k : Core) (c : Ctx) : Sub := (subOf k c.strm).getD (newSub 0 0 .loc 0 1 0 1 0)

/-- What a matrix word leaves behind when it issues: the clock it retires, MARK, the handles it names, its effect at
retirement, the blocks it wrote, whether ACCDIS wrote them, whether it is an MEPI and what that deposits or hands over in all, the
blocks whose INV it sets and clears, the blocks whose storage changed, and whether an operand it reads is uncorrectable. -/
structure MLaunch where
  due : Nat
  mark : Bool
  handles : List (BitVec 12)
  effect : MEffect
  blocks : List Nat
  accdis : Bool
  mepi : Bool
  out : Nat
  sets : List Nat
  clears : List Nat
  dirt : List Nat
  bad : Bool

/-- A word's effect as the replay window keeps it: an MEPI that is issued again has deposited nothing and is still in flight (R203). -/
def keptEffect : MEffect → MEffect
  | .epiRemote ha _ => .epi ha
  | e => e

/-- The sub-array with a word in flight and in the replay window (R203). -/
def launchWord (b : Sub) (c : Ctx) (clk : Nat) (give : BitVec 4) (i : Instr) (l : MLaunch) : Sub :=
  let f : MFlight :=
    { id := b.nextId, uid := c.uid, slot := c.slot, issue := clk, due := l.due, mark := l.mark, give := give, pc := c.pc
      handles := l.handles, effect := l.effect, retired := false, unacked := 0, stuck := false, late := 0 }
  let w : WinWord := { word := i, id := b.nextId, pc := c.pc, issue := clk, due := l.due, mark := l.mark, handles := l.handles
                       effect := keptEffect l.effect, blocks := l.blocks, accdis := l.accdis, mepi := l.mepi
                       out := l.out, sets := l.sets, clears := l.clears, bad := l.bad }
  { b with
    nextId := b.nextId + 1
    flights := b.flights ++ [f]
    win := (b.win ++ [w]).drop ((b.win.length + 1) - 64)
    age := b.age + 1
    touched := b.touched ++ (distinct l.blocks).filter (fun x => !b.touched.contains x) }

/-- A core whose sub-array consumes uncorrectable data in a clock: it is to replay, or the fault to escalate (R188, R203). -/
def consumes (k : Core) (n clk : Nat) (bad : Bool) : Core :=
  if bad then { k with upset := k.upset ++ [{ sub := n, due := clk, block := none, cause := cUNCORR }] } else k

/-- A matrix word next to issue: `check` is the cause its entry raises, `ready` and `path` conditions 1 and 4 of R90, `order`
R187; `upd` changes the sub-array at issue and `out` makes its deposits. A word that reads an uncorrectable operand issues, and its
sub-array answers for it (R188; log 45). -/
def matrixAct (c : Ctx) (f : MIssue) (i : Instr) (fieldsOk : Bool) (check : Option (BitVec 8 × Word)) (ready order : Bool)
    (occ : Nat) (l : MLaunch) (upd : Sub → Sub) (out : List Deposit) (s : State) : SAct :=
  let k := getCore s c.core
  let b := ctxSub k c
  let st := if f.stampen then some f.stamp else none
  passGate (gate k s.clk c fieldsOk f.take f.give f.knot st check ready order)
    (let k1 := moveTokens k f.take f.give
     let b1 := launchWord (upd b) c s.clk f.give i l
     .go (setCore { s with deps := s.deps ++ out } c.core (consumes { k1 with
       subs := mapSet k1.subs c.strm b1
       dirty := addDirties k1.dirty (l.dirt.map (fun x => (12, c.strm * 65536 + x))) } c.strm s.clk l.bad)) occ none)

/-- The launch of a word with no effect at retirement but MARK (R186). -/
def plainLaunch (clk : Nat) (mark : Bool) : MLaunch :=
  { due := clk + 1, mark := mark, handles := [], effect := .none, blocks := [], accdis := false, mepi := false, out := 0
    sets := [], clears := [], dirt := [], bad := false }

/-- MNOP (R200). -/
def mnopAct (c : Ctx) (f : MIssue) (i : Instr) (s : State) : SAct :=
  matrixAct c f i (matFieldsOk f) none true true 1 (plainLaunch s.clk f.mark) id [] s

/-- MMARK (R200). -/
def mmarkAct (c : Ctx) (f : MIssue) (i : Instr) (s : State) : SAct :=
  matrixAct c f i (matFieldsOk f) none true true 1 (plainLaunch s.clk true) id [] s

/-- The sub-array with its weight sets exchanged (R190). -/
def swapSets (b : Sub) : Sub :=
  { b with actsel := !b.actsel, afmt := b.sfmt, sfmt := b.afmt, atag := b.stag, stag := b.atag }

/-- MSWAP (R190). -/
def mswapAct (c : Ctx) (f : MIssue) (i : Instr) (s : State) : SAct :=
  matrixAct c f i (matFieldsOk f) none ((ctxSub (getCore s c.core) c).loadFree ≤ s.clk) true 1
    (plainLaunch s.clk f.mark) swapSets [] s

/-- The first cause of a list of checks. -/
def firstCheck : List (Bool × BitVec 8 × Word) → Option (BitVec 8 × Word)
  | [] => none
  | (b, c, e) :: xs => if b then some (c, e) else firstCheck xs

/-! ## MLDW (R189) -/

/-- L, the digits MLDW loads. -/
def loadDigits (t : Tile) (dprec : BitVec 4) : Nat := if dprec = 0 then t.pl.toNat else min dprec.toNat t.pl.toNat

/-- B, the bytes MLDW reads (R189). -/
def loadBytes (t : Tile) (L : Nat) : Nat :=
  3 * L * tileRows t * tileCols t / 8 + (if fmtFloat (tileFmt t) then 2 * tileRows t * tileCols t else 0)

/-- TL of R186. -/
def loadClocks (b : Sub) (t : Tile) (L : Nat) : Nat := 6 + 16 * crossBit b + ceilDiv (loadBytes t L) (64 * t.p1)

/-- The 64-byte lines of a tile an MLDW of L digits reads, in its order: those of the leading 3 × L planes, then those of the heads
(R189). -/
def weightLines (t : Tile) (L : Nat) : List Nat :=
  let plane := tileRows t * tileCols t / 8
  span 0 (3 * L * plane / 64)
  ++ (if fmtFloat (tileFmt t) then span (3 * t.pl.toNat * plane / 64) (2 * tileRows t * tileCols t / 64) else [])

/-- Whether a word of a sub-array reads an uncorrectable line of its tile in a clock: line r of an MLDW in clock issue + 1 + ⌊r ÷ NB⌋
(R188, R189). -/
def readsSpoilt (k : Core) (clk : Nat) (f : MFlight) : Bool :=
  match f.effect with
  | .load t _ L _ _ _ =>
    f.issue < clk && spoilt k t ((((weightLines t L).drop ((clk - f.issue - 1) * t.p1)).take t.p1).flatMap (fun l => span (16 * l) 16))
  | _ => false

/-- A sub-array with the words that read an uncorrectable line in a clock marked in its window, and whether there are any (R188, R203). -/
def linesRead (k : Core) (clk : Nat) (b : Sub) : Sub × Bool :=
  let ids := (b.flights.filter (readsSpoilt k clk)).map (·.id)
  ({ b with win := b.win.map (fun w => if ids.contains w.id then { w with bad := true } else w) }, !ids.isEmpty)

/-- A core in a clock, the sub-arrays whose MLDW reads an uncorrectable line in it having that to answer for (R188, R189). -/
def loadsRead (clk : Nat) (k : Core) : Core :=
  if k.spoil.isEmpty then k
  else
    let hit := (k.subs.filter (fun e => (linesRead k clk e.2).2)).map (·.1)
    { k with
      subs := k.subs.map (fun e => (e.1, (linesRead k clk e.2).1))
      upset := k.upset ++ hit.map (fun n => { sub := n, due := clk, block := none, cause := cUNCORR }) }

/-- MLDW (R189). -/
def mldwAct (c : Ctx) (f : MIssue) (hw : BitVec 12) (dprec : BitVec 4) (clr : Bool) (br0 : BitVec 3) (bc0 : BitVec 4)
    (i : Instr) (s : State) : SAct :=
  let k := getCore s c.core
  let b := ctxSub k c
  let t := tileOf k hw.toNat
  let L := loadDigits t dprec
  let check := firstCheck
    [(!mayName t c.uid || t.acc || t.pl == 0, cTILE, tileEval hw c.pc),
     (br0.toNat + tileRows t / 32 > b.h || bc0.toNat + tileCols t / 32 > b.w || (!clr && b.sfmt != t.fmt), cOPERAND, pcEval c.pc)]
  let due := s.clk + loadClocks b t L
  matrixAct c f i (matFieldsOk f && dprec.toNat < 13) check
    (isFull t s.clk && storageIn t && b.loadFree ≤ s.clk) true 1
    { due := due, mark := f.mark, handles := [hw], effect := .load t hw L clr br0.toNat bc0.toNat, blocks := []
      accdis := false, mepi := false, out := 0, sets := [], clears := [], dirt := [], bad := false }
    (fun x => { x with loadFree := due, sfmt := if clr then t.fmt else x.sfmt }) [] s

/-- A bit of a tile's storage as its line stood in the clock an MLDW issued at `clk` read it; `skip` is the number of lines
of the sequence before byte `base` (R189). -/
def loadedBit (k : Core) (t : Tile) (clk base skip byte bit : Nat) : Nat :=
  let line := skip + (byte - base) / 64
  (tileWordAt k t (byte / 4) (clk + 1 + line / t.p1)).toNat / 2 ^ (8 * (byte % 4) + bit) % 2

/-- The three planes of digit j of weight (r, n) as MLDW reads them (R149). -/
def loadedDigit (k : Core) (t : Tile) (clk r n j : Nat) : Nat :=
  let D := digitCount (tileFmt t)
  let plane := tileRows t * tileCols t / 8
  (span 0 3).foldl (fun a p =>
    a + 2 ^ p * loadedBit k t clk 0 0 ((3 * (D - 1 - j) + p) * plane + (r * tileCols t + n) / 8) (n % 8)) 0

/-- The head of weight (r, n) as MLDW reads it (R149). -/
def loadedHead (k : Core) (t : Tile) (clk L r n : Nat) : Nat :=
  let plane := tileRows t * tileCols t / 8
  let base := 3 * t.pl.toNat * plane
  let byte := base + 2 * (r * tileCols t + n)
  (span 0 16).foldl (fun a x => a + 2 ^ x * loadedBit k t clk base (3 * L * plane / 64) (byte + x / 8) (x % 8)) 0

/-- The cell MLDW makes of weight (r, n): digits at bits 3i on, the head above them (R189). -/
def loadedCell (k : Core) (t : Tile) (clk L r n : Nat) : BitVec 52 :=
  let D := digitCount (tileFmt t)
  let planes := (span (D - L) L).foldl (fun a j => a + 8 ^ j * loadedDigit k t clk r n j) 0
  let head := if fmtFloat (tileFmt t) then loadedHead k t clk L r n else 0
  BitVec.ofNat 52 (planes + 2 ^ 36 * head)

/-- Whether a cell holds a code R46 or R74 reserves. -/
def cellReserved (f : Fmt) (v : BitVec 52) : Bool :=
  (weightValue f (v.toNat % 2 ^ 36) (v.toNat / 2 ^ 36) 0).isNone

/-- The bricks a tile covers in a sub-array. -/
def loadedBricks (t : Tile) (br0 bc0 : Nat) : List Nat :=
  (span br0 (tileRows t / 32)).flatMap (fun r => (span bc0 (tileCols t / 32)).map (brickKey r))

/-- The sub-array with an MLDW's load made, and whether it met a reserved code (R189). -/
def loadSet (k : Core) (b : Sub) (t : Tile) (clk : Nat) (hw : BitVec 12) (L : Nat) (clr : Bool) (br0 bc0 : Nat) : Sub × Bool :=
  let cells := (span 0 (tileRows t)).flatMap (fun r => (span 0 (tileCols t)).map (fun n =>
    (cellKey (32 * br0 + r) (32 * bc0 + n), loadedCell k t clk L r n)))
  let bad := cells.any (fun c => cellReserved (tileFmt t) c.2)
  let start := if clr then [] else shadowSet b
  let shadow := cells.foldl (fun m c => if c.2 = 0 then mapErase m c.1 else mapSet m c.1 c.2) start
  let tag : Tag := if bad then noTag else { valid := true, handle := hw, gen := t.gen }
  let tags := (loadedBricks t br0 bc0).foldl (fun m x => mapSet m x tag) (if clr then [] else b.stag)
  ({ withShadow b shadow with stag := tags }, bad)

/-! ## MMAC (R191 to R193) -/

/-- Whether a pair of weight and activation formats takes the integer path (R191). -/
def integerPath (w a : Fmt) : Bool :=
  (w == .t2 || w == .i4 || w == .i8) && (a == .i16 || a == .i8 || a == .n8 || a == .i4)

/-- P of R193. -/
def digitsRead (f : Fmt) (dprec : BitVec 4) : Nat :=
  if dprec = 0 || dprec.toNat ≥ digitCount f then digitCount f else dprec.toNat

def macM (m : MmacF) : Nat := m.mm1.toNat + 1
def macK (m : MmacF) : Nat := 32 * (m.krm1.toNat + 1)
def macN (m : MmacF) : Nat := 32 * (m.ncm1.toNat + 1)

/-- The bricks of the active set an MMAC reads. -/
def macBricks (m : MmacF) : List Nat :=
  (span m.kr0.toNat (m.krm1.toNat + 1)).flatMap (fun r => (span m.nc0.toNat (m.ncm1.toNat + 1)).map (brickKey r))

/-- The causes an MMAC raises at issue (R191, R192). While AFMT is none no brick of ATAG is valid, so the word raises TILE, not the OPERAND of
a pair that R191 does not list (R41; the model's reading, log 63). -/
def macCheck (k : Core) (b : Sub) (c : Ctx) (m : MmacF) : Option (BitVec 8 × Word) :=
  let ta := tileOf k m.ha.toNat
  let tc := tileOf k m.hc.toNat
  let tw := tileOf k m.hw.toNat
  let wf := (fmtOfCode b.afmt).getD .f32
  let af := (fmtOfCode m.fmt).getD .f32
  let sa := shapeOf k m.sha.toNat
  let sc := shapeOf k m.shc.toNat
  let tile := fun h => tileEval h c.pc
  firstCheck
    [(m.kr0.toNat + m.krm1.toNat ≥ b.h || m.nc0.toNat + m.ncm1.toNat ≥ b.w, cOPERAND, pcEval c.pc),
     (!mayName ta c.uid || ta.acc || ta.pl != 0 || ta.fmt != m.fmt, cTILE, tile m.ha),
     (!mayName tc c.uid || !tc.acc || tc.sub.toNat != c.strm
        || tc.fmt != (if integerPath wf af then fmtCode .i32 else fmtCode .f32), cTILE, tile m.hc),
     (!mayName tw c.uid || tw.acc || tw.pl == 0, cTILE, tile m.hw),
     ((macBricks m).any (fun x => mapGet noTag b.atag x != { valid := true, handle := m.hw, gen := tw.gen }), cTILE, tile m.hw),
     (sc.rowstr == 0 || sc.colstr == 0, cOPERAND, pcEval c.pc),
     (!shapeFits sa (macM m) (macK m) || !shapeInside sa ta (macM m) (macK m), cTILE, tile m.ha),
     (!shapeFits sc (macM m) (macN m) || !shapeInside sc tc (macM m) (macN m), cTILE, tile m.hc)]

/-- Whether an MMAC reads an uncorrectable activation word (R188). -/
def macSpoilt (k : Core) (m : MmacF) : Bool :=
  let ta := tileOf k m.ha.toNat
  let sa := shapeOf k m.sha.toNat
  !k.spoil.isEmpty && (span 0 (macM m)).any (fun i => (span 0 (macK m)).any (fun j =>
    spoilt k ta [elemBit ta (shapeElem sa i j).1.toNat (shapeElem sa i j).2.toNat / 32]))

/-- The value of a cell of the active set to an MMAC, NEGW applied; a reserved code counts as zero (R77, R193). -/
def macWeight (b : Sub) (wf : Fmt) (P : Nat) (negw : Bool) (kk n : Nat) : XVal :=
  let v := mapGet 0 (activeSet b) (cellKey kk n)
  match weightValue wf (v.toNat % 2 ^ 36) (v.toNat / 2 ^ 36) P with
  | some w => if negw then xneg w else w
  | none => xint 0

/-- Whether an MMAC meets a reserved code in the cells it reads (R46, R74). -/
def macReserved (b : Sub) (wf : Fmt) (P : Nat) (m : MmacF) : Bool :=
  (span (32 * m.kr0.toNat) (macK m)).any (fun kk => (span (32 * m.nc0.toNat) (macN m)).any (fun n =>
    let v := mapGet 0 (activeSet b) (cellKey kk n)
    (weightValue wf (v.toNat % 2 ^ 36) (v.toNat / 2 ^ 36) P).isNone))

/-- The integer of an exact value that is one. -/
def xtoInt : XVal → Int
  | .fin n a b => if n then -((a / b : Nat) : Int) else (a / b : Nat)
  | _ => 0

/-- One output element: the contributions of ascending depth in order (R78, R193). -/
def macElem (int : Bool) (a w : Nat → XVal) (acc : Nat) : Nat → Nat
  | 0 => acc
  | d + 1 =>
    let prev := macElem int a w acc d
    if int then packInt .i32 false (intVal .i32 prev + xtoInt (a d) * xtoInt (w d))
    else f32Add prev (cellProduct (a d) (w d))

/-- The pool elements an MMAC writes and their values (R193). -/
def macWrites (k : Core) (b : Sub) (m : MmacF) : List (Nat × Lane) :=
  let ta := tileOf k m.ha.toNat
  let tc := tileOf k m.hc.toNat
  let wf := (fmtOfCode b.afmt).getD .f32
  let af := (fmtOfCode m.fmt).getD .f32
  let int := integerPath wf af
  let P := digitsRead wf m.dprec
  let sa := shapeOf k m.sha.toNat
  let sc := shapeOf k m.shc.toNat
  (span 0 (macM m)).flatMap (fun r => (span 0 (macN m)).map (fun n =>
    let key := accKeyAt tc sc r n
    let a := fun d => let x := elemVal af (shapedElem k ta sa r d)
      if m.nega then xneg x else x
    let w := fun d => macWeight b wf P m.negw (32 * m.kr0.toNat + d) (32 * m.nc0.toNat + n)
    (key, BitVec.ofNat 32 (macElem int a w (if m.accdis then 0 else (accElem b key).toNat) (macK m)))))

/-- Whether a list of writes covers every element of a block (R193). -/
def blockCovered (ws : List (Nat × Lane)) (blk : Nat) : Bool :=
  (distinct ((ws.filter (fun w => blockOf w.1 == blk)).map (·.1))).length == 1024

/-- The sub-array with an MMAC's results in its pool (R193). -/
def macApply (b : Sub) (ws : List (Nat × Lane)) : Sub := { b with acc := ws.foldl (fun m w => accSet m w.1 w.2) b.acc }

/-- A list of INV marks with some blocks marked, each once, and others cleared (R193, R201). -/
def markInv (inv sets clears : List Nat) : List Nat :=
  (inv ++ (distinct sets).filter (fun x => !inv.contains x)).filter (fun x => !clears.contains x)

/-- Whether an unretired MEPI reads an ACC tile (R187). -/
def epiReads (b : Sub) (h : BitVec 12) : Bool :=
  b.flights.any (fun f => !f.retired && (match f.effect with
    | .epi ha => ha == h
    | .epiRemote ha _ => ha == h
    | _ => false))

/-- Whether an unretired MMAC writes an ACC tile (R187). -/
def macWritesTile (b : Sub) (h : BitVec 12) : Bool :=
  b.flights.any (fun f => !f.retired && (match f.effect with
    | .mac hc _ _ _ => hc == h
    | _ => false))

/-- MMAC (R191 to R193). -/
def mmacAct (c : Ctx) (f : MIssue) (m : MmacF) (i : Instr) (s : State) : SAct :=
  let k := getCore s c.core
  let b := ctxSub k c
  let wf := (fmtOfCode b.afmt).getD .f32
  let P := digitsRead wf m.dprec
  let ta := tileOf k m.ha.toNat
  let tc := tileOf k m.hc.toNat
  let sc := shapeOf k m.shc.toNat
  let keys := (span 0 (macM m)).flatMap (fun r => (span 0 (macN m)).map (accKeyAt tc sc r))
  let blocks := distinct (keys.map blockOf)
  let bad := macReserved b wf P m
  let clears := if !bad && m.accdis then blocks.filter (blockCovered (macWrites k b m)) else []
  let occ := macM m * P
  matrixAct c f i (matFieldsOk f && mmacFieldsOk m) (macCheck k b c m)
    (isFull ta s.clk && storageIn ta && storageIn tc && b.arrayFree ≤ s.clk) (!epiReads b m.hc) occ
    { due := s.clk + occ + 2 * b.h + 2 * b.w + 4 + 6 * crossBit b, mark := f.mark, handles := [m.ha, m.hc, m.hw]
      effect := .mac m.hc blocks bad clears, blocks := blocks, accdis := m.accdis, mepi := false, out := 0
      sets := if bad then blocks else [], clears := clears, dirt := blocks, bad := macSpoilt k m }
    (fun x => { macApply x (macWrites k b m) with arrayFree := s.clk + occ }) [] s

/-! ## MEPI (R194 to R199) -/

/-- The extent of an MEPI's operand. -/
def epiExtent (k : Core) (e : MepiF) : Nat × Nat := sourceExtent (shapeOf k e.sha.toNat) (tileOf k e.ha.toNat)

/-- Whether an MEPI's source touches a block that is INV (R201). -/
def epiTouchesInv (k : Core) (b : Sub) (e : MepiF) : Bool :=
  let t := tileOf k e.ha.toNat
  let x := epiExtent k e
  b.inv.length != 0 && (span 0 x.1).any (fun i => (span 0 x.2).any (fun j =>
    b.inv.contains (blockOf (accKeyAt t (shapeOf k e.sha.toNat) i j))))

/-- The causes an MEPI raises at issue (R194, R195, R201); INV is looked at once the MMACs it waits for have retired (R187). -/
def epiCheck (s : State) (k : Core) (b : Sub) (c : Ctx) (e : MepiF) (dest : Option MDest) : Option (BitVec 8 × Word) :=
  let ta := tileOf k e.ha.toNat
  let tc := tileOf k e.hc.toNat
  let tw := tileOf k e.hw.toNat
  let sa := shapeOf k e.sha.toNat
  let sc := shapeOf k e.shc.toNat
  let x := epiExtent k e
  let tile := fun h => tileEval h c.pc
  let pt := partOf s (unitOf k c.slot).part
  firstCheck
    [(!mayName ta c.uid || !ta.acc || ta.sub.toNat != c.strm || !shapeInside sa ta x.1 x.2, cTILE, tile e.ha),
     (dest.isNone && (!mayName tc c.uid || tc.acc || tc.pl != 0 || tc.fmt != e.fmt), cTILE, tile e.hc),
     (sc.rowstr == 0 || sc.colstr == 0, cOPERAND, pcEval c.pc),
     (!shapeFits sc x.1 x.2 || (dest.isNone && !shapeInside sc tc x.1 x.2), cTILE, tile e.hc),
     (e.hw != 0 && (!mayName tw c.uid || tw.acc || tw.pl != 0 || tw.fmt != fmtCode .f32
        || ((e.scm == 2 || e.bias) && tileCols tw < x.2) || (e.bias && tileRows tw < 2)), cTILE, tile e.hw),
     (match dest with
      | some d => !(pt.fablo ≤ d.pkg.toNat && d.pkg.toNat ≤ pt.fabhi)
      | none => false, cWINDOW, pcEval c.pc),
     (!macWritesTile b e.ha && epiTouchesInv k b e, cTILE, tile e.ha)]

/-- Whether an MEPI reads an uncorrectable word of its parameters: element (0, 0) or row 0 for the scale, row 1 for the bias (R188,
R195). -/
def epiSpoilt (k : Core) (e : MepiF) : Bool :=
  let tw := tileOf k e.hw.toNat
  let cols := (epiExtent k e).2
  let rowWords := fun r n => (span 0 n).map (fun j => elemBit tw r j / 32)
  e.hw != 0 && spoilt k tw ((if e.scm = 1 then rowWords 0 1 else if e.scm = 2 then rowWords 0 cols else [])
    ++ (if e.bias then rowWords 1 cols else []))

/-- Element (i, j) of an MEPI's operand as it is delivered (R195, R196). -/
def epiElem (k : Core) (b : Sub) (e : MepiF) (i j : Nat) : Nat :=
  let ta := tileOf k e.ha.toNat
  let tw := tileOf k e.hw.toNat
  let out := (fmtOfCode e.fmt).getD .f32
  let bits := (accElem b (accKeyAt ta (shapeOf k e.sha.toNat) i j)).toNat
  let x := elemVal (tileFmt ta) bits
  if e.scm != 0 || e.bias || e.act.toNat ≥ 2 then
    let sc := if e.scm = 0 then XVal.fin false 1 1
              else floatVal .f32 (tileElem k tw 0 (if e.scm = 1 then 0 else j))
    let bi := if e.bias then floatVal .f32 (tileElem k tw 1 j) else XVal.fin false 0 1
    let y := roundFloat .f32 0 false (xadd 0 (xmul x sc) bi)
    convert .f32 out e.rnd e.sat (activation e.act.toNat y)
  else if e.act = 1 then
    if fmtFloat (tileFmt ta) then convert .f32 out e.rnd e.sat (activation 1 bits)
    else convert .i32 out e.rnd e.sat (if 0 < intVal .i32 bits then bits else 0)
  else convert (tileFmt ta) out e.rnd e.sat bits

/-- A list of words by index with the bits of one element merged in (R197). -/
def mergeWord (w bit n v : Nat) : List (Nat × Lane × Lane) → List (Nat × Lane × Lane)
  | [] => [(w, BitVec.ofNat 32 (v * 2 ^ bit), BitVec.ofNat 32 ((2 ^ n - 1) * 2 ^ bit))]
  | (x, d, m) :: rest =>
    if x = w then (x, d ||| BitVec.ofNat 32 (v * 2 ^ bit), m ||| BitVec.ofNat 32 ((2 ^ n - 1) * 2 ^ bit)) :: rest
    else if w < x then (w, BitVec.ofNat 32 (v * 2 ^ bit), BitVec.ofNat 32 ((2 ^ n - 1) * 2 ^ bit)) :: (x, d, m) :: rest
    else (x, d, m) :: mergeWord w bit n v rest

/-- The 4-byte words, data and masks of a tile that a list of elements covers, in ascending order (R197). -/
def wordsOf (t : Tile) : List (Nat × Nat × Nat) → List (Nat × Lane × Lane)
  | [] => []
  | (r, c, v) :: rest =>
    mergeWord (elemBit t r c / 32) (elemBit t r c % 32) (fmtBits (tileFmt t)) v (wordsOf t rest)

/-- The source key of RANKED reception (R349). -/
def rankKey (core sub : Nat) : Nat := ownPkg * 4096 + core * 8 + sub

/-- The local deposits of an MEPI, row by row (R186, R197). -/
def epiDeposits (k : Core) (b : Sub) (c : Ctx) (e : MepiF) (clk : Nat) : List Deposit :=
  let tc := tileOf k e.hc.toNat
  let sc := shapeOf k e.shc.toNat
  let x := epiExtent k e
  (span 0 x.1).flatMap (fun i =>
    (wordsOf tc ((span 0 x.2).map (fun j =>
      ((shapeElem sc i j).1.toNat, (shapeElem sc i j).2.toNat, epiElem k b e i j)))).map (fun w =>
      { src := .mat c.core c.strm b.nextId, core := c.core, handle := e.hc, gen := tc.gen, word := w.1, data := w.2.1
        mask := w.2.2, kind := if e.aow then .sum ((fmtOfCode e.fmt).getD .f32) else .write
        ranked := if e.ranked then some (rankKey c.core c.strm) else none, cls := e.cls
        due := clk + 8 + (i + 1) * ceilDiv x.2 128, held := false, bad := false }))

/-- The rows a remote MEPI hands to egress (R194, R198). -/
def epiRows (k : Core) (b : Sub) (c : Ctx) (e : MepiF) (d : MDest) : List RemoteRow :=
  let sc := shapeOf k e.shc.toNat
  let x := epiExtent k e
  (span 0 x.1).map (fun i =>
    { srcPkg := ownPkg, srcCore := c.core, srcSub := c.strm, srcSlot := c.slot, srcUid := c.uid, srcId := b.nextId
      pc := c.pc, srcRow := i, dstPkg := d.pkg.toNat, core := d.core.toNat, handle := e.hc, gen := d.gen, fmt := e.fmt
      cls := e.cls, add := e.aow, ranked := e.ranked
      elems := (span 0 x.2).map (fun j =>
        { r := (shapeElem sc i j).1, c := (shapeElem sc i j).2, bits := BitVec.ofNat 32 (epiElem k b e i j) }) })

/-- The blocks an MEPI's source operand touches. -/
def epiBlocks (k : Core) (e : MepiF) : List Nat :=
  let x := epiExtent k e
  distinct (((span 0 x.1).flatMap (fun i => (span 0 x.2).map (accKeyAt (tileOf k e.ha.toNat) (shapeOf k e.sha.toNat) i))).map blockOf)

/-- The sub-array with an MEPI's source rows zeroed and their INV marks cleared, when ZACC is set (R197). -/
def epiZero (k : Core) (e : MepiF) (b : Sub) : Sub :=
  if e.zacc then
    let t := tileOf k e.ha.toNat
    let x := epiExtent k e
    let keys := (span 0 x.1).flatMap (fun i => (span 0 x.2).map (accKeyAt t (shapeOf k e.sha.toNat) i))
    { b with acc := b.acc.filter (fun a => !keys.contains a.1), inv := b.inv.filter (fun y => !(keys.map blockOf).contains y) }
  else b

/-- TE of R186. -/
def epiClocks (k : Core) (e : MepiF) : Nat := 8 + (epiExtent k e).1 * ceilDiv (epiExtent k e).2 128

/-- MEPI, local (`dest` none) or remote (R194 to R198). -/
def mepiAct (c : Ctx) (f : MIssue) (e : MepiF) (dest : Option MDest) (i : Instr) (s : State) : SAct :=
  let k := getCore s c.core
  let b := ctxSub k c
  let ta := tileOf k e.ha.toNat
  let tc := tileOf k e.hc.toNat
  let tw := tileOf k e.hw.toNat
  let due := s.clk + epiClocks k e
  let zeroed := if e.zacc then epiBlocks k e else []
  let hwReady := e.hw == 0 || (isFull tw s.clk && storageIn tw)
  let ready := hwReady && storageIn ta && b.drainFree ≤ s.clk
    && b.flights.all (fun g => match g.effect with
        | .epiRemote _ rows => rows.isEmpty
        | _ => true)
    && (dest.isSome || (!isFull tc s.clk && storageIn tc))
  matrixAct c f i (matFieldsOk f && mepiFieldsOk e) (epiCheck s k b c e dest) ready (!macWritesTile b e.ha) 1
    { due := due, mark := f.mark, handles := (if e.hw = 0 then [] else [e.hw]) ++ [e.ha] ++ (if dest.isSome then [] else [e.hc])
      effect := match dest with
        | some d => .epiRemote e.ha (epiRows k b c e d)
        | none => .epi e.ha
      blocks := zeroed, accdis := false, mepi := true
      out := match dest with
        | some _ => (epiExtent k e).1
        | none => (epiDeposits k b c e s.clk).length
      sets := [], clears := zeroed, dirt := zeroed, bad := epiSpoilt k e }
    (fun x => { epiZero k e x with drainFree := if dest.isSome then x.drainFree else due })
    (if dest.isSome then [] else epiDeposits k b c e s.clk) s

/-! ## Retirement (R186, R188, R189, R199, R200) -/

/-- Whether a word may retire: its clock has come, its deposits are counted, its remote rows handed over (R186, R197). -/
def mayRetire (s : State) (core n : Nat) (f : MFlight) : Bool :=
  !f.retired && f.due ≤ s.clk && !hasDeps s (.mat core n f.id)
  && (match f.effect with
      | .epiRemote _ rows => rows.isEmpty
      | _ => true)

/-- The word of a list that retires next: the earliest due. -/
def firstDue : List MFlight → Option MFlight
  | [] => none
  | f :: fs => match firstDue fs with
    | none => some f
    | some g => if g.due < f.due then some g else some f

/-- The sub-array with a word's effect at retirement, and whether the word faults (R188, R189, R199): an MMAC marks the blocks it
wrote INV where it met a reserved code, and clears the mark of those it wrote whole with ACCDIS (R46, R193, R201). -/
def retireEffect (k : Core) (b : Sub) (f : MFlight) : Sub × Bool :=
  match f.effect with
  | .load t hw L clr br0 bc0 => loadSet k b t f.issue hw L clr br0 bc0
  | .mac _ blocks bad clears => ({ b with inv := markInv b.inv (if bad then blocks else []) clears }, bad)
  | .epiRemote _ _ => ({ b with erow := 0 }, false)
  | .again bad => (b, bad)
  | _ => (b, false)

/-- The sub-array with what the retirement of a load has met kept in its window for a replay (R203). -/
def keepMet (b : Sub) (f : MFlight) (bad : Bool) : Sub :=
  match f.effect with
  | .load _ _ _ _ _ _ => { b with win := b.win.map (fun w => if w.id = f.id then { w with effect := .again bad } else w) }
  | _ => b

/-- The granules of the weight set a retiring word writes (R378). -/
def retireDirt (n : Nat) (b : Sub) (f : MFlight) : List (Nat × Nat) :=
  let base := (2 * n + (if b.actsel then 0 else 1)) * 128
  match f.effect with
  | .load t _ _ clr br0 bc0 =>
    ((if clr then (span 0 b.h).flatMap (fun r => (span 0 b.w).map (brickKey r)) else loadedBricks t br0 bc0)).map (fun x => (14, base + x))
  | _ => []

/-- The core with a matrix word finished or left waiting for its remote rows, MCNT advanced when it is marked and does not
fault (R93, R200). -/
def retireWord (k : Core) (n : Nat) (b : Sub) (f : MFlight) (bad : Bool) : Core :=
  let flights := if f.unacked = 0 then b.flights.filter (fun g => g.id != f.id)
    else b.flights.map (fun g => if g.id = f.id then { g with retired := true, unacked := f.unacked } else g)
  let b1 := { b with
    flights := flights
    mcnt := if f.mark && !bad then b.mcnt + 1 else b.mcnt
    age := if f.mark && !bad then 0 else b.age
    touched := if f.mark && !bad then [] else b.touched }
  let k1 := { k with subs := mapSet k.subs n b1 }
  settle (if f.unacked = 0 then giveToken k1 f.uid f.give else k1) n

/-- A word with its contributions that stand in landing rows counted among what it waits for to finish (R93, R197, R349). -/
def withParked (k : Core) (core n : Nat) (f : MFlight) : MFlight :=
  { f with unacked := f.unacked + (k.parked.filter (fun p => p.src == .mat core n f.id)).length }

/-- The state with a word of a sub-array retired. -/
def retireOne (s : State) (core n : Nat) (b : Sub) (f0 : MFlight) : State :=
  let k := getCore s core
  let f := withParked k core n f0
  let r := retireEffect k b f
  let k0 := { k with dirty := addDirties k.dirty (retireDirt n b f) }
  let t0 := setCore s core (retireWord k0 n (keepMet r.1 f r.2) f r.2)
  let t := if f.mark && !r.2 then marksChanged t0 else t0
  if r.2 then streamFault t core f.slot n cOPERAND (pcEval f.pc) else t

/-- WORD_RETIREMENT (R186, R200). -/
def execWordRetirement (core sub : Nat) (s : State) : Host.Outcome State Fault Refusal :=
  match subOf (getCore s core) sub with
  | none => .next s
  | some b =>
    match firstDue (b.flights.filter (mayRetire s core sub)) with
    | none => .next s
    | some f => .next (retireOne s core sub b f)

end Sys2Proof.Machine
end

