-- ==== Sys2Proof/Machine/Sequencers.lean ====
section
/-! DEFINITION. The sequencers: what each vector and matrix word comes to next to issue, the control words, forked issue, REP
steps, modulo slots and courses (R19, R22, R100 to R114, R206, R364). -/
namespace Sys2Proof.Machine

/-! ## Control words (R100 to R104, R110, R206) -/

/-- Loop counter `n` of a stream (R101). -/
def lcOf (m : Strm) (n : BitVec 2) : BitVec 16 :=
  match n.toNat with
  | 0 => m.lc0 | 1 => m.lc1 | 2 => m.lc2 | _ => m.lc3

/-- The stream with loop counter `n` written (R101). -/
def withLc (m : Strm) (n : BitVec 2) (v : BitVec 16) : Strm :=
  match n.toNat with
  | 0 => { m with lc0 := v } | 1 => { m with lc1 := v } | 2 => { m with lc2 := v } | _ => { m with lc3 := v }

/-- The state with the stream of a context changed. -/
def setStrm (s : State) (c : Ctx) (f : Strm → Strm) : State :=
  let k := getCore s c.core
  setCore s c.core (withStrm k c.strm (f (strmOf k c.uid c.strm)))

/-- The stream of a context. -/
def ctxStrm (s : State) (c : Ctx) : Strm := strmOf (getCore s c.core) c.uid c.strm

/-- VLOOP and MLOOP (R101). -/
def loopStrm (m : Strm) (lc : BitVec 2) (src : Bool) (value : BitVec 16) : Strm :=
  withLc m lc (if src then lcOf m (value.setWidth 2) else value)

/-- Whether a knot of the core is set (R97). -/
def knotSet (s : State) (core : Nat) (k : BitVec 4) : Bool := (getCore s core).knots.getLsbD k.toNat

/-- A branch's way: taken to a word, or on to the next (R102). -/
def branchTo (taken : Bool) (target : BitVec 13) : Option (BitVec 14) := if taken then some (target.setWidth 14) else none

/-- A control word of the vector stream: an OPERAND fault unless `ok`, and in a course COURSE must be set (R100, R105). -/
def vctl (c : Ctx) (ok course : Bool) (r : SAct) : SAct :=
  if !ok || (c.bound && !course) then .fault cOPERAND (pcEval c.pc) else r

/-- VBR.LOOP and MBR.LOOP: the counter decremented, and the branch taken while it is not zero (R102). -/
def branchLoop (c : Ctx) (lc : BitVec 2) (target : BitVec 13) (s : State) : SAct :=
  let v := lcOf (ctxStrm s c) lc - 1
  .go (setStrm s c (fun m => withLc m lc v)) 1 (branchTo (v != 0) target)

/-- VBR.END and MBR.END: no further word issues (R102). -/
def branchEnd (c : Ctx) (s : State) : SAct :=
  .go (setStrm s c (fun m => { m with mode := .stopping })) 1 (some c.pc)

/-- The raw word at a place of a stream's instruction memory. -/
def rawWord (k : Core) (strm pc : Nat) : Nat :=
  if strm = 8 then (mapGet 0 k.imemV pc).toNat else (mapGet 0 k.imemM pc).toNat

/-- The opcode of a raw word (R35, R39). -/
def rawOpcode (strm w : Nat) : Nat := if strm = 8 then w / 2 ^ 88 % 256 else w / 2 ^ 184 % 256

/-- Whether a raw word is a control word, VNOP not among them (R92, R100). -/
def rawControl (strm w : Nat) : Bool :=
  if strm = 8 then 0x70 ≤ rawOpcode strm w && rawOpcode strm w ≤ 0x76
  else 0x08 ≤ rawOpcode strm w && rawOpcode strm w ≤ 0x0B

/-- Whether a raw word is VNOP or MNOP. -/
def rawNop (strm w : Nat) : Bool := rawOpcode strm w == (if strm = 8 then 0x77 else 0x0C)

/-- The body words of a modulo loop after word `pc` (R110). -/
def loopBody (k : Core) (strm pc len : Nat) : List Nat := (span (pc + 1) len).map (rawWord k strm)

/-- Whether two body words that are not no-operations have offsets congruent modulo the interval (R110). -/
def congruent (strm ii : Nat) (body : List Nat) : Bool :=
  let busy := (span 0 body.length).filter (fun w => !rawNop strm ((nth body w).getD 0))
  busy.any (fun a => busy.any (fun b => a < b && a % ii == b % ii))

/-- VMOD and MMOD (R110). -/
def modulo (c : Ctx) (lenm1 iim1 : BitVec 6) (tsrc : Bool) (trips : BitVec 16) (exk : BitVec 4) (exs : Bool) (s : State) : SAct :=
  let k := getCore s c.core
  let len := lenm1.toNat + 1
  let ii := iim1.toNat + 1
  let body := loopBody k c.strm c.pc.toNat len
  let spoiled := (span (c.pc.toNat + 1) len).any (fun w => k.badWords.contains (if c.strm = 8 then w else 8192 + w))
  let T := if tsrc then (lcOf (ctxStrm s c) (trips.setWidth 2)).toNat else trips.toNat
  if ii > len || c.pc.toNat + len > 8191 || body.any (rawControl c.strm) || congruent c.strm ii body || (tsrc && trips.toNat > 3) then
    .fault cOPERAND (pcEval c.pc)
  else if spoiled then .fault cUNCORR (pcEval c.pc)
  else if T = 0 then .go s 1 (some (c.pc + 1 + BitVec.ofNat 14 len))
  else
    let x : ModState :=
      { len := len, ii := ii, tcur := T, t := 0, exk := exk, exs := exs
        ctr := if tsrc then some (trips.setWidth 2) else none, begun := false, body := body }
    .go (setStrm s c (fun m => { m with mod := some x })) 1 (some c.pc)

/-- VWAIT and MWAIT on a knot: the word waits for the sense it names (R104); in a course that VWAIT ends, the stream is left at
the word (R107). -/
def knotHold (c : Ctx) (leave : Bool) (k : BitVec 4) (sense : Bool) (s : State) : SAct :=
  if leave then .go s 1 (some c.pc)
  else if knotSet s c.core k == sense then .go s 1 none
  else .notReady

/-- VSHAPE (R206). -/
def shapeWord (c : Ctx) (rowsm1 : BitVec 6) (lanesm1 : BitVec 5) (s : State) : SAct :=
  let k := getCore s c.core
  .go (setCore s c.core { k with vec := { k.vec with rows := rowsm1.toNat + 1, lanes := lanesm1.toNat + 1 } }) 1 none

/-- VKNOT.SET and VKNOT.CLR (R97, R103). -/
def knotWord (c : Ctx) (k : BitVec 4) (v : Bool) (s : State) : SAct :=
  .go (setCore s c.core (postKnot (getCore s c.core) (s.clk + 1) 0 k v)) 1 none

/-- What a matrix control word that has passed the gate comes to: launched once its own condition lets it go (R100, R200). -/
def mlaunch (c : Ctx) (m : MCtl) (i : Instr) (clk : Nat) (r : SAct) : SAct :=
  match r with
  | .go t occ tgt =>
    let k1 := getCore t c.core
    let b := launchWord (ctxSub k1 c) c clk 0xF i (plainLaunch clk m.mark)
    .go (setCore t c.core { k1 with subs := mapSet k1.subs c.strm b }) occ tgt
  | r => r

/-- The gate of a matrix control word (R100, R109). -/
def mgate (c : Ctx) (m : MCtl) (ok : Bool) (s : State) : Gate :=
  gate (getCore s c.core) s.clk c (ok && stampOk m.stampen m.stamp) 0xF 0xF 0xF (if m.stampen then some m.stamp else none) none true true

/-- A matrix control word but MWAIT (R100, R200). -/
def mctl (c : Ctx) (m : MCtl) (i : Instr) (ok : Bool) (s : State) (f : State → SAct) : SAct :=
  passGate (mgate c m ok s) (mlaunch c m i s.clk (f s))

/-- The stream of a context left at its MWAIT, whose gate has been passed (R107). -/
def holdAtWait (c : Ctx) (s : State) : SAct := .go (setStrm s c (fun x => { x with passed := true })) 1 (some c.pc)

/-- MWAIT (R104, R107): with the last course of a group it passes its gate and is left to wait in forked mode; one that has passed
its gate, or passes it now, goes on once `f` lets it. The wait is none of the readiness conditions a stamp holds to (R109). -/
def mwaitAct (c : Ctx) (leave : Bool) (m : MCtl) (i : Instr) (s : State) (f : State → SAct) : SAct :=
  if (ctxStrm s c).passed then mlaunch c m i s.clk (f (setStrm s c (fun x => { x with passed := false })))
  else if leave then passGate (mgate c m true s) (holdAtWait c s)
  else
    passGate (mgate c m true s)
      (match f s with
       | .notReady => if m.stampen && !c.bound then holdAtWait c s else .notReady
       | r => mlaunch c m i s.clk r)

/-! ## What each word comes to -/

/-- The operation of a vector word that the pipes work on row by row (R37, R103). -/
def vinOfInstr : Instr → Option (VIn × BitVec 4)
  | .vadd w => some (vinOf .add 0 w, 0)
  | .vsub w => some (vinOf .sub 0 w, 0)
  | .vmul w => some (vinOf .mul 0 w, 0)
  | .vfma w => some (vinOf .fma 0 w, 0)
  | .vfms w => some (vinOf .fms 0 w, 0)
  | .vnfma w => some (vinOf .nfma 0 w, 0)
  | .vmin w => some (vinOf .min 0 w, 0)
  | .vmax w => some (vinOf .max 0 w, 0)
  | .vabs w => some (vinOf .abs 0 w, 0)
  | .vneg w => some (vinOf .neg 0 w, 0)
  | .vscale w => some (vinOf .scale 0 w, 0)
  | .vrcp w => some (vinOf .rcp 0 w, 0)
  | .vrsq w => some (vinOf .rsq 0 w, 0)
  | .vexp2 w => some (vinOf .exp2 0 w, 0)
  | .vlog2 w => some (vinOf .log2 0 w, 0)
  | .vtanh w => some (vinOf .tanh 0 w, 0)
  | .vsigm w => some (vinOf .sigm 0 w, 0)
  | .vsinpi w => some (vinOf .sinpi 0 w, 0)
  | .vcospi w => some (vinOf .cospi 0 w, 0)
  | .vand w => some (vinOf .and 0 w, 0)
  | .vor w => some (vinOf .or 0 w, 0)
  | .vxor w => some (vinOf .xor 0 w, 0)
  | .vnot w => some (vinOf .not 0 w, 0)
  | .vshl w => some (vinOf .shl 0 w, 0)
  | .vshr w => some (vinOf .shr 0 w, 0)
  | .vsra w => some (vinOf .sra 0 w, 0)
  | .vclmul w => some (vinOf .clmul 0 w, 0)
  | .vclmulh w => some (vinOf .clmulh 0 w, 0)
  | .vpopc w => some (vinOf .popc 0 w, 0)
  | .vcmpeq w => some (vinOf .cmpeq 0 w, 0)
  | .vcmplt w => some (vinOf .cmplt 0 w, 0)
  | .vcmple w => some (vinOf .cmple 0 w, 0)
  | .vsel w => some (vinOf .sel 0 w, 0)
  | .vclass w => some (vinOf .cls 0 w, 0)
  | .vrnd w => some (vinOf .rnd 0 w, 0)
  | .vrsum w => some (vinOf .rsum 0 w, 0)
  | .vrmax w => some (vinOf .rmax 0 w, 0)
  | .vrmin w => some (vinOf .rmin 0 w, 0)
  | .vrarg w => some (vinOf .rarg 0 w, 0)
  | .vcsum w => some (vinOf .csum 0 w, 0)
  | .vmov w => some (vinOf .mov 0 w, 0)
  | .vbcastElem w => some (vinOf .bcastElem 0 w, 0)
  | .vbcastRow0 w => some (vinOf .bcastRow0 0 w, 0)
  | .vtrn w => some (vinOf .trn 0 w, 0)
  | .vrot w => some (vinOf .rot 0 w, 0)
  | .vpackCat w => some (vinOf .packCat 0 w, 0)
  | .vpackZip w => some (vinOf .packZip 0 w, 0)
  | .vunpkLo w => some (vinOf .unpkLo 0 w, 0)
  | .vunpkHi w => some (vinOf .unpkHi 0 w, 0)
  | .vunpkEven w => some (vinOf .unpkEven 0 w, 0)
  | .vunpkOdd w => some (vinOf .unpkOdd 0 w, 0)
  | .vperm w => some (vinOf .perm 0 w, 0)
  | .vcvt src w => some (vinOf .cvt src w, 0)
  | .vldt w => some (vinTile .ldt w, 0)
  | .vstt w => some (vinTile .stt w, 0)
  | .vknotAny k src course => some (vinCtl .knotAny src 0xF 0xF 0xF course, k)
  | .vknotAll k src course => some (vinCtl .knotAll src 0xF 0xF 0xF course, k)
  | .vnop kpred take give course => some (vinCtl .nop 0 kpred take give course, 0)
  | _ => none

/-- What a vector control word comes to; `leave` in a course that VWAIT ends (R101 to R107, R113). -/
def vectorCtl (c : Ctx) (i : Instr) (s : State) : SAct :=
  match i with
  | .vshape r l course => vctl c true course (shapeWord c r l s)
  | .vloop lc src value course =>
    vctl c (loopValueOk src value) course (.go (setStrm s c (fun m => loopStrm m lc src value)) 1 none)
  | .vbrAlways target course => vctl c true course (.go s 1 (branchTo true target))
  | .vbrKset k target course => vctl c true course (.go s 1 (branchTo (knotSet s c.core k) target))
  | .vbrKclr k target course => vctl c true course (.go s 1 (branchTo (!knotSet s c.core k) target))
  | .vbrLoop lc target course => vctl c true course (branchLoop c lc target s)
  | .vbrEnd _ => vctl c (!c.bound) true (branchEnd c s)
  | .vmod len ii tsrc trips exk exs _ => vctl c (!c.bound) true (modulo c len ii tsrc trips exk exs s)
  | .vknotSet k course => vctl c true course (knotWord c k true s)
  | .vknotClr k course => vctl c true course (knotWord c k false s)
  | .vwaitSet k course => vctl c true course (knotHold c c.bound k true s)
  | .vwaitClr k course => vctl c true course (knotHold c c.bound k false s)
  | .vwaitDrain _ => vctl c (!c.bound) true (if inFlight (getCore s c.core) 8 then .notReady else .go s 1 none)
  | .rep nm1 _ => vctl c (!c.bound) true
      (.go (setStrm s c (fun m => { m with repn := nm1.setWidth 7 + 1, repcnt := nm1.setWidth 7 + 1 })) 1 none)
  | _ => .fault cILLEGAL (pcEval c.pc)

/-- What a vector word comes to next to issue; CHECK in place of everything else where the checker core disagrees on it (R23,
R369). -/
def vectorStep (c : Ctx) (i : Instr) (s : State) : SAct :=
  if (getCore s c.core).mismatch then .fault cCHECK (pcEval c.pc)
  else
    match vinOfInstr i with
    | some (v, k) => vectorAct c v k s
    | none => vectorCtl c i s

/-- What a matrix word comes to next to issue; `leave` in a course that VWAIT ends (R107). -/
def matrixStep (c : Ctx) (leave : Bool) (i : Instr) (s : State) : SAct :=
  match i with
  | .mldw f hw dprec clr br0 bc0 => mldwAct c f hw dprec clr br0 bc0 i s
  | .mswap f => mswapAct c f i s
  | .mmac f m => mmacAct c f m i s
  | .mepi f e => mepiAct c f e none i s
  | .mepiRemote f e d => mepiAct c f e (some d) i s
  | .mmark f => mmarkAct c f i s
  | .mnop f => mnopAct c f i s
  | .mloop m lc src value =>
    mctl c m i (loopValueOk src value) s (fun t => .go (setStrm t c (fun x => loopStrm x lc src value)) 1 none)
  | .mbrAlways m target => mctl c m i true s (fun t => .go t 1 (branchTo true target))
  | .mbrKset m k target => mctl c m i true s (fun t => .go t 1 (branchTo (knotSet t c.core k) target))
  | .mbrKclr m k target => mctl c m i true s (fun t => .go t 1 (branchTo (!knotSet t c.core k) target))
  | .mbrLoop m lc target => mctl c m i true s (branchLoop c lc target)
  | .mbrEnd m => mctl c m i (!c.bound) s (branchEnd c)
  | .mmod m len ii tsrc trips exk exs => mctl c m i true s (modulo c len ii tsrc trips exk exs)
  | .mwaitSet m k => mwaitAct c leave m i s (knotHold c false k true)
  | .mwaitClr m k => mwaitAct c leave m i s (knotHold c false k false)
  | .mwaitDrain m => mwaitAct c leave m i s (fun t => if inFlight (getCore t c.core) c.strm then .notReady else .go t 1 none)
  | _ => .fault cILLEGAL (pcEval c.pc)

/-- What the next word of a stream comes to. -/
def streamStep (c : Ctx) (leave : Bool) (i : Instr) (s : State) : SAct :=
  if c.strm = 8 then vectorStep c i s else matrixStep c leave i s

/-! ## Fetching (R19 to R21) -/

/-- What stands next in a stream: an instruction, one whose fields break their limits, no instruction, the end of the store, or a
word that is uncorrectable. -/
inductive Fetched where
  | instr (i : Instr)
  | operand
  | illegal
  | past
  | bad
  deriving DecidableEq, Repr

/-- A decoded word as fetched. -/
def fetchedOf : Decoded → Fetched
  | .instr i => .instr i
  | .operand _ => .operand
  | .illegal => .illegal

/-- A raw word of a stream decoded. -/
def fetchRaw (strm w : Nat) : Fetched := fetchedOf (if strm = 8 then decodeVector w else decodeMatrix w)

/-- The word at a stream's counter (R19, R367). -/
def fetchWord (k : Core) (strm pc : Nat) : Fetched :=
  if pc ≥ 8192 then .past
  else if k.badWords.contains (if strm = 8 then pc else 8192 + pc) then .bad
  else fetchRaw strm (rawWord k strm pc)

/-- The cause of a word found malformed: CHECK where the checker core disagrees on a vector word (R23). -/
def decodeCause (k : Core) (n : Nat) (cause : BitVec 8) : BitVec 8 := if n = 8 && k.mismatch then cCHECK else cause

/-- What a fetched word comes to (R21). -/
def fetchedStep (c : Ctx) (leave : Bool) (w : Fetched) (s : State) : SAct :=
  let bad := fun cause => SAct.fault (decodeCause (getCore s c.core) c.strm cause) (pcEval c.pc)
  match w with
  | .instr i => streamStep c leave i s
  | .operand => bad cOPERAND
  | .illegal => bad cILLEGAL
  | .past => bad cFETCH
  | .bad => bad cUNCORR

/-! ## Forked issue (R90, R102, R113, R186) -/

/-- The context of the next word of a stream. -/
def ctxOf (s : State) (core slot n : Nat) (bound : Bool) : Ctx :=
  let k := getCore s core
  let u := unitOf k slot
  let m := strmOf k u.uid n
  { core := core, slot := slot, uid := u.uid, strm := n, pc := m.pc
    step := if m.repcnt = 0 then 0 else m.repn.toNat - m.repcnt.toNat, rotb := m.rotb.toNat, bound := bound }

/-- The stretch of a matrix word's occupancy (R302). -/
def wordStretch (s : State) (c : Ctx) : Nat := if c.strm = 8 then 0 else stretchOf s c.core c.strm

/-- The state after a word of a forked stream: `adv` moves the stream past it. -/
def applyWordResult (s : State) (c : Ctx) (adv : Option (BitVec 14) → Strm → Strm) (r : SAct) : State :=
  match r with
  | .go t occ tgt =>
    let t1 := setStrm t c (fun m => { adv tgt m with issueAt := s.clk + occ + wordStretch s c })
    setCore t1 c.core (settle (getCore t1 c.core) c.strm)
  | .skipped => setStrm s c (fun m => { adv none m with issueAt := s.clk + 1 + wordStretch s c })
  | .notReady => s
  | .viol => streamFault s c.core c.slot c.strm cSCHEDVIOL (pcEval c.pc)
  | .fault cause eval => streamFault s c.core c.slot c.strm cause eval

/-- The stream past a word (R102). -/
def plainAdv (tgt : Option (BitVec 14)) (m : Strm) : Strm := { m with pc := tgt.getD (m.pc + 1) }

/-- The stream past a REP step (R113, R114). -/
def repAdv (_ : Option (BitVec 14)) (m : Strm) : Strm :=
  { m with repcnt := m.repcnt - 1, pc := if m.repcnt = 1 then m.pc + 1 else m.pc }

/-- Whether the forked stream of a slot stands at a plain word: no REP and no modulo loop under way. -/
def plainForked (s : State) (core slot n : Nat) : Bool :=
  let k := getCore s core
  let m := strmOf k (unitOf k slot).uid n
  mayIssue s core slot n && m.mode = .forked && m.mod.isNone && m.repcnt = 0

/-- A vector word at the counter of the forked vector stream of the core in focus (R90). -/
def vectorWord (i : Instr) (s : State) : Host.Outcome State Fault Refusal :=
  match vecSlot (curCore s) with
  | none => .next s
  | some slot =>
    if plainForked s s.focus.core slot 8 then
      let c := ctxOf s s.focus.core slot 8 false
      .next (applyWordResult s c plainAdv (vectorStep c i s))
    else .next s

/-- A matrix word at the counter of the forked matrix stream in focus (R90). -/
def matrixWord (i : Instr) (s : State) : Host.Outcome State Fault Refusal :=
  match matSlot (curCore s) s.focus.sub with
  | none => .next s
  | some slot =>
    if s.focus.sub < 8 && plainForked s s.focus.core slot s.focus.sub then
      let c := ctxOf s s.focus.core slot s.focus.sub false
      .next (applyWordResult s c plainAdv (matrixStep c false i s))
    else .next s

/-- The fault of a fetch or decode in an engine stream (R19, R21). -/
def streamDecodeFault (n : Nat) (slot : Option Nat) (cause : BitVec 8) (s : State) : State :=
  match slot with
  | none => s
  | some slot =>
    let k := curCore s
    let m := strmOf k (unitOf k slot).uid n
    if mayIssue s s.focus.core slot n && m.mode = .forked && m.mod.isNone then
      streamFault s s.focus.core slot n (decodeCause k n cause) (pcEval m.pc)
    else s

/-- A fetch or decode fault in the scalar stream (R19, R21, R124). -/
def scalarDecodeFault (cause : BitVec 8) (eval : Word) (s : State) : Host.Outcome State Fault Refusal :=
  scalarWord .nop (fun _ => .trap cause eval) s

/-- ILLEGAL (R20, R21): the next word of a stream of the agent in focus is no instruction. -/
def execIllegal (st : Stream) (s : State) : Host.Outcome State Fault Refusal :=
  match st with
  | .scalar => scalarDecodeFault cILLEGAL 0 s
  | .vector => .next (streamDecodeFault 8 (vecSlot (curCore s)) cILLEGAL s)
  | .matrix => .next (streamDecodeFault s.focus.sub (matSlot (curCore s) s.focus.sub) cILLEGAL s)

/-- FETCH (R19): the next word of a stream of the agent in focus cannot be fetched. -/
def execFetch (st : Stream) (s : State) : Host.Outcome State Fault Refusal :=
  match st with
  | .scalar => scalarDecodeFault cFETCH (getUnit s).pc s
  | .vector => .next (streamDecodeFault 8 (vecSlot (curCore s)) cFETCH s)
  | .matrix => .next (streamDecodeFault s.focus.sub (matSlot (curCore s) s.focus.sub) cFETCH s)

/-! ## REP (R113, R114) -/

/-- REP_STEP (R113): one step of the repeated word; a control word there raises OPERAND. -/
def execRepStep (core : Nat) (s : State) : Host.Outcome State Fault Refusal :=
  let k := getCore s core
  match vecSlot k with
  | none => .next s
  | some slot =>
    let m := strmOf k (unitOf k slot).uid 8
    if mayIssue s core slot 8 && m.mode = .forked && m.mod.isNone && m.repcnt != 0 then
      let c := ctxOf s core slot 8 false
      let r := if m.pc.toNat < 8192 && rawControl 8 (rawWord k 8 m.pc.toNat) then .fault (decodeCause k 8 cOPERAND) (pcEval c.pc)
        else fetchedStep c false (fetchWord k 8 m.pc.toNat) s
      .next (applyWordResult s c repAdv r)
    else .next s

/-! ## The modulo sequencer (R111, R112) -/

/-- The start of slot t: at a kernel step ROTB moves with k, and the exit knot ends the starting of iterations (R111). -/
def beginSlot (knots : BitVec 16) (vec : Bool) (m : Strm) (x : ModState) : Strm :=
  let k := x.t / x.ii
  if x.begun || x.t % x.ii ≠ 0 then { m with mod := some { x with begun := true } }
  else
    let stops := k < x.tcur && x.exk != 0xF && knots.getLsbD x.exk.toNat == x.exs
    { m with
      rotb := if vec && k > 0 then m.rotb - 1 else m.rotb
      mod := some { x with begun := true, tcur := if stops then k else x.tcur } }

/-- The body word due in slot t, if one is (R111). -/
def slotWord (strm : Nat) (x : ModState) : Option Nat :=
  (span 0 x.len).find? (fun w => w % x.ii == x.t % x.ii && w / x.ii ≤ x.t / x.ii && x.t / x.ii - w / x.ii < x.tcur
    && !rawNop strm ((nth x.body w).getD 0))

/-- The stream after slot t: the next slot, or the end of the loop (R111). -/
def slotAdv (_ : Option (BitVec 14)) (m : Strm) : Strm :=
  match m.mod with
  | none => m
  | some x =>
    if (x.t : Int) + 1 < ((x.tcur : Int) - 1) * x.ii + x.len then { m with mod := some { x with t := x.t + 1, begun := false } }
    else
      let m1 := { m with mod := none, rotb := 0, pc := m.pc + 1 + BitVec.ofNat 14 x.len }
      match x.ctr with
      | some n => withLc m1 n (BitVec.ofNat 16 x.tcur)
      | none => m1

/-- MODULO_SLOT (R111): one slot of a loop of stream 0 to 7 or 8. -/
def execModuloSlot (core stream : Nat) (s : State) : Host.Outcome State Fault Refusal :=
  let k := getCore s core
  match (if stream = 8 then vecSlot k else matSlot k stream) with
  | none => .next s
  | some slot =>
    let m := strmOf k (unitOf k slot).uid stream
    match m.mod with
    | none => .next s
    | some x =>
      if stream ≤ 8 && mayIssue s core slot stream && m.mode = .forked then
        let c0 := ctxOf s core slot stream false
        let s1 := setStrm s c0 (fun m => beginSlot k.knots (stream == 8) m x)
        let c := { ctxOf s1 core slot stream false with step := 0 }
        match slotWord stream (((strmOf (getCore s1 core) c.uid stream).mod).getD x) with
        | none => .next (setStrm s1 c (fun m => { slotAdv none m with issueAt := s.clk + 1 }))
        | some w =>
          let c1 := { c with pc := m.pc + 1 + BitVec.ofNat 14 w }
          .next (applyWordResult s1 c1 slotAdv (fetchedStep c1 false (fetchRaw stream ((nth x.body w).getD 0)) s1))
      else .next s

/-! ## Courses (R105 to R107, R109, R364) -/

/-- What a course makes of its words so far: the state, and each stream's context, word and result in order. -/
structure Course where
  state : State
  acts : List (Ctx × Fetched × SAct)

/-- The loop a stream stands in; one whose loop stands at a slot gives the slot's word to a course (R111). -/
def loopOf (s : State) (c : Ctx) : Option ModState := (ctxStrm s c).mod

/-- The next word of a bound stream with its context and result: the word at its counter, or in a modulo loop the word of the slot,
and nothing where the slot has none (R105, R111; log 52). -/
def courseWord (c : Ctx) (leave : Bool) (s : State) : Ctx × Fetched × SAct :=
  match loopOf s c with
  | none =>
    let w := fetchWord (getCore s c.core) c.strm c.pc.toNat
    (c, w, fetchedStep c leave w s)
  | some x =>
    match slotWord c.strm x with
    | none => (c, .past, .skipped)
    | some j =>
      let c1 := { c with pc := c.pc + 1 + BitVec.ofNat 14 j }
      let w := fetchRaw c.strm ((nth x.body j).getD 0)
      (c1, w, fetchedStep c1 leave w s)

/-- The words of a course evaluated in stream order, each on the state the words before it leave (R95). -/
def courseActs (core slot : Nat) (leave : Bool) : List Nat → Course → Course
  | [], x => x
  | n :: ns, x =>
    let a := courseWord (ctxOf x.state core slot n true) leave x.state
    let t := match a.2.2 with
      | .go t _ _ => t
      | _ => x.state
    courseActs core slot leave ns { state := t, acts := x.acts ++ [a] }

/-- The state with the slot of each bound stream in a modulo loop begun (R111). -/
def beginCourse (core slot : Nat) : List Nat → State → State
  | [], s => s
  | n :: ns, s =>
    let c := ctxOf s core slot n true
    beginCourse core slot ns (match loopOf s c with
      | none => s
      | some x => setStrm s c (fun m => beginSlot (getCore s core).knots false m x))

/-- The first fault of a course (R364). -/
def courseFault : List (Ctx × Fetched × SAct) → Option (Ctx × BitVec 8 × Word)
  | [] => none
  | (c, _, .fault cause eval) :: _ => some (c, cause, eval)
  | _ :: xs => courseFault xs

/-- Whether a word of a course is not ready (R105). -/
def courseWaits (xs : List (Ctx × Fetched × SAct)) : Bool :=
  xs.any (fun x => match x.2.2 with
    | .notReady => true
    | _ => false)

/-- The first word of a course that breaks R91 or R187. -/
def courseViol : List (Ctx × Fetched × SAct) → Option Ctx
  | [] => none
  | (c, _, .viol) :: _ => some c
  | _ :: xs => courseViol xs

/-- The kind of a branch: 0 ALWAYS, 1 KSET, 2 KCLR, 3 LOOP (R100). -/
def branchKind : Fetched → Option Nat
  | .instr (.vbrAlways _ _) | .instr (.mbrAlways _ _) => some 0
  | .instr (.vbrKset _ _ _) | .instr (.mbrKset _ _ _) => some 1
  | .instr (.vbrKclr _ _ _) | .instr (.mbrKclr _ _ _) => some 2
  | .instr (.vbrLoop _ _ _) | .instr (.mbrLoop _ _ _) => some 3
  | _ => none

/-- Whether a result is a branch taken. -/
def branchTaken : SAct → Bool
  | .go _ _ (some _) => true
  | _ => false

/-- Whether a course's branches disagree: the vector word branches and a matrix word is no branch of its kind, or goes the
other way (R106). The rule names SCHED_VIOL for branches that go different ways and no cause for a matrix stream without a branch of
that kind; the same is raised, at the vector stream (log 51). -/
def branchesDiffer (xs : List (Ctx × Fetched × SAct)) : Bool :=
  match xs with
  | [] => false
  | (_, w, r) :: rest =>
    match branchKind w with
    | none => false
    | some kd => rest.any (fun x => branchKind x.2.1 != some kd || branchTaken x.2.2 != branchTaken r)

/-- Whether a fetched word is VWAIT.SET or VWAIT.CLR, which ends the bound run (R107). -/
def endsCourse : Fetched → Bool
  | .instr (.vwaitSet _ _) | .instr (.vwaitClr _ _) => true
  | _ => false

/-- The sequencer occupancy of a result. -/
def actOcc : SAct → Nat
  | .go _ occ _ => occ
  | _ => 1

/-- The stretch a word of a course carries: each matrix word its own, a slot with nothing due none (R302). -/
def actStretch (s : State) (x : Ctx × Fetched × SAct) : Nat := if x.2.1 = .past then 0 else wordStretch s x.1

/-- The state with every stream of a course moved past its word, or its slot (R105, R111). -/
def courseAdvance (clk : Nat) (s0 : State) : List (Ctx × Fetched × SAct) → State → State
  | [], t => t
  | x :: xs, t =>
    let tgt := match x.2.2 with
      | .go _ _ tgt => tgt
      | _ => none
    let adv := if (loopOf s0 x.1).isSome then slotAdv else plainAdv
    courseAdvance clk s0 xs (setStrm t x.1 (fun m => { adv tgt m with issueAt := clk + actOcc x.2.2 + actStretch s0 x }))

/-- The greatest of a function over the results of a course. -/
def courseMax (f : Ctx × Fetched × SAct → Nat) (xs : List (Ctx × Fetched × SAct)) : Nat := xs.foldl (fun a x => max a (f x)) 0

/-- The clocks the throttle delays a course's successor by (R109, log 26). -/
def courseStretch (s : State) (xs : List (Ctx × Fetched × SAct)) : Nat :=
  courseMax (fun x => actOcc x.2.2 + actStretch s x) xs - courseMax (fun x => actOcc x.2.2) xs

/-- The state with a delay added to STAMPOFF of each matrix stream of a group (R109). -/
def addStampoff (s : State) (core slot : Nat) (d : Nat) : State :=
  let k := getCore s core
  let u := unitOf k slot
  setCore s core (mapStrms k u.uid (fun m => { m with stampoff := m.stampoff + BitVec.ofNat 40 d })
    ((maskStreams u.group).filter (fun n => n ≠ 8)))

/-- The state after a course has issued (R105, R107). -/
def courseDone (s : State) (core slot : Nat) (x : Course) (leave : Bool) : State :=
  let t1 := addStampoff (courseAdvance s.clk s x.acts x.state) core slot (courseStretch s x.acts)
  if leave then setCore t1 core (dissolveGroup (getCore t1 core) slot s.clk) else t1

/-- Whether every sequencer of a group may issue (R105). -/
def groupMayIssue (s : State) (core slot : Nat) : Bool :=
  let k := getCore s core
  let u := unitOf k slot
  u.group != 0 && (maskStreams u.group).all (fun n => mayIssue s core slot n && (strmOf k u.uid n).mode = .bound)

/-- Whether a group being stopped for a pre-emption stops at this course boundary (R373): no issued word has a row to land after it,
or 4,096 courses have followed the request. -/
def courseStops (s : State) (core slot : Nat) : Bool :=
  match s.preempts.find? (fun e => e.1 == 4 * core + slot) with
  | none => false
  | some e => e.2 = 0 || (getCore s core).vec.flights.all (fun f => (pendingWrites f).all (fun w => w.2 ≤ s.clk))

/-- The state with a course counted towards a pre-emption, and the first course after a return noted, from which the writes of a
latency shadow land (R373). -/
def countCourse (s : State) (core slot : Nat) : State :=
  let t := { s with preempts := s.preempts.map (fun e => if e.1 = 4 * core + slot then (e.1, e.2 - 1) else e) }
  setCore t core (baseShadow (getCore t core) s.clk)

/-- The state with the slots of a group's loops begun, and what its next course makes of its words from there. -/
def courseEval (core slot : Nat) (s : State) : State × Course :=
  let u := unitOf (getCore s core) slot
  let t := beginCourse core slot (maskStreams u.group) s
  (t, courseActs core slot (endsCourse (fetchWord (getCore s core) 8 (strmOf (getCore s core) u.uid 8).pc.toNat)) (maskStreams u.group)
    { state := t, acts := [] })

/-- The first stream of a core's next course whose word is not ready, if one is not (R95). -/
def courseBlock (core : Nat) (s : State) : Option Nat :=
  match vecSlot (getCore s core) with
  | none => none
  | some slot =>
    if groupMayIssue s core slot then
      ((courseEval core slot s).2.acts.find? (fun x => match x.2.2 with
        | .notReady => true
        | _ => false)).map (·.1.strm)
    else none

/-- COURSE_ISSUE (R105): the next course of the group that the vector stream of a core leads. -/
def execCourseIssue (core : Nat) (s : State) : Host.Outcome State Fault Refusal :=
  let k := getCore s core
  match vecSlot k with
  | none => .next s
  | some slot =>
    if groupMayIssue s core slot && !courseStops s core slot && !(unitOf k slot).leaving then
      let u := unitOf k slot
      let leave := endsCourse (fetchWord k 8 (strmOf k u.uid 8).pc.toNat)
      let e := courseEval core slot s
      let t := e.1
      let x := e.2
      match courseFault x.acts with
      | some (c, cause, eval) => .next (streamFault t core slot c.strm cause eval)
      | none =>
        if courseWaits x.acts then .next t
        else if branchesDiffer x.acts then .next (streamFault t core slot 8 cSCHEDVIOL (pcEval (strmOf k u.uid 8).pc))
        else
          match courseViol x.acts with
          | some c => .next (streamFault t core slot c.strm cSCHEDVIOL (pcEval c.pc))
          | none => .next (countCourse (courseDone t core slot x leave) core slot)
    else .next s

/-! ## The words one by one -/

/-- VADD (R211). -/
def execVadd (w : VWord) (s : State) : Host.Outcome State Fault Refusal :=
  vectorWord (.vadd w) s
/-- VSUB (R211). -/
def execVsub (w : VWord) (s : State) : Host.Outcome State Fault Refusal :=
  vectorWord (.vsub w) s
/-- VMUL (R211). -/
def execVmul (w : VWord) (s : State) : Host.Outcome State Fault Refusal :=
  vectorWord (.vmul w) s
/-- VFMA (R211). -/
def execVfma (w : VWord) (s : State) : Host.Outcome State Fault Refusal :=
  vectorWord (.vfma w) s
/-- VFMS (R211). -/
def execVfms (w : VWord) (s : State) : Host.Outcome State Fault Refusal :=
  vectorWord (.vfms w) s
/-- VNFMA (R211). -/
def execVnfma (w : VWord) (s : State) : Host.Outcome State Fault Refusal :=
  vectorWord (.vnfma w) s
/-- VMIN (R211). -/
def execVmin (w : VWord) (s : State) : Host.Outcome State Fault Refusal :=
  vectorWord (.vmin w) s
/-- VMAX (R211). -/
def execVmax (w : VWord) (s : State) : Host.Outcome State Fault Refusal :=
  vectorWord (.vmax w) s
/-- VABS (R211). -/
def execVabs (w : VWord) (s : State) : Host.Outcome State Fault Refusal :=
  vectorWord (.vabs w) s
/-- VNEG (R211). -/
def execVneg (w : VWord) (s : State) : Host.Outcome State Fault Refusal :=
  vectorWord (.vneg w) s
/-- VSCALE (R212). -/
def execVscale (w : VWord) (s : State) : Host.Outcome State Fault Refusal :=
  vectorWord (.vscale w) s
/-- VRCP (R213). -/
def execVrcp (w : VWord) (s : State) : Host.Outcome State Fault Refusal :=
  vectorWord (.vrcp w) s
/-- VRSQ (R213). -/
def execVrsq (w : VWord) (s : State) : Host.Outcome State Fault Refusal :=
  vectorWord (.vrsq w) s
/-- VEXP2 (R213). -/
def execVexp2 (w : VWord) (s : State) : Host.Outcome State Fault Refusal :=
  vectorWord (.vexp2 w) s
/-- VLOG2 (R213). -/
def execVlog2 (w : VWord) (s : State) : Host.Outcome State Fault Refusal :=
  vectorWord (.vlog2 w) s
/-- VTANH (R213). -/
def execVtanh (w : VWord) (s : State) : Host.Outcome State Fault Refusal :=
  vectorWord (.vtanh w) s
/-- VSIGM (R213). -/
def execVsigm (w : VWord) (s : State) : Host.Outcome State Fault Refusal :=
  vectorWord (.vsigm w) s
/-- VSINPI (R213). -/
def execVsinpi (w : VWord) (s : State) : Host.Outcome State Fault Refusal :=
  vectorWord (.vsinpi w) s
/-- VCOSPI (R213). -/
def execVcospi (w : VWord) (s : State) : Host.Outcome State Fault Refusal :=
  vectorWord (.vcospi w) s
/-- VAND (R214). -/
def execVand (w : VWord) (s : State) : Host.Outcome State Fault Refusal :=
  vectorWord (.vand w) s
/-- VOR (R214). -/
def execVor (w : VWord) (s : State) : Host.Outcome State Fault Refusal :=
  vectorWord (.vor w) s
/-- VXOR (R214). -/
def execVxor (w : VWord) (s : State) : Host.Outcome State Fault Refusal :=
  vectorWord (.vxor w) s
/-- VNOT (R214). -/
def execVnot (w : VWord) (s : State) : Host.Outcome State Fault Refusal :=
  vectorWord (.vnot w) s
/-- VSHL (R214). -/
def execVshl (w : VWord) (s : State) : Host.Outcome State Fault Refusal :=
  vectorWord (.vshl w) s
/-- VSHR (R214). -/
def execVshr (w : VWord) (s : State) : Host.Outcome State Fault Refusal :=
  vectorWord (.vshr w) s
/-- VSRA (R214). -/
def execVsra (w : VWord) (s : State) : Host.Outcome State Fault Refusal :=
  vectorWord (.vsra w) s
/-- VCLMUL (R214). -/
def execVclmul (w : VWord) (s : State) : Host.Outcome State Fault Refusal :=
  vectorWord (.vclmul w) s
/-- VCLMULH (R214). -/
def execVclmulh (w : VWord) (s : State) : Host.Outcome State Fault Refusal :=
  vectorWord (.vclmulh w) s
/-- VPOPC (R214). -/
def execVpopc (w : VWord) (s : State) : Host.Outcome State Fault Refusal :=
  vectorWord (.vpopc w) s
/-- VCMPEQ (R215). -/
def execVcmpeq (w : VWord) (s : State) : Host.Outcome State Fault Refusal :=
  vectorWord (.vcmpeq w) s
/-- VCMPLT (R215). -/
def execVcmplt (w : VWord) (s : State) : Host.Outcome State Fault Refusal :=
  vectorWord (.vcmplt w) s
/-- VCMPLE (R215). -/
def execVcmple (w : VWord) (s : State) : Host.Outcome State Fault Refusal :=
  vectorWord (.vcmple w) s
/-- VSEL (R215). -/
def execVsel (w : VWord) (s : State) : Host.Outcome State Fault Refusal :=
  vectorWord (.vsel w) s
/-- VCLASS (R216). -/
def execVclass (w : VWord) (s : State) : Host.Outcome State Fault Refusal :=
  vectorWord (.vclass w) s
/-- VCVT (R217). -/
def execVcvt (src : BitVec 4) (w : VWord) (s : State) : Host.Outcome State Fault Refusal :=
  vectorWord (.vcvt src w) s
/-- VRND (R218). -/
def execVrnd (w : VWord) (s : State) : Host.Outcome State Fault Refusal :=
  vectorWord (.vrnd w) s
/-- VRSUM (R220). -/
def execVrsum (w : VWord) (s : State) : Host.Outcome State Fault Refusal :=
  vectorWord (.vrsum w) s
/-- VRMAX (R219). -/
def execVrmax (w : VWord) (s : State) : Host.Outcome State Fault Refusal :=
  vectorWord (.vrmax w) s
/-- VRMIN (R219). -/
def execVrmin (w : VWord) (s : State) : Host.Outcome State Fault Refusal :=
  vectorWord (.vrmin w) s
/-- VRARG (R219). -/
def execVrarg (w : VWord) (s : State) : Host.Outcome State Fault Refusal :=
  vectorWord (.vrarg w) s
/-- VCSUM (R221). -/
def execVcsum (w : VWord) (s : State) : Host.Outcome State Fault Refusal :=
  vectorWord (.vcsum w) s
/-- VMOV (R222). -/
def execVmov (w : VWord) (s : State) : Host.Outcome State Fault Refusal :=
  vectorWord (.vmov w) s
/-- VBCAST_ELEM (R222). -/
def execVbcastElem (w : VWord) (s : State) : Host.Outcome State Fault Refusal :=
  vectorWord (.vbcastElem w) s
/-- VBCAST_ROW0 (R222). -/
def execVbcastRow0 (w : VWord) (s : State) : Host.Outcome State Fault Refusal :=
  vectorWord (.vbcastRow0 w) s
/-- VTRN (R223). -/
def execVtrn (w : VWord) (s : State) : Host.Outcome State Fault Refusal :=
  vectorWord (.vtrn w) s
/-- VROT (R224). -/
def execVrot (w : VWord) (s : State) : Host.Outcome State Fault Refusal :=
  vectorWord (.vrot w) s
/-- VPACK_CAT (R225). -/
def execVpackCat (w : VWord) (s : State) : Host.Outcome State Fault Refusal :=
  vectorWord (.vpackCat w) s
/-- VPACK_ZIP (R225). -/
def execVpackZip (w : VWord) (s : State) : Host.Outcome State Fault Refusal :=
  vectorWord (.vpackZip w) s
/-- VUNPK_LO (R225). -/
def execVunpkLo (w : VWord) (s : State) : Host.Outcome State Fault Refusal :=
  vectorWord (.vunpkLo w) s
/-- VUNPK_HI (R225). -/
def execVunpkHi (w : VWord) (s : State) : Host.Outcome State Fault Refusal :=
  vectorWord (.vunpkHi w) s
/-- VUNPK_EVEN (R225). -/
def execVunpkEven (w : VWord) (s : State) : Host.Outcome State Fault Refusal :=
  vectorWord (.vunpkEven w) s
/-- VUNPK_ODD (R225). -/
def execVunpkOdd (w : VWord) (s : State) : Host.Outcome State Fault Refusal :=
  vectorWord (.vunpkOdd w) s
/-- VPERM (R226). -/
def execVperm (w : VWord) (s : State) : Host.Outcome State Fault Refusal :=
  vectorWord (.vperm w) s
/-- VLDT (R228). -/
def execVldt (w : VTile) (s : State) : Host.Outcome State Fault Refusal :=
  vectorWord (.vldt w) s
/-- VSTT (R229). -/
def execVstt (w : VTile) (s : State) : Host.Outcome State Fault Refusal :=
  vectorWord (.vstt w) s
/-- VSHAPE (R206). -/
def execVshape (rowsm1 : BitVec 6) (lanesm1 : BitVec 5) (course : Bool) (s : State) : Host.Outcome State Fault Refusal :=
  vectorWord (.vshape rowsm1 lanesm1 course) s
/-- VLOOP (R101). -/
def execVloop (lc : BitVec 2) (src : Bool) (value : BitVec 16) (course : Bool) (s : State) : Host.Outcome State Fault Refusal :=
  vectorWord (.vloop lc src value course) s
/-- VBR_ALWAYS (R102). -/
def execVbrAlways (target : BitVec 13) (course : Bool) (s : State) : Host.Outcome State Fault Refusal :=
  vectorWord (.vbrAlways target course) s
/-- VBR_KSET (R102). -/
def execVbrKset (k : BitVec 4) (target : BitVec 13) (course : Bool) (s : State) : Host.Outcome State Fault Refusal :=
  vectorWord (.vbrKset k target course) s
/-- VBR_KCLR (R102). -/
def execVbrKclr (k : BitVec 4) (target : BitVec 13) (course : Bool) (s : State) : Host.Outcome State Fault Refusal :=
  vectorWord (.vbrKclr k target course) s
/-- VBR_LOOP (R102). -/
def execVbrLoop (lc : BitVec 2) (target : BitVec 13) (course : Bool) (s : State) : Host.Outcome State Fault Refusal :=
  vectorWord (.vbrLoop lc target course) s
/-- VBR_END (R102). -/
def execVbrEnd (course : Bool) (s : State) : Host.Outcome State Fault Refusal :=
  vectorWord (.vbrEnd course) s
/-- VMOD (R110). -/
def execVmod (lenm1 : BitVec 6) (iim1 : BitVec 6) (tsrc : Bool) (trips : BitVec 16) (exk : BitVec 4) (exs : Bool) (course : Bool) (s : State) : Host.Outcome State Fault Refusal :=
  vectorWord (.vmod lenm1 iim1 tsrc trips exk exs course) s
/-- VKNOT_SET (R103). -/
def execVknotSet (k : BitVec 4) (course : Bool) (s : State) : Host.Outcome State Fault Refusal :=
  vectorWord (.vknotSet k course) s
/-- VKNOT_CLR (R103). -/
def execVknotClr (k : BitVec 4) (course : Bool) (s : State) : Host.Outcome State Fault Refusal :=
  vectorWord (.vknotClr k course) s
/-- VKNOT_ANY (R103). -/
def execVknotAny (k : BitVec 4) (src : BitVec 16) (course : Bool) (s : State) : Host.Outcome State Fault Refusal :=
  vectorWord (.vknotAny k src course) s
/-- VKNOT_ALL (R103). -/
def execVknotAll (k : BitVec 4) (src : BitVec 16) (course : Bool) (s : State) : Host.Outcome State Fault Refusal :=
  vectorWord (.vknotAll k src course) s
/-- VWAIT_SET (R104). -/
def execVwaitSet (k : BitVec 4) (course : Bool) (s : State) : Host.Outcome State Fault Refusal :=
  vectorWord (.vwaitSet k course) s
/-- VWAIT_CLR (R104). -/
def execVwaitClr (k : BitVec 4) (course : Bool) (s : State) : Host.Outcome State Fault Refusal :=
  vectorWord (.vwaitClr k course) s
/-- VWAIT_DRAIN (R104). -/
def execVwaitDrain (course : Bool) (s : State) : Host.Outcome State Fault Refusal :=
  vectorWord (.vwaitDrain course) s
/-- REP (R113). -/
def execRep (nm1 : BitVec 6) (course : Bool) (s : State) : Host.Outcome State Fault Refusal :=
  vectorWord (.rep nm1 course) s
/-- VNOP (R100). -/
def execVnop (kpred : BitVec 4) (take : BitVec 4) (give : BitVec 4) (course : Bool) (s : State) : Host.Outcome State Fault Refusal :=
  vectorWord (.vnop kpred take give course) s
/-- MLDW (R189). -/
def execMldw (f : MIssue) (hw : BitVec 12) (dprec : BitVec 4) (clr : Bool) (br0 : BitVec 3) (bc0 : BitVec 4) (s : State) : Host.Outcome State Fault Refusal :=
  matrixWord (.mldw f hw dprec clr br0 bc0) s
/-- MSWAP (R190). -/
def execMswap (f : MIssue) (s : State) : Host.Outcome State Fault Refusal :=
  matrixWord (.mswap f) s
/-- MMAC (R193). -/
def execMmac (f : MIssue) (m : MmacF) (s : State) : Host.Outcome State Fault Refusal :=
  matrixWord (.mmac f m) s
/-- MEPI (R195). -/
def execMepi (f : MIssue) (e : MepiF) (s : State) : Host.Outcome State Fault Refusal :=
  matrixWord (.mepi f e) s
/-- MEPI_REMOTE (R198). -/
def execMepiRemote (f : MIssue) (e : MepiF) (dest : MDest) (s : State) : Host.Outcome State Fault Refusal :=
  matrixWord (.mepiRemote f e dest) s
/-- MMARK (R200). -/
def execMmark (f : MIssue) (s : State) : Host.Outcome State Fault Refusal :=
  matrixWord (.mmark f) s
/-- MNOP (R200). -/
def execMnop (f : MIssue) (s : State) : Host.Outcome State Fault Refusal :=
  matrixWord (.mnop f) s
/-- MLOOP (R101). -/
def execMloop (c : MCtl) (lc : BitVec 2) (src : Bool) (value : BitVec 16) (s : State) : Host.Outcome State Fault Refusal :=
  matrixWord (.mloop c lc src value) s
/-- MBR_ALWAYS (R102). -/
def execMbrAlways (c : MCtl) (target : BitVec 13) (s : State) : Host.Outcome State Fault Refusal :=
  matrixWord (.mbrAlways c target) s
/-- MBR_KSET (R102). -/
def execMbrKset (c : MCtl) (k : BitVec 4) (target : BitVec 13) (s : State) : Host.Outcome State Fault Refusal :=
  matrixWord (.mbrKset c k target) s
/-- MBR_KCLR (R102). -/
def execMbrKclr (c : MCtl) (k : BitVec 4) (target : BitVec 13) (s : State) : Host.Outcome State Fault Refusal :=
  matrixWord (.mbrKclr c k target) s
/-- MBR_LOOP (R102). -/
def execMbrLoop (c : MCtl) (lc : BitVec 2) (target : BitVec 13) (s : State) : Host.Outcome State Fault Refusal :=
  matrixWord (.mbrLoop c lc target) s
/-- MBR_END (R102). -/
def execMbrEnd (c : MCtl) (s : State) : Host.Outcome State Fault Refusal :=
  matrixWord (.mbrEnd c) s
/-- MMOD (R110). -/
def execMmod (c : MCtl) (lenm1 : BitVec 6) (iim1 : BitVec 6) (tsrc : Bool) (trips : BitVec 16) (exk : BitVec 4) (exs : Bool) (s : State) : Host.Outcome State Fault Refusal :=
  matrixWord (.mmod c lenm1 iim1 tsrc trips exk exs) s
/-- MWAIT_SET (R104). -/
def execMwaitSet (c : MCtl) (k : BitVec 4) (s : State) : Host.Outcome State Fault Refusal :=
  matrixWord (.mwaitSet c k) s
/-- MWAIT_CLR (R104). -/
def execMwaitClr (c : MCtl) (k : BitVec 4) (s : State) : Host.Outcome State Fault Refusal :=
  matrixWord (.mwaitClr c k) s
/-- MWAIT_DRAIN (R104). -/
def execMwaitDrain (c : MCtl) (s : State) : Host.Outcome State Fault Refusal :=
  matrixWord (.mwaitDrain c) s

end Sys2Proof.Machine
end

