-- ==== Sys2Proof/Machine/Barriers.lean ====
section
/-! DEFINITION. The two kinds of barrier: route-tag barriers and barrier objects (R334 to R336). -/
namespace Sys2Proof.Machine

/-! ## Route-tag barriers (R334) -/

/-- A barrier granted to nobody. -/
def Bar.reset : Bar := { quads := [], phase := 0, arrived := [], due := none }

/-- A route-tag barrier (R334). -/
def barOf (s : State) (b : Nat) : Bar := mapGet Bar.reset s.bars b

/-- The state with a barrier replaced. -/
def withBar (s : State) (b : Nat) (x : Bar) : State := { s with bars := mapSet s.bars b x }

/-- Whether a core is in a barrier's participation mask (R334, R388). -/
def inBar (x : Bar) (core : Nat) : Bool := x.quads.contains (quadOf core)

/-- The unit's register of a barrier (R334). -/
def barReg (u : Unit) (b : Nat) : BarReg := mapGet { aph := 0, arr := false } u.bars b

/-- Whether every core of a barrier's mask has arrived. -/
def allArrived (x : Bar) : Bool := x.quads.all (fun q => (span (4 * q) 4).all (fun c => x.arrived.contains c))

/-- A barrier with a core's arrival: the last one sets the clock at which PHASE advances (R334). -/
def arrive (x : Bar) (core clk : Nat) : Bar :=
  let y := { x with arrived := core :: x.arrived }
  if allArrived y then { y with due := some (clk + 96) } else y

/-- Whether the unit has an access that is not performed with a home within a scope. -/
def unperformed (k : Core) (core uid scope : Nat) : Bool :=
  k.accs.any (fun a => a.uid == uid && homeScope (dieOf core) a.pa ≤ scope)

/-- What BAR.ARRIVE does when it issues or is tried again (R334): a core's first arrival in a phase counts, a later one of
another unit shares it, and one of the same unit waits for the next phase (log 30). -/
def barArriveBody (num : BitVec 4) (t : State) : Act :=
  let b := num.toNat
  let x := barOf t b
  let u := getUnit t
  let r := barReg u b
  let core := t.focus.core
  if 8 ≤ b || !inBar x core then .trap cOPERAND 0
  else if !(partOf t u.part).barmask.getLsbD b then .trap cWINDOW 0
  else if r.arr && r.aph == x.phase then .wait
  else if unperformed (curCore t) core u.uid 2 then .hold
  else
    let t1 := setUnit t { u with bars := mapSet u.bars b { aph := x.phase, arr := true } }
    .done (if x.arrived.contains core then t1 else withBar t1 b (arrive x core t.clk))

/-- BAR.ARRIVE (R334). -/
def execBarArrive (num : BitVec 4) (s : State) : Host.Outcome State Fault Refusal :=
  scalarWord (.barArrive num) (barArriveBody num) s

/-- What BAR.WAIT does when it issues or is tried again (R334). -/
def barWaitBody (num : BitVec 4) (t : State) : Act :=
  let b := num.toNat
  let u := getUnit t
  let r := barReg u b
  if 8 ≤ b || !r.arr then .trap cOPERAND 0
  else if (barOf t b).phase = r.aph then .wait
  else .done (setUnit t { u with bars := mapSet u.bars b { r with arr := false } })

/-- BAR.WAIT (R334). -/
def execBarWait (num : BitVec 4) (s : State) : Host.Outcome State Fault Refusal :=
  scalarWord (.barWait num) (barWaitBody num) s

/-- The quads of the partition that owns a barrier (R388). -/
def barQuads (s : State) (b : Nat) : List Nat :=
  match s.parts.find? (fun e => e.2.barmask.getLsbD b) with
  | some e => e.2.quads
  | none => []

/-- BAR_PHASE_ADVANCE (R334): 96 clocks after the last arrival PHASE advances; the mask is that of the owner's quads from
the next phase (R388). -/
def execBarPhaseAdvance (b : Nat) (s : State) : Host.Outcome State Fault Refusal :=
  let x := barOf s b
  match x.due with
  | some due =>
    if due ≤ s.clk then .next (withBar s b { quads := barQuads s b, phase := x.phase + 1, arrived := [], due := none })
    else .next s
  | none => .next s

/-! ## Barrier objects (R335, R336) -/

/-- The fields of a control word: PHASE, EXPECTED, PENDING, bits 23:16, ARRIVED (R335). -/
structure BobWord where
  phase : Nat
  expected : Nat
  pending : Nat
  rsvd : Nat
  arrived : Nat
  deriving DecidableEq, Repr

/-- A control word as fields (R335). -/
def bobFields (v : Nat) : BobWord :=
  { phase := v / 2 ^ 63 % 2, expected := v / 2 ^ 48 % 2 ^ 15, pending := v / 2 ^ 24 % 2 ^ 24, rsvd := v / 2 ^ 16 % 256
    arrived := v % 2 ^ 16 }

/-- Fields as a control word (R335). -/
def bobWord (b : BobWord) : Nat :=
  b.phase * 2 ^ 63 + b.expected * 2 ^ 48 + b.pending * 2 ^ 24 + b.rsvd * 2 ^ 16 + b.arrived

/-- Whether a control word takes updates (R336). -/
def bobOk (b : BobWord) : Bool := b.expected != 0 && b.rsvd == 0

/-- The home's check for completion after an update (R336). -/
def bobFlip (b : BobWord) : BobWord :=
  if b.expected ≤ b.arrived && b.pending = 0 then { b with phase := 1 - b.phase, arrived := b.arrived - b.expected } else b

/-- A control word's fields and the status bits to OR, after an update of a word that takes it (R336). -/
def bobUpdate (b : BobWord) : BobOp → BobWord × Nat
  | .arrive => if b.arrived = 0xFFFF then (bobFlip b, 64) else (bobFlip { b with arrived := b.arrived + 1 }, 0)
  | .expect n => (bobFlip { b with pending := (b.pending + (2 ^ 24 - n)) % 2 ^ 24 }, 0)
  | .engine count status =>
    (bobFlip { b with pending := (b.pending + count) % 2 ^ 24 }, if status = 0 then 0 else 2 ^ status.toNat)

/-- The state with bits ORed into the status word of the object at `pa`. -/
def bobOr (s : State) (pa bits : Nat) : State :=
  if bits = 0 then s else { s with mem := memSetNat s.mem (pa + 8) 8 (memNat s.mem (pa + 8) 8 ||| bits) }

/-- An update applied at the home of the object at `pa` (R336); a word that takes no update takes from an engine arrival
only its status bits and bit 6. -/
def bobApply (s : State) (pa : Nat) (op : BobOp) : State :=
  let b := bobFields (memNat s.mem pa 8)
  if bobOk b then
    let r := bobUpdate b op
    let t := bobOr s pa r.2
    { t with mem := memSetNat t.mem pa 8 (bobWord r.1) }
  else
    match op with
    | .engine _ status => bobOr s pa (64 ||| (if status = 0 then 0 else 2 ^ status.toNat))
    | _ => s

/-- Whether a byte of a physical range lies on a page under migration (R237). -/
def migratingAt (s : State) (leaf : Word) (pa : Nat) : Bool :=
  leafMig leaf || onMigrating s pa

/-- An instruction that updates a barrier object at `va`: a class-0 atomic that holds its unit until the home answers; BOB.ARRIVE
releases every class at the page's DOM scope (R266, R336), and takes a request slot (R244); an object on a poisoned line raises UNCORR (R367; log 50). -/
def bobInstr (op : BobOp) (releases : Bool) (va : Word) (t : State) : Act :=
  let u := getUnit t
  if fenceHolds (curCore t) u 0 || walkHeld t va then .hold
  else if va.toNat % 16 ≠ 0 then .trap cALIGN va
  else
    match translate t va .write with
    | (.fail c, _) => .trap c va
    | (.ok pa leaf, t') =>
      if readBlocked (curCore t') u 0 pa 16 || migratingAt t' leaf pa || !homeOk t' pa
          || (releases && unperformed (curCore t') t'.focus.core u.uid (leafDom leaf)) then .hold
      else if !linesFor (curCore t') t'.focus.slot 1 then .lack (reqScalar t'.focus.slot)
      else if poisoned t' pa 16 then .trap cUNCORR va
      else if !bobOk (bobFields (memNat t'.mem pa 8)) then .trap cOPERAND 0
      else .done (bobApply (useLines t' 1 (homePkg pa)) pa op)

/-- BOB.ARRIVE (R336). -/
def execBobArrive (ra : BitVec 5) (s : State) : Host.Outcome State Fault Refusal :=
  scalarWord (.bobArrive ra) (fun t => bobInstr .arrive true (regRead t ra) t) s

/-- BOB.EXPECT (R336). -/
def execBobExpect (ra rb : BitVec 5) (s : State) : Host.Outcome State Fault Refusal :=
  scalarWord (.bobExpect ra rb) (fun t =>
    let b := regRead t rb
    if !zeroAbove b 23 || b = 0 then .trap cOPERAND 0
    else bobInstr (.expect b.toNat) false (regRead t ra) t) s

/-- What BOB.WAIT does when it issues or is tried again (R336): its first read of the control word raises OPERAND where the
word takes no update. -/
def bobWaitBody (ra : BitVec 5) (t : State) : Act :=
  let a := regRead t ra
  let va := a &&& ~~~1#64
  let u := getUnit t
  if fenceHolds (curCore t) u 0 || walkHeld t va then .hold
  else if wbits a 1 3 ≠ 0 then .trap cALIGN a
  else
    match translate t va .write with
    | (.fail c, _) => .trap c va
    | (.ok pa _, t') =>
      let b := bobFields (memNat t'.mem pa 8)
      if readBlocked (curCore t') u 0 pa 8 || !homeOk t' pa then .hold
      else if !linesFor (curCore t') t'.focus.slot 1 then .lack (reqScalar t'.focus.slot)
      else if poisoned t' pa 8 then .trap cUNCORR va
      else if u.wait.isNone && !bobOk b then .trap cOPERAND 0
      else if b.phase = wbits a 0 1 then .waitIn (noteEgress t' t'.focus.core u.part (homePkg pa))
      else .done (useLines t' 1 (homePkg pa))

/-- BOB.WAIT (R336). -/
def execBobWait (ra : BitVec 5) (s : State) : Host.Outcome State Fault Refusal :=
  scalarWord (.bobWait ra) (bobWaitBody ra) s

/-! ## Domain memory (R257, R275) -/

/-- Whether another package of the domain may reach a physical address: a partition of this package has it in a window, or it is homed in a
package of the domain. -/
def domainHas (s : State) (pa : Nat) : Bool :=
  (inletChan pa).isNone && (farAddr pa || s.parts.any (fun e => inWindows e.2 pa))

/-- The state with an aligned operation of another package performed at the home of a location of the domain (R253, R256, R336); one on a
page under migration, or an atomic that meets uncorrectable data, changes nothing yet (R237, R367). -/
def domainAccess (s : State) (pa : Nat) (op : RemoteOp) : State :=
  let sizeOk := fun n => [1, 2, 4, 8].contains n && pa % n == 0
  let takes := fun n => domainHas s pa && !onMigrating s pa && !poisoned s pa n
  match op with
  | .write bs => if domainHas s pa && sizeOk bs.length then homeWrite s none pa bs else s
  | .atom op n b expect =>
    let old := memNat s.mem pa n
    if sizeOk n && takes n && !(op == .cas && old != expect.toNat % 2 ^ (8 * n)) then
      { s with mem := memSetNat s.mem pa n (atomNew op n old (b.toNat % 2 ^ (8 * n))) }
    else s
  | .bob op => if pa % 16 = 0 && takes 16 then bobApply s pa op else s

end Sys2Proof.Machine
end

