-- ==== Sys2Proof/Machine/Ports.lean ====
section
/-! DEFINITION. Ports, posting, cutting, event queues, and how a command starts and ends (R42 to R44, R240, R241, R246 to
R248, R276 to R289). -/
namespace Sys2Proof.Machine

/-! ## The fields of a quad (R42) -/

def qCode (q : Quad) : Nat := wbits q.cw0 56 8
def qClass (q : Quad) : BitVec 4 := BitVec.ofNat 4 (wbits q.cw0 52 4)
def qScope (q : Quad) : Nat := wbits q.cw0 50 2
def qMode (q : Quad) : Nat := wbits q.cw0 48 2
def qTag (q : Quad) : Nat := wbits q.cw0 32 16
def qArg (q : Quad) : Nat := wbits q.cw0 0 32

/-- The kind code of a command (R278). -/
def qKind (e : Nat) (q : Quad) : Nat := (16 * e + qCode q) % 256

/-- The rows of the opcode table a command may fall in, and the commands an engine refuses at start: an unassigned CODE or a
reserved value of the field that selects the row (R43, R44). -/
inductive CRow where
  | copyToTile | copyToMemory | copyMemory | fillTile | fillMemory | imload
  | tierRun | tierStop | tierStopDrain | ropeSource | ropeSubscriber
  | allReduce | reduceScatter | allGather | broadcast | allToAll | transpose | put | sigSet | sigAdd
  | gatOpen | gatClose | gatFlush | mark | reserved
  deriving DecidableEq, Repr

/-- The row of a splice command, by CODE and the parameter block's OP and SIGOP (R340, R341). -/
def spliceRow (code : Nat) (block : List Byte) : CRow :=
  match code, fieldNat block 0 1 with
  | 1, 0 => .allReduce | 1, 1 => .reduceScatter | 1, 2 => .allGather | 1, 3 => .broadcast | 1, 4 => .allToAll
  | 1, 5 => .transpose | 2, 6 => .put
  | 3, 7 => match fieldNat block 33 1 with
    | 0 => .sigSet | 1 => .sigAdd | _ => .reserved
  | _, _ => .reserved

/-- The row of a command (R43, R291, R305, R306, R333). -/
def cmdRow (c : Cmd) : CRow :=
  let q := c.quad
  match c.eng, qCode q with
  | 0, 1 => match wbits q.cw1 30 2 with
    | 0 => .copyToTile | 1 => .copyToMemory | 2 => .copyMemory | _ => .reserved
  | 0, 2 => match wbits q.cw1 30 2 with
    | 0 => .fillTile | 1 => .fillMemory | _ => .reserved
  | 0, 3 => .imload
  | 1, 1 => .tierRun
  | 1, 2 => if wbits q.cw0 6 1 = 1 then .tierStopDrain else .tierStop
  | 1, 3 => match wbits q.cw0 6 2 with
    | 0 => .ropeSource | 1 => .ropeSubscriber | _ => .reserved
  | 2, code => spliceRow code c.block
  | 3, 1 => .gatOpen
  | 3, 2 => if wbits q.cw0 4 1 = 1 then .gatFlush else .gatClose
  | 4, 1 => .mark
  | _, _ => .reserved

/-- The instruction a command is: the row of the table with its poster and its quad; none where the engine refuses it. -/
def cmdInstr (c : Cmd) : Option Instr :=
  let p : Poster := { core := c.core, slot := c.slot }
  let q := c.quad
  match cmdRow c with
  | .copyToTile => some (.hodCopyToTile p q) | .copyToMemory => some (.hodCopyToMemory p q)
  | .copyMemory => some (.hodCopyMemory p q) | .fillTile => some (.hodFillTile p q)
  | .fillMemory => some (.hodFillMemory p q) | .imload => some (.hodImload p q)
  | .tierRun => some (.tierRun p q) | .tierStop => some (.tierStop p q) | .tierStopDrain => some (.tierStopDrain p q)
  | .ropeSource => some (.tierRopeSource p q) | .ropeSubscriber => some (.tierRopeSubscriber p q)
  | .allReduce => some (.splCollAllReduce p q) | .reduceScatter => some (.splCollReduceScatter p q)
  | .allGather => some (.splCollAllGather p q) | .broadcast => some (.splCollBroadcast p q)
  | .allToAll => some (.splCollAllToAll p q) | .transpose => some (.splCollTransposingAllToAll p q)
  | .put => some (.splPut p q) | .sigSet => some (.splSigSet p q) | .sigAdd => some (.splSigAdd p q)
  | .gatOpen => some (.gatOpen p q) | .gatClose => some (.gatClose p q) | .gatFlush => some (.gatCloseFlush p q)
  | .mark => some (.trcMark p q)
  | .reserved => none

/-! ## The checks PORT.GO makes on staged bits (R44, R278, R280, R291, R294, R304 to R306, R330, R333, R341, R406) -/

/-- Whether a word has a bit set from `lo` up. -/
def above (w : Word) (lo : Nat) : Bool := !zeroAbove w lo

/-- Whether cw2 of a TIER.ROPE breaks its role's layout (R306). -/
def ropeBad (role : Nat) (w : Word) : Bool :=
  match role with
  | 0 => wbits w 14 50 != 0
  | 1 => wbits w 28 4 != 0 || wbits w 0 16 != 0
  | _ => false

/-- Whether a reserved bit of the command is set, cw3 apart (R44). -/
def quadBits (e : Nat) (q : Quad) : Bool :=
  match e, qCode q with
  | 0, 1 => qArg q != 0 || wbits q.cw1 20 10 != 0
  | 0, 2 => wbits q.cw1 20 10 != 0
  | 0, 3 => wbits q.cw0 1 31 != 0 || wbits q.cw1 0 38 != 0 || wbits q.cw2 0 4 != 0 || above q.cw2 55
  | 1, 1 => wbits q.cw0 6 26 != 0 || above q.cw1 55 || wbits q.cw2 16 16 != 0
  | 1, 2 => wbits q.cw0 7 25 != 0 || q.cw1 != 0 || q.cw2 != 0
  | 1, 3 => wbits q.cw0 20 12 != 0 || above q.cw1 55 || ropeBad (wbits q.cw0 6 2) q.cw2
  | 2, 1 | 2, 2 | 2, 3 => qArg q != 0 || above q.cw1 55 || q.cw2 != 0
  | 3, 1 => wbits q.cw0 4 28 != 0 || above q.cw1 55 || q.cw2 != 0
  | 3, 2 => wbits q.cw0 5 27 != 0 || q.cw1 != 0 || q.cw2 != 0
  | 4, 1 => wbits q.cw0 8 24 != 0 || q.cw2 != 0
  | _, _ => false

/-- Whether a CODE is assigned (R43). -/
def assigned (e code : Nat) : Bool :=
  match e with
  | 0 | 1 | 2 => 1 ≤ code && code ≤ 3
  | 3 => 1 ≤ code && code ≤ 2
  | _ => code == 1

/-- Whether PORT.GO raises OPERAND on the staged bits: a reserved bit, cw3 included, or a CMODE 2 the gatherer does not take. -/
def quadBad (e : Nat) (q : Quad) : Bool :=
  quadBits e q
  || (if qMode q = 2 then (e == 3 && assigned e (qCode q)) || above q.cw3 55
      else assigned e (qCode q) && q.cw3 != 0)

/-- The first staged address a command requires aligned and is not (R278). -/
def misaligned (e : Nat) (q : Quad) : Option Word :=
  let own : Option Word := match e, qCode q with
    | 1, 1 | 1, 3 => if wbits q.cw1 0 5 = 0 then none else some q.cw1
    | 2, 1 | 2, 2 | 2, 3 => if wbits q.cw1 0 7 = 0 then none else some q.cw1
    | 3, 1 => if wbits q.cw1 0 6 = 0 then none else some q.cw1
    | _, _ => none
  match own with
  | some a => some a
  | none => if qMode q = 2 && wbits q.cw3 0 4 ≠ 0 then some q.cw3 else none

/-! ## Layout records (R246, R247) -/

/-- The layout record 64 bytes hold; none where it breaks R246 or R247. The width of an element is that of its format until
the page of BASE is known. -/
def layoutOf (bs : List Byte) : Option Layout :=
  let rank := fieldNat bs 58 1
  match fmtOfNat (fieldNat bs 59 1) with
  | none => none
  | some f =>
    let ext := (span 0 5).map (fun d => fieldNat bs (8 + 4 * d) 4)
    let str := (span 0 5).map (fun d => signedNat 48 (fieldNat bs (28 + 6 * d) 6))
    let pad := fieldNat bs 60 4
    if rank = 0 || rank > 5 || fieldNat bs 0 8 ≥ 2 ^ 55
        || (ext.drop rank).any (· != 0) || (str.drop rank).any (· != 0)
        || pad ≥ 2 ^ fmtBits f || (f == .t2 && pad == 2) then none
    else some { bits := fmtBits f, image := false, base := fieldNat bs 0 8, ext := ext.take rank, str := str.take rank
                rank := rank, fmt := f, pad := BitVec.ofNat 32 pad }

/-- The element offset of an index (R246). -/
def layoutOff : List Nat → List Int → Int
  | i :: is, t :: ts => (i : Int) * t + layoutOff is ts
  | _, _ => 0

/-- Whether an index is in bounds (R246). -/
def inBounds : List Nat → List Int → Bool
  | [], _ => true
  | e :: es, i :: is => 0 ≤ i && i < (e : Int) && inBounds es is
  | _ :: _, [] => false

/-- An index given in dimensions 0 and 1 with zeros above, cut to the record's rank; an index that is not zero above the rank
is out of bounds. -/
def index2 (l : Layout) (i0 i1 : Int) : Option (List Int) :=
  if l.rank = 1 then (if i1 = 0 then some [i0] else none) else some (i0 :: i1 :: List.replicate (l.rank - 2) 0)

/-- The bit address of the element at an index, none where it is out of bounds (R246). -/
def elemAt (l : Layout) (ix : List Int) : Option Int :=
  if inBounds l.ext ix then some (8 * l.base + layoutOff (ix.map Int.toNat) l.str * l.bits) else none

/-- Least and greatest element offset of the in-bounds elements. -/
def offRange : List Nat → List Int → Int × Int
  | e :: es, t :: ts =>
    let r := offRange es ts
    let d := ((e - 1 : Nat) : Int) * t
    (r.1 + min 0 d, r.2 + max 0 d)
  | _, _ => (0, 0)

/-- The footprint of a record: its lowest and highest byte; none where some extent is 0 (R240). -/
def footprint (l : Layout) : Option (Int × Int) :=
  if l.ext.any (· == 0) then none
  else
    let r := offRange l.ext l.str
    some ((8 * (l.base : Int) + r.1 * l.bits) / 8, (8 * (l.base : Int) + r.2 * l.bits + l.bits - 1) / 8)

/-- The bytes of one image of a format (R246). -/
def imageBytes (f : Fmt) : Nat := 384 * digitCount f + (if fmtFloat f then 2048 else 0)

/-- A record with its elements as the page of BASE fixes them: images where that page holds images of a weight format, whatever the
command does with them (R235, R246). -/
def withPage (l : Layout) (leaf : Word) : Layout :=
  if leafBgeo leaf = 0 then l
  else
    match fmtOfNat (leafFmta leaf - 1) with
    | some f => if leafFmta leaf ≠ 0 && digitCount f ≠ 0 then { l with bits := 8 * imageBytes f, image := true } else l
    | none => l

/-! ## Pins (R240, R241) -/

/-- How a read or a pin of PORT.GO ends: with its result, with a trap, held, or held for want of a request slot. -/
inductive Got (α : Type) where
  | ok (s : State) (v : α)
  | trap (cause : BitVec 8) (eval : Word)
  | held
  | lack (who : Nat)

/-- The page of an address, translated for the unit in focus. -/
def pageOf (s : State) (va : Word) (kind : AccessKind) : Got Pin :=
  match translate s va kind with
  | (.fail c, _) => .trap c va
  | (.ok pa leaf, s') =>
    match (curCore s').tlb.find? (tlbHit (getUnit s').part va.toNat) with
    | some e => .ok s' { vpage := e.vpage, span := e.span, pa := pa - (va.toNat - e.vpage), attr := leaf }
    | none => .ok s' { vpage := va.toNat / 65536 * 65536, span := 65536, pa := pa - va.toNat % 65536, attr := leaf }

/-- Whether a page is among the pins. -/
def hasPin (pins : List Pin) (p : Pin) : Bool := pins.any (fun q => q.vpage == p.vpage)

/-- The pages of a byte range translated and pinned, lowest first; a page counts once, and OPERAND is raised past `cap` pages. -/
def pinRange (exec : Bool) (kind : AccessKind) (cap : Nat) (hi : Int) : Nat → State → Int → List Pin → Got (List Pin)
  | 0, _, _, _ => .trap cOPERAND 0
  | n + 1, s, lo, pins =>
    if hi < lo then .ok s pins
    else
      match pageOf s (BitVec.ofInt 64 lo) kind with
      | .trap c e => .trap c e
      | .held => .held
      | .lack w => .lack w
      | .ok s' p =>
        if exec && !leafX p.attr then .trap cXLATE (BitVec.ofInt 64 lo)
        else if hasPin pins p then pinRange exec kind cap hi n s' (p.vpage + p.span) pins
        else if pins.length ≥ cap then .trap cOPERAND 0
        else pinRange exec kind cap hi n s' (p.vpage + p.span) (pins ++ [p])

/-- The footprint of a record pinned, the page of BASE first, which decides whether elements are images (R246). The footprints of a
command overlap at most 512 pages (R240). -/
def pinLayout (s : State) (l : Layout) (kind : AccessKind) (pins : List Pin) : Got (Layout × List Pin) :=
  match footprint l with
  | none => .ok s (l, pins)
  | some _ =>
    match pageOf s (BitVec.ofNat 64 l.base) kind with
    | .trap c e => .trap c e
    | .held => .held
    | .lack w => .lack w
    | .ok s' p =>
      let l' := withPage l p.attr
      match footprint l' with
      | none => .ok s' (l', pins)
      | some (lo, hi) =>
        if !hasPin pins p && pins.length ≥ 512 then .trap cOPERAND 0
        else
          match pinRange false kind 512 hi 1026 s' lo (if hasPin pins p then pins else pins ++ [p]) with
          | .ok s'' ps => .ok s'' (l', ps)
          | .trap c e => .trap c e
          | .held => .held
          | .lack w => .lack w

/-- The physical address a command's pins give a virtual one, with the leaf. -/
def pinPa (pins : List Pin) (va : Nat) : Option (Nat × Word) :=
  (pins.find? (fun p => p.vpage ≤ va && va < p.vpage + p.span)).map (fun p => (p.pa + (va - p.vpage), p.attr))

/-- The pins of a list of commands. -/
def pinCount (cs : List Cmd) : Nat := cs.foldl (fun a c => a + c.pins.length) 0

/-- The commands that stand in the queues of a unit. -/
def queuedCmds (u : Unit) : List Cmd := u.ports.flatMap (fun p => p.2.queue)

/-- The pins that commands of a core hold: those its units have posted, those that have started, and those of units pre-empted from
it (R240, R372). -/
def pinsHeld (s : State) (core : Nat) : Nat :=
  pinCount ((getCore s core).units.flatMap (fun e => queuedCmds e.2))
  + pinCount ((s.cmds.filter (fun r => r.cmd.core == core)).map (·.cmd))
  + pinCount ((s.aways.filter (fun a => a.core == core)).flatMap (fun a => queuedCmds a.unit ++ a.hod))

/-! ## What a command names (R291, R294, R304, R330, R340 to R342) -/

/-- A record read of PORT.GO: `n` bytes within one page as a load of the command's class (R247, R342, R266), in request slots that
`take` has a requester hold where it can (R244). -/
def recordRead (s : State) (va : Word) (n : Nat) (cls : BitVec 4) (who : Nat) (take : Dest → State → Option State) : Got (List Byte) :=
  match translate s va .read with
  | (.fail c, _) => .trap c va
  | (.ok pa _, s') =>
    if readBlocked (curCore s') (getUnit s') cls pa n || !homeOk s' pa then .held
    else
      match take (homePkg pa) s' with
      | none => .lack who
      | some s'' => if poisoned s'' pa n then .trap cUNCORR va else .ok s'' (recordBytes s'' pa n)

/-- The layout records a command names, in the order of its entry: index, and whether it is written through. -/
def namedLayouts (e : Nat) (q : Quad) (block : List Byte) : List (Nat × Bool) :=
  let sly := wbits q.cw1 48 16
  let dly := wbits q.cw1 32 16
  match e, qCode q, wbits q.cw1 30 2 with
  | 0, 1, 0 => [(sly, false)]
  | 0, 1, 1 => [(dly, true)]
  | 0, 1, 2 => [(sly, false), (dly, true)]
  | 0, 2, 1 => [(dly, true)]
  | 2, code, _ =>
    if 1 ≤ code && code ≤ 3 then
      let op := fieldNat block 0 1
      (if op ≤ 6 && !(op == 3 && fieldNat block 6 2 != fieldNat block 30 2) then [(fieldNat block 24 2, false)] else [])
      ++ (if op ≤ 5 && fieldNat block 3 1 / 2 % 2 = 0 then [(fieldNat block 26 2, true)] else [])
    else []
  | _, _, _ => []

/-- The layout-record cache after a read of a record (R248, least recently used, log 11). -/
def touchLayout (k : Core) (key : Nat × Nat) : Core :=
  { k with lyc := (key :: k.lyc.filter (· != key)).take 64 }

/-- The core with a shared slot held by a requester until the clock is over (R244). -/
def holdShared (k : Core) (who : Nat) : Core := { shareTaken k who with brief := (who, false) :: k.brief }

/-- The state with the slot held that the read of a layout record takes: none where the cache holds the record (R248), else a shared one
if it may be had (R244). -/
def layoutSlot (key : Nat × Nat) (pkg : Dest) (s : State) : Option State :=
  if (curCore s).lyc.contains key then some s
  else if sharedFor (curCore s) reqLayout 1 then
    some (noteEgress (setCur s (holdShared (curCore s) reqLayout)) s.focus.core (getUnit s).part pkg)
  else none

/-- The layout records of a list read in order, one that the cache misses through a shared request slot (R248); a bad one raises OPERAND
with EVAL its index (R247). -/
def readLayouts (cls : BitVec 4) : List (Nat × Bool) → State → List Layout → Got (List Layout)
  | [], s, ls => .ok s ls
  | (i, _) :: more, s, ls =>
    let pt := partOf s (getUnit s).part
    if i ≥ pt.ltlen then .trap cOPERAND (BitVec.ofNat 64 i)
    else
      match recordRead s (BitVec.ofNat 64 (pt.ltbase + 64 * i)) 64 cls reqLayout (layoutSlot ((getUnit s).part, i)) with
      | .trap c e => .trap c e
      | .held => .held
      | .lack w => .lack w
      | .ok s' bs =>
        match layoutOf bs with
        | none => .trap cOPERAND (BitVec.ofNat 64 i)
        | some l => readLayouts cls more (setCur s' (touchLayout (curCore s') ((getUnit s').part, i))) (ls ++ [l])

/-- The footprints of the records pinned in order. -/
def pinLayouts : List ((Nat × Bool) × Layout) → State → List Layout → List Pin → Got (List Layout × List Pin)
  | [], s, ls, pins => .ok s (ls, pins)
  | ((_, wr), l) :: more, s, ls, pins =>
    match pinLayout s l (if wr then .write else .read) pins with
    | .trap c e => .trap c e
    | .held => .held
    | .lack w => .lack w
    | .ok s' (l', ps) => pinLayouts more s' (ls ++ [l']) ps

/-- The bytes of the operand a command names beside layouts: the head, the channel record or the image, and whether it must
be executable. -/
def namedRange (e : Nat) (q : Quad) : Option (Nat × Nat × Bool) :=
  match e, qCode q with
  | 0, 3 => some (q.cw2.toNat, (wbits q.cw1 38 13 + 1) * (if wbits q.cw0 0 1 = 1 then 24 else 12), true)
  | 1, 1 | 1, 3 => some (q.cw1.toNat, 32, false)
  | 3, 1 => some (q.cw1.toNat, 64, false)
  | _, _ => none

/-- The operand of a command that is no layout pinned, then its barrier object (R280). -/
def pinOthers (s : State) (e : Nat) (q : Quad) (pins : List Pin) : Got (List Pin) :=
  let r1 : Got (List Pin) := match namedRange e q with
    | none => .ok s pins
    | some (va, n, x) => pinRange x .read 4096 ((va + n - 1 : Nat) : Int) 1026 s va pins
  match r1 with
  | .trap c ev => .trap c ev
  | .held => .held
  | .lack w => .lack w
  | .ok s' ps =>
    if qMode q = 2 then pinRange false .write 4096 ((q.cw3.toNat + 15 : Nat) : Int) 4 s' q.cw3.toNat ps else .ok s' ps

/-- The parameter block of a splice command, for which two request slots are asked together (R244, R342). -/
def readBlock (s : State) (e : Nat) (q : Quad) : Got (List Byte) :=
  if e = 2 && assigned 2 (qCode q) then
    recordRead s q.cw1 128 (qClass q) (reqScalar s.focus.slot)
      (fun pkg t => if linesFor (curCore t) t.focus.slot 2 then some (useLines t 2 pkg) else none)
  else .ok s []

/-- Everything PORT.GO reads and pins for a command, with the layouts and the block (R240, R278, R342). -/
def gather (s : State) (e : Nat) (q : Quad) : Got (List Layout × List Pin × List Byte) :=
  match readBlock s e q with
  | .trap c ev => .trap c ev
  | .held => .held
  | .lack w => .lack w
  | .ok s1 block =>
    let names := namedLayouts e q block
    match readLayouts (qClass q) names s1 [] with
    | .trap c ev => .trap c ev
    | .held => .held
    | .lack w => .lack w
    | .ok s2 ls =>
      match pinLayouts (names.zip ls) s2 [] [] with
      | .trap c ev => .trap c ev
      | .held => .held
      | .lack w => .lack w
      | .ok s3 (ls', ps) =>
        match pinOthers s3 e q ps with
        | .trap c ev => .trap c ev
        | .held => .held
        | .lack w => .lack w
        | .ok s4 ps' => .ok s4 (ls', ps', block)

/-! ## PORT.W, PORT.GO, PORT.CUT (R277, R278, R283) -/

/-- PORT.W (R277). -/
def execPortW (ra : BitVec 5) (eng : BitVec 4) (word : BitVec 2) (s : State) : Host.Outcome State Fault Refusal :=
  scalarWord (.portW ra eng word) (fun t =>
    let e := eng.toNat
    if e ≥ 5 then .trap cOPERAND 0
    else
      let u := getUnit t
      let v := regRead t ra
      let p := portOf u e
      let p' := match word.toNat with
        | 0 => { p with cw0 := v } | 1 => { p with cw1 := v } | 2 => { p with cw2 := v } | _ => { p with cw3 := v }
      .done (setUnit t (withPort u e { p' with written := p.written ||| (1#4 <<< word.toNat) }))) s

/-- The sequence number an engine gives next: the core's hod engine, or a hub engine of the package (R279). -/
def nextSeq (s : State) (core e : Nat) : BitVec 24 := if e = 0 then (getCore s core).hodSeq else mapGet 0 s.hubSeq e

/-- The state with an engine's sequence counter advanced (R279). -/
def advanceSeq (s : State) (core e : Nat) : State :=
  if e = 0 then setCore s core { getCore s core with hodSeq := (getCore s core).hodSeq + 1 }
  else { s with hubSeq := mapSet s.hubSeq e (mapGet 0 s.hubSeq e + 1) }

/-- The state with a command accepted into the unit's queue (R278). -/
def accept (s : State) (e : Nat) (q : Quad) (ls : List Layout) (ps : List Pin) (block : List Byte) : State :=
  let t := noteFlags s s.focus.core s.focus.slot
  let u := getUnit t
  let p := portOf u e
  let c : Cmd := { id := t.cmdSeq, eng := e, quad := q, core := t.focus.core, slot := t.focus.slot, uid := u.uid, part := u.part
                   seq := nextSeq t t.focus.core e, layouts := ls, pins := ps, block := block, pushed := (curCore t).accSeq, posted := t.clk }
  let u' := withPort u e { p with queue := p.queue ++ [c], written := 0 }
  let t' := setUnit t (if qMode q ≤ 1 then { u' with evqRsv := u'.evqRsv + 1 } else u')
  noteEgress (advanceSeq { t' with cmdSeq := t.cmdSeq + 1 } t.focus.core e) t.focus.core u.part none

/-- What PORT.GO does when it issues or is tried again (R278); room that a start made is visible from the next clock (R289). -/
def portGoBody (rd : BitVec 5) (eng : BitVec 4) (t : State) : Act :=
  let e := eng.toNat
  let u := getUnit t
  let p := portOf u e
  let q : Quad := { cw0 := p.cw0, cw1 := p.cw1, cw2 := p.cw2, cw3 := p.cw3 }
  if e ≥ 5 then .trap cOPERAND 0
  else if p.written ≠ 15 then .trap cPORTSEQ (BitVec.ofNat 64 (16 * e + p.written.toNat))
  else if quadBad e q then .trap cOPERAND 0
  else
    match misaligned e q with
    | some a => .trap cALIGN a
    | none =>
      if fenceHolds (curCore t) u (qClass q) || !journalOk t none then .hold
      else if p.queue.length ≥ 16 || flagRead t u e 3 || (qMode q ≤ 1 && u.evq.length + u.evqRsv ≥ 64) then .wait
      else
        match gather t e q with
        | .trap c ev => .trap c ev
        | .held => .hold
        | .lack w => .lack w
        | .ok t1 (ls, ps, block) =>
          if pinsHeld t t.focus.core + ps.length > 4096 then .wait
          else
            .done (regWriteAfter (accept t1 e q ls ps block) rd
              (BitVec.ofNat 64 (qKind e q * 2 ^ 24 + (nextSeq t t.focus.core e).toNat)) 2)

/-- PORT.GO (R278). -/
def execPortGo (rd : BitVec 5) (eng : BitVec 4) (s : State) : Host.Outcome State Fault Refusal :=
  scalarWord (.portGo rd eng) (portGoBody rd eng) s

/-! ## Records and endings (R281, R282, R284, R285) -/

/-- A queue with a record entered in a clock: records of one clock stand in ascending engine id (R285). -/
def enterRec (r : Rec) : List Rec → List Rec
  | [] => [r]
  | x :: xs => if x.entered = r.entered && r.engine.toNat < x.engine.toNat then r :: x :: xs else x :: enterRec r xs

/-- The record of a command (R284). -/
def recordOf (s : State) (c : Cmd) (status sub : BitVec 8) (detail count : Nat) (last : Bool) : Rec :=
  { entered := s.clk, status := status, sub := sub, engine := BitVec.ofNat 8 c.eng
    flags := BitVec.ofNat 8 ((if qMode c.quad = 1 then 1 else 0) + (if status ≠ 0 then 2 else 0) + (if last then 4 else 0))
    tagq := BitVec.ofNat 32 (qTag c.quad + c.slot % 4 * 65536)
    sig := BitVec.ofNat 32 (c.seq.toNat + qKind c.eng c.quad * 2 ^ 24)
    detail := BitVec.ofNat 32 detail, tns := BitVec.ofNat 64 s.tb.tns, count := BitVec.ofNat 64 count }

/-- The 32 bytes of a record (R284). -/
def recBytes (r : Rec) : List Byte :=
  [r.status, r.sub, r.engine, r.flags] ++ leBytes 4 r.tagq.toNat ++ leBytes 4 r.sig.toNat ++ leBytes 4 r.detail.toNat
  ++ leBytes 8 r.tns.toNat ++ leBytes 8 r.count.toNat

/-- The state with an interrupt cause of a virtual function pending (R394). -/
def signalVf (s : State) (part vector : Nat) : State :=
  { s with vfEv := mapSet s.vfEv part (mapGet 0 s.vfEv part ||| (1#64 <<< vector)) }

/-- Whether the poster of a command still stands in its slot. -/
def posterHere (s : State) (c : Cmd) : Bool := (unitAt s c.core c.slot).live && (unitAt s c.core c.slot).uid == c.uid

/-- The state with a pre-empted unit changed (R372). -/
def onAway (s : State) (uid : Nat) (f : Away → Away) : State :=
  { s with aways := s.aways.map (fun a => if a.unit.uid = uid then f a else a) }

/-- The state with a record in its unit's queue, which sets the event latch (R136, R285); it is held at the hub while the unit is
away (R372), and records of an ended unit are discarded (R135). -/
def putRecord (s : State) (c : Cmd) (r : Rec) (reserved : Bool) : State :=
  if posterHere s c then
    let t := noteFlags s c.core c.slot
    let u := unitAt t c.core c.slot
    setUnitAt t c.core c.slot (latched { u with
      evq := enterRec r u.evq
      evqRsv := if reserved then u.evqRsv - 1 else u.evqRsv })
  else onAway s c.uid (fun a => { a with
    recs := a.recs ++ [r]
    unit := latched { a.unit with evqRsv := if reserved then a.unit.evqRsv - 1 else a.unit.evqRsv } })

/-- Whether the barrier object of a command may be reached now: its page is not under migration (R237), and a path to its home remains (R257;
log 15). -/
def bobReady (s : State) (c : Cmd) : Bool :=
  qMode c.quad != 2 || (match pinPa c.pins c.quad.cw3.toNat with
    | some (pa, leaf) => !migratingAt s leaf pa && reachable s (homePkg pa)
    | none => true)

/-- The completion of a command by its CMODE (R281), a silent failure raising ENGINE (R282). -/
def complete (s : State) (c : Cmd) (status sub : BitVec 8) (detail count : Nat) : State :=
  match qMode c.quad with
  | 0 => putRecord s c (recordOf s c status sub detail count true) true
  | 1 => signalVf (putRecord s c (recordOf s c status sub detail count true) true) c.part 0
  | 2 =>
    match pinPa c.pins c.quad.cw3.toNat with
    | some (pa, _) => bobApply (noteFlags s c.core c.slot) pa (.engine count status)
    | none => s
  | _ =>
    let t := noteFlags s c.core c.slot
    let fail := fun (u : Unit) => { u with
      pending := u.pending ++ [{ stream := 10, cause := cENGINE, eval := BitVec.ofNat 64 (c.eng * 2 ^ 24 + c.seq.toNat) }]
      evl := u.evl || u.mode = .u }
    if status = 0 || status = cCANCELLED then t
    else if posterHere t c then setUnitAt t c.core c.slot (fail (unitAt t c.core c.slot))
    else onAway t c.uid (fun a => { a with unit := fail a.unit })

/-- The poster's queue halted by an error: it starts nothing more, and a RESTART of this clock comes before HALTED is set (R44, R282). -/
def haltOn (s : State) (c : Cmd) (status : BitVec 8) : State :=
  let halt := fun (u : Unit) => withPort u c.eng { portOf u c.eng with halted := true, haltAt := s.clk }
  if status = 0 || status = cCANCELLED then s
  else if posterHere s c then setUnitAt s c.core c.slot (halt (unitAt s c.core c.slot))
  else onAway s c.uid (fun a => { a with unit := halt a.unit })

/-- A command that has just started. -/
def runOf (c : Cmd) : Run :=
  { cmd := c, status := 0, sub := 0, detail := 0, count := 0, worked := false, lines := [], more := [], waits := none, pos := 0
    got := [], out := [], cover := [], opened := [], slots := 0 }

/-- A command cut (R283): its record, or its arrival with CANCELLED, which waits while its object's page is under migration (R237). -/
def cutCmd (s : State) (c : Cmd) : State :=
  match qMode c.quad with
  | 0 | 1 => putRecord s c (recordOf s c cCANCELLED 0 0 0 true) true
  | 2 => if bobReady s c then complete s c cCANCELLED 0 0 0
         else { s with cmds := s.cmds ++ [{ runOf c with status := cCANCELLED, worked := true }] }
  | _ => noteFlags s c.core c.slot

/-- Commands of a queue cut, in posting order. -/
def cutCmds (s : State) : List Cmd → State
  | [] => s
  | c :: cs => cutCmds (cutCmd s c) cs

/-- The unit of a slot with the commands of one queue that pass a test cut (R283). -/
def cutQueue (s : State) (core slot e : Nat) (p : Cmd → Bool) : State :=
  let t := noteFlags s core slot
  let u := unitAt t core slot
  let q := portOf u e
  cutCmds (setUnitAt t core slot (withPort u e { q with queue := q.queue.filter (fun c => !p c) })) (q.queue.filter p)

/-- PORT.CUT (R283). -/
def execPortCut (ra : BitVec 5) (eng : BitVec 4) (s : State) : Host.Outcome State Fault Refusal :=
  scalarWord (.portCut ra eng) (fun t =>
    let v := regRead t ra
    let e := eng.toNat
    if e ≥ 5 || above v 17 then .trap cOPERAND 0
    else
      let t1 := cutQueue t t.focus.core t.focus.slot e (fun c => wbits v 0 16 ≤ qTag c.quad)
      let u := getUnit t1
      let p := portOf u e
      .done (if wbits v 16 1 = 1 then setUnit t1 (withPort u e { p with halted := p.halted && p.haltAt == t.clk && t.clk != 0 }) else t1)) s

/-! ## EVQ.POP and EVQ.WAIT (R286, R287) -/

/-- Piece `n` of the four accesses that store a record, class 0 (R286); the last holds the record's one request slot (R244). -/
def recordPiece (s : State) (va : Word) (pa : Nat) (leaf : Word) (bs : List Byte) (n : Nat) : Access :=
  { id := 0, slot := s.focus.slot, uid := (getUnit s).uid, part := (getUnit s).part, pc := (getUnit s).pc, kind := .store (BitVec.ofNat 64 (fieldNat bs (8 * n) 8))
    cls := 0, va := va.toNat + 8 * n, pa := pa + 8 * n, n := 8, rd := 0, leaf := leaf, vpage := (pageSpan s va.toNat).1
    span := (pageSpan s va.toNat).2, granted := false, reserve := false, issue := s.clk, smode := (getUnit s).mode = .s
    ride := n != 3, join := none, passed := false }

/-- The state with the first `n` of the four accesses that store a record issued (R286). -/
def storeRecord (s : State) (va : Word) (pa : Nat) (leaf : Word) (bs : List Byte) : Nat → State
  | 0 => s
  | n + 1 => issueAccess (storeRecord s va pa leaf bs n) (recordPiece s va pa leaf bs n)

/-- A record popped: rd gets its first eight bytes (R286). -/
def popped (t : State) (rd : BitVec 5) (f : State → Rec → State) : Act :=
  let u := getUnit t
  match u.evq with
  | [] => .done (regWriteAfter t rd (BitVec.allOnes 64) 1)
  | r :: rs =>
    let t1 := noteFlags t t.focus.core t.focus.slot
    let t2 := f (setUnit t1 { getUnit t1 with evq := rs }) r
    .done (regWriteAfter t2 rd (BitVec.ofNat 64 (fieldNat (recBytes r) 0 8)) 1)

/-- EVQ.POP (R286). -/
def execEvqPop (rd ra : BitVec 5) (s : State) : Host.Outcome State Fault Refusal :=
  scalarWord (.evqPop rd ra) (fun t =>
    let va := regRead t ra
    if ra = 0 then popped t rd (fun t _ => t)
    else if fenceHolds (curCore t) (getUnit t) 0 || walkHeld t va then .hold
    else if va.toNat % 32 ≠ 0 then .trap cALIGN va
    else
      match translate t va .write with
      | (.fail c, _) => .trap c va
      | (.ok pa leaf, t') => if !homeOk t' pa then .hold else popped t' rd (fun t r => storeRecord t va pa leaf (recBytes r) 4)) s

/-- What EVQ.WAIT does when it issues or is tried again (R287). -/
def evqWaitBody (t : State) : Act := if (getUnit t).evq.isEmpty then .wait else .done t

/-- EVQ.WAIT (R287). -/
def execEvqWait (s : State) : Host.Outcome State Fault Refusal := scalarWord .evqWait evqWaitBody s

/-! ## Starting a command (R266, R270, R276, R282) -/

/-- The unit a poster names: the one in a slot, or from slot 4 on a pre-empted one, whose hub commands run on (R372). -/
def posterUnit (s : State) (p : Poster) : Unit :=
  if p.slot < 4 then unitAt s p.core p.slot else ((nth s.aways (p.slot - 4)).map (·.unit)).getD Unit.reset

/-- The state with the unit a poster names replaced. -/
def setPosterUnit (s : State) (p : Poster) (u : Unit) : State :=
  if p.slot < 4 then setUnitAt s p.core p.slot u
  else match nth s.aways (p.slot - 4) with
    | some a => { s with aways := setAt s.aways (p.slot - 4) { a with unit := u } }
    | none => s

/-- The unit's queue at an engine. -/
def queueAt (s : State) (p : Poster) (e : Nat) : List Cmd := (portOf (posterUnit s p) e).queue

/-- Whether a push is performed: the checker core has compared it (R141), its unit's earlier accesses of its class are performed, at
every scope, and those it releases within its SCOPE (R258, R266). -/
def pushDone (s : State) (c : Cmd) : Bool :=
  c.posted + 8 ≤ s.clk && !(getCore s c.core).units.any (fun e => e.2.uid == c.uid && e.2.compare.any (fun x => x.1 ≤ c.posted + 8))
  && !(getCore s c.core).accs.any (keepsPush (dieOf c.core) c.uid (qClass c.quad).toNat c.pushed (qScope c.quad))

/-- Whether an engine has met a reserved value in a command of a unit that has not ended yet: it starts no later one of the unit there
(R44). -/
def stalled (s : State) (uid e : Nat) : Bool :=
  s.cmds.any (fun r => r.cmd.uid == uid && r.cmd.eng == e
    && (r.status == cOPERAND
      || s.itins.any (fun x => x.2.cmd == r.cmd.id && x.2.fail.any (fun f => f.2.1 == cOPERAND && f.2.2 != 0x11))))

/-- The state with the head of a queue taken out and running; room is visible from the next clock (R289). -/
def takeHead (s : State) (p : Poster) (e : Nat) (r : Run) : State :=
  let t := if p.slot < 4 then noteFlags s p.core p.slot else s
  let u := posterUnit t p
  let t' := setPosterUnit t p (withPort u e { portOf u e with queue := (portOf u e).queue.drop 1 })
  { t' with cmds := t'.cmds ++ [r] }

/-- A start: the head of the poster's queue at an engine starts if it is the quad given and falls in the row given, its port is not
halted, what its push released is performed, and the engine may take it (R270, R282). -/
def startCmd (e : Nat) (row : CRow) (p : Poster) (q : Quad) (may : State → Cmd → Bool) (go : State → Cmd → State)
    (s : State) : Host.Outcome State Fault Refusal :=
  match queueAt s p e with
  | [] => .next s
  | c :: _ =>
    if c.quad = q && cmdRow c = row && !(portOf (posterUnit s p) e).halted && !stalled s c.uid e && pushDone s c && may s c then .next (go s c)
    else .next s

/-- The state with a run replaced. -/
def setRun (s : State) (r : Run) : State :=
  { s with cmds := s.cmds.map (fun x => if x.cmd.id = r.cmd.id then r else x) }

/-- The run of a command. -/
def runById (s : State) (id : Nat) : Option Run := s.cmds.find? (fun r => r.cmd.id == id)

/-- A command started and found reserved (R44): it ends with OPERAND at COMMAND_END. -/
def startRejected (e : Nat) (p : Poster) (s : State) (c : Cmd) : State :=
  takeHead s p e { runOf c with status := cOPERAND, worked := true }

end Sys2Proof.Machine
end

