-- ==== Sys2Proof/Machine/Hod.lean ====
section
/-! DEFINITION. The hod engine: HOD.COPY, HOD.FILL, HOD.IMLOAD, the decoding of pages into digit planes that it shares with the
tier engine, and the ending of every command (R72 to R74, R149, R235, R249, R281, R290 to R294). -/
namespace Sys2Proof.Machine

/-! ## Bits behind pins (R246, R249, R367) -/

/-- One byte behind a command's pins, and whether it lies on a poisoned line. -/
def pinByte (s : State) (pins : List Pin) (va : Nat) : Byte × Bool :=
  match pinPa pins va with
  | some (pa, _) => (memByte s.mem pa, poisoned s pa 1)
  | none => (0, false)

/-- `n` bytes behind a command's pins, and whether any lies on a poisoned line. -/
def pinBytes (s : State) (pins : List Pin) (va n : Nat) : List Byte × Bool :=
  ((span va n).map (fun a => (pinByte s pins a).1), (span va n).any (fun a => (pinByte s pins a).2))

/-- The bytes that `w` bits from a bit address lie in. -/
def bytesOver (bit w : Nat) : Nat := ceilDiv (bit % 8 + w) 8

/-- `w` bits from a bit address behind a command's pins, and whether they are uncorrectable. -/
def pinBits (s : State) (pins : List Pin) (bit w : Nat) : Nat × Bool :=
  let r := pinBytes s pins (bit / 8) (bytesOver bit w)
  (leNat r.1 / 2 ^ (bit % 8) % 2 ^ w, r.2)

/-- A run of bytes with `w` bits from bit `sh` replaced (R249). -/
def mergeBits (old : List Byte) (sh w v : Nat) : List Byte :=
  let m := leNat old
  leBytes old.length (m - m / 2 ^ sh % 2 ^ w * 2 ^ sh + v % 2 ^ w * 2 ^ sh)

/-- What a command writes so far: the state, bytes for inlet pages, elements written, elements read as PAD or suppressed, and
the cause and element at which it stopped; and the bits written so far of each line that is not yet written whole. -/
structure Walk where
  s : State
  out : List (Nat × Byte)
  cover : List (Nat × BitVec 512) := []
  n : Nat
  miss : Nat
  stop : Option (BitVec 8 × Nat)

/-- Bytes written one by one behind a command's pins; those for an inlet page are gathered into lines (R328). -/
def putBytes (pins : List Pin) : List Byte → Nat → Walk → Walk
  | [], _, a => a
  | b :: bs, va, a =>
    match pinPa pins va with
    | none => putBytes pins bs (va + 1) a
    | some (pa, _) =>
      if (inletChan pa).isSome then putBytes pins bs (va + 1) { a with out := a.out ++ [(pa, b)] }
      else putBytes pins bs (va + 1) { a with s := writeBytes a.s pa [b] }

/-- The bits of lines written so far, with `w` more from a bit address on. -/
def coverBits (pins : List Pin) (bit w : Nat) (m : List (Nat × BitVec 512)) : List (Nat × BitVec 512) :=
  (span bit w).foldl (fun m x => match pinPa pins (x / 8) with
    | some (pa, _) => mapSet m (pa / 64) (mapGet 0 m (pa / 64) ||| 1#512 <<< (8 * (pa % 64) + x % 8))
    | none => m) m

/-- An element of `w` bits written at a bit address behind a command's pins (R249); `bad` poisons its lines, and a line that the command
has written whole is no longer poisoned (R367). -/
def putElem (pins : List Pin) (bit w v : Nat) (bad : Bool) (a : Walk) : Walk :=
  let n := bytesOver bit w
  let a' := putBytes pins (mergeBits (pinBytes a.s pins (bit / 8) n).1 (bit % 8) w v) (bit / 8) { a with n := a.n + 1 }
  if bad then
    let lines := (span (bit / 8) n).filterMap (fun va => (pinPa pins va).map (fun p => p.1 / 64))
    { a' with
      s := { a'.s with poison := lines ++ a'.s.poison.filter (fun l => !lines.contains l) }
      cover := a'.cover.filter (fun e => !lines.contains e.1) }
  else
    let m := coverBits pins bit w a'.cover
    let whole := (m.filter (fun e => e.2 == BitVec.allOnes 512)).map (·.1)
    { a' with
      s := { a'.s with poison := a'.s.poison.filter (fun l => !whole.contains l) }
      cover := m.filter (fun e => !whole.contains e.1) }

/-- The lines an engine has to write to inlet pages, each whole line once and in order of first writing, and the channels of
the writes that are narrower (R328). -/
def inletLines (out : List (Nat × Byte)) : List (Nat × BitVec 512) × List Nat :=
  let lines := out.foldl (fun acc e => if acc.contains (e.1 / 64) then acc else acc ++ [e.1 / 64]) []
  let whole := lines.filter (fun l => (span (64 * l) 64).all (fun a => out.any (fun e => e.1 == a)))
  let chan := fun l => (64 * l - 0x700000000000) / 4096
  let last := fun a => mapGet 0 out.reverse a
  (whole.map (fun l => (chan l, BitVec.ofNat 512 (leNat ((span (64 * l) 64).map last)))),
   (lines.filter (fun l => !whole.contains l)).map chan)

/-- The state with writes refused by inlets. -/
def refuseAll (s : State) : List Nat → State
  | [] => s
  | c :: cs => refuseAll (inletRefuse s c) cs

/-! ## Weights into digit planes (R72 to R74, R149, R235, R292) -/

/-- The planes in a tile of format `f` of a weight element of format `g`, digit i at bits 3i on, and its head: it is converted under RNE,
unsaturated, and recoded (R71, R73, R74; log 55); none for a format the fabric does not take or a reserved T2 code (R44, R72). -/
def recode (g f : Fmt) (bits : Nat) : Option (Nat × Nat) :=
  if digitCount g = 0 || t2Reserved g bits then none
  else
    let w := convert g f 0 false bits
    some ((span 0 (digitCount f)).foldl (fun a i => a + digitPlanes (weightDigit f w i) * 8 ^ i) 0,
          if fmtFloat f then weightHead f w else 0)

/-- The planes and the head of weight (k, n) of an image of 32 by 32 weights, its bytes given, the leading `pl` digits read
(R149, R235); none where a digit read or the head is reserved (R46, R74). -/
def imageCell (f : Fmt) (pl : Nat) (img : List Byte) (k n : Nat) : Option (Nat × Nat) :=
  let D := digitCount f
  let bit := fun q => fieldNat img (128 * q + 4 * k + n / 8) 1 / 2 ^ (n % 8) % 2
  let digit := fun i => bit (3 * (D - 1 - i)) + 2 * bit (3 * (D - 1 - i) + 1) + 4 * bit (3 * (D - 1 - i) + 2)
  let head := if fmtFloat f then fieldNat img (384 * D + 2 * (32 * k + n)) 2 else 0
  let ds := span (D - pl) pl
  if ds.any (fun i => digit i / 2 == 3) || !headOk head then none
  else some (ds.foldl (fun a i => a + digit i * 8 ^ i) 0, head)

/-- What reading one weight comes to: its planes and head with the elements read as PAD; or the cause that stops. -/
inductive WRead where
  | cell (planes head : Nat) (padded : Bool)
  | stop (cause : BitVec 8)

/-- Whether a page decodes as a layout requires: FMTA names its format and BGEO is of its kind (R235, R246). -/
def leafDecodes (l : Layout) (leaf : Word) : Bool :=
  leafFmta leaf != 0 && fmtOfNat (leafFmta leaf - 1) == some l.fmt && (leafBgeo leaf != 0) == l.image

/-- Why an element of `n` bytes cannot be decoded: one of the pages it touches, two at most, has no pin or does not decode (R235, R246). -/
def pageStop (pins : List Pin) (l : Layout) (va n : Nat) : Option (BitVec 8) :=
  match pinPa pins va, pinPa pins (va + n - 1) with
  | some a, some b => if leafDecodes l a.2 && leafDecodes l b.2 then none else some cOPERAND
  | _, _ => some cXLATE

/-- Weight (k, n) of a window from a layout into a tile of format `f`, decoded under FMTA and BGEO of the pages it lies on (R235, R292);
`o0`, `o1` are the window's origin and `at_` moves a footprint address to where the bytes are. An image is of the tile's own format
(log 55). -/
def readWeight (s : State) (pins : List Pin) (l : Layout) (f : Fmt) (pl : Nat) (o0 o1 : Int) (at_ : Nat → Nat) (k n : Nat) : WRead :=
  let made := fun (x : Option (Nat × Nat)) (padded : Bool) => match x with
    | some (p, h) => WRead.cell p h padded
    | none => .stop cOPERAND
  let ix := if l.image then index2 l (o0 + (n / 32 : Nat)) (o1 + (k / 32 : Nat)) else index2 l (o0 + n) (o1 + k)
  match ix.bind (elemAt l) with
  | none => made (recode l.fmt f l.pad.toNat) true
  | some b =>
    let va := at_ (b.toNat / 8)
    match pageStop pins l va (bytesOver b.toNat l.bits) with
    | some c => .stop c
    | none =>
      if l.image then
        let img := pinBytes s pins va (imageBytes f)
        let plane := (pinPa pins va).any (fun p => leafBgeo p.2 = 1)
        if l.fmt != f then .stop cOPERAND
        else if img.2 then .stop cUNCORR
        else made (if plane then imageCell f pl img.1 (k % 32) (n % 32) else imageCell f pl img.1 (n % 32) (k % 32)) false
      else
        let r := pinBits s pins (8 * va + b.toNat % 8) (fmtBits l.fmt)
        if r.2 then .stop cUNCORR else made (recode l.fmt f r.1) false

/-- One byte of a digit-plane tile of K by N weights, each weight's planes and head given (R149). -/
def planeByte (f : Fmt) (pl K N : Nat) (cell : Nat → Nat → Nat × Nat) (b : Nat) : Nat :=
  let D := digitCount f
  let plane := K * N / 8
  if b < 3 * pl * plane then
    let q := b / plane
    let k := 8 * (b % plane) / N
    let n0 := 8 * (b % plane) % N
    (span 0 8).foldl (fun a i => a + (cell k (n0 + i)).1 / 2 ^ (3 * (D - 1 - q / 3) + q % 3) % 2 * 2 ^ i) 0
  else
    let e := b - 3 * pl * plane
    (cell (e / 2 / N) (e / 2 % N)).2 / 256 ^ (e % 2) % 256

/-- The words of a digit-plane tile (R149). -/
def planeWords (f : Fmt) (pl K N : Nat) (cell : Nat → Nat → Nat × Nat) (words : Nat) : List (Nat × Lane × Lane) :=
  (span 0 words).map (fun w =>
    (w, BitVec.ofNat 32 ((span 0 4).foldl (fun a i => a + planeByte f pl K N cell (4 * w + i) * 256 ^ i) 0), BitVec.allOnes 32))

/-- The words of a digit-plane tile, its weights' planes and heads given in rows (R149). -/
def tilePlanes (t : Tile) (cells : List (Nat × Nat)) : List (Nat × Lane × Lane) :=
  let tbl := cells.toArray
  planeWords (tileFmt t) t.pl.toNat (tileRows t) (tileCols t) (fun k n => tbl.getD (k * tileCols t + n) (0, 0)) (tileSize t / 4)

/-- The words of a digit-plane tile in which a weight of some stands, each weight given by whether it is one (R149). -/
def planeHolds (t : Tile) (some_ : List Bool) : List Nat :=
  ((tilePlanes t (some_.map (fun b => if b then (8 ^ digitCount (tileFmt t) - 1, 0xFFFF) else (0, 0)))).filter (fun w => w.2.1 != 0)).map (·.1)

/-- The words of a digit-plane tile from weights read, those poisoned in which one from uncorrectable data stands (R367). -/
def readPlanes (t : Tile) (cells : List (Nat × Nat × Bool)) : List (Nat × Lane × Lane × Bool) :=
  let bad := planeHolds t (cells.map (·.2.2))
  (tilePlanes t (cells.map (fun c => (c.1, c.2.1)))).map (fun w => (w.1, w.2.1, w.2.2, bad.contains w.1))

/-- Whether weight (k, n) is the first of an element read as PAD: each is one but for images, which are of 32 by 32 (R292). -/
def firstOfPad (l : Layout) (k n : Nat) : Bool := !l.image || (k % 32 = 0 && n % 32 = 0)

/-- The deposits of a whole digit-plane tile from a layout, those from uncorrectable data poisoned, or the element and the cause at which decoding stopped; the number of
layout elements read as PAD with them (R292). -/
def planeTile (s : State) (pins : List Pin) (l : Layout) (t : Tile) (o0 o1 : Int) (at_ : Nat → Nat) :
    (List (Nat × Lane × Lane × Bool) × Nat) ⊕ (BitVec 8 × Nat) :=
  let K := tileRows t
  let N := tileCols t
  let f := tileFmt t
  let pl := t.pl.toNat
  let rd := fun k n => readWeight s pins l f pl o0 o1 at_ k n
  let cells := (span 0 (K * N)).map (fun i => rd (i / N) (i % N))
  match (span 0 (K * N)).zip cells |>.findSome? (fun e => match e.2 with
      | .stop c => if c = cUNCORR then none else some (c, e.1)
      | .cell _ _ _ => none) with
  | some x => .inr x
  | none =>
    let pads := ((span 0 (K * N)).zip cells).filter (fun e => match e.2 with
      | .cell _ _ true => firstOfPad l (e.1 / N) (e.1 % N)
      | _ => false)
    .inl (readPlanes t (cells.map (fun c => match c with
      | .cell p h _ => (p, h, false)
      | .stop _ => (0, 0, true))), pads.length)

/-! ## Windows and the fields a command uses (R290 to R293) -/

def hodDir (q : Quad) : Nat := wbits q.cw1 30 2
def hodHandle (q : Quad) : BitVec 12 := BitVec.ofNat 12 (wbits q.cw1 0 12)
def hodGen (q : Quad) : BitVec 8 := BitVec.ofNat 8 (wbits q.cw1 12 8)
def winRows (q : Quad) : Nat := wbits q.cw2 52 12 + 1
def winCols (q : Quad) : Nat := wbits q.cw2 40 12 + 1
def winTr0 (q : Quad) : Nat := wbits q.cw2 28 12
def winO1 (q : Quad) : Int := signedNat 14 (wbits q.cw2 14 14)
def winO0 (q : Quad) : Int := signedNat 14 (wbits q.cw2 0 14)

/-- Whether a row of the hod engine uses a tile, a source layout, a destination layout. -/
def rowTile (r : CRow) : Bool := r == .copyToTile || r == .copyToMemory || r == .fillTile
def rowSrc (r : CRow) : Bool := r == .copyToTile || r == .copyMemory
def rowDst (r : CRow) : Bool := r == .copyToMemory || r == .copyMemory || r == .fillMemory

/-- Whether a field that the row does not use is not zero (R291). -/
def hodUnused (r : CRow) (q : Quad) : Bool :=
  (!(r == .fillTile || r == .fillMemory) && qArg q != 0)
  || (!rowSrc r && wbits q.cw1 48 16 != 0) || (!rowDst r && wbits q.cw1 32 16 != 0)
  || (!rowTile r && (wbits q.cw1 0 20 != 0 || winTr0 q != 0))
  || (r == .fillTile && wbits q.cw2 0 28 != 0)

/-- Whether the tile a command quotes, or its window, gives TILE (R146, R155, R290, R292). -/
def hodTileBad (t : Tile) (uid : Nat) (r : CRow) (q : Quad) : Bool :=
  !mayName t uid || t.gen != hodGen q || t.acc
  || (if t.pl = 0 then winTr0 q + winRows q > tileRows t || winCols q > tileCols t
      else r == .copyToMemory || winTr0 q != 0 || winRows q != tileRows t || winCols q != tileCols t)

/-- The status a command that is not HOD.IMLOAD ends with at once (R290 to R293): a field it does not use, its tile, a format
that differs, a fill value out of its format or reserved. -/
def hodReject (k : Core) (c : Cmd) (r : CRow) : Option (BitVec 8) :=
  let q := c.quad
  let t := tileOf k (hodHandle q).toNat
  let l0 := c.layouts.head?
  let f := if rowTile r then some (tileFmt t) else l0.map (·.fmt)
  if hodUnused r q then some cOPERAND
  else if rowTile r && hodTileBad t c.uid r q then some cTILE
  else if (r == .copyToMemory || (r == .copyToTile && t.pl = 0)) && l0.map (·.fmt) != f then some cOPERAND
  else if r == .copyMemory && (c.layouts.drop 1).head?.map (·.fmt) != f then some cOPERAND
  else if (r == .fillTile || r == .fillMemory)
      && (match f with
          | some g => qArg q ≥ 2 ^ fmtBits g || (g == .t2 && qArg q == 2)
          | none => true) then some cOPERAND
  else none

/-! ## The work of a command (R292, R293) -/

/-- A command's deposits into its tile. -/
def hodDeposits (s : State) (c : Cmd) (ws : List (Nat × Lane × Lane × Bool)) : List Deposit :=
  ws.map (fun w =>
    { src := .cmd c.id, core := c.core, handle := hodHandle c.quad, gen := hodGen c.quad, word := w.1, data := w.2.1
      mask := w.2.2.1, kind := .write, ranked := none, cls := qClass c.quad, due := s.clk, held := false, bad := w.2.2.2 })

/-- Word `w` of window row `r` of an element tile from its elements, each with whether it is uncorrectable: data, mask, and
whether any is uncorrectable (R197, R292). -/
def elemWord (t : Tile) (cols r w : Nat) (elem : Nat → Nat → Nat × Bool) : Lane × Lane × Bool :=
  let b := fmtBits (tileFmt t)
  let per := 32 / b
  let js := (span 0 per).filter (fun j => w * per + j < cols)
  (BitVec.ofNat 32 (js.foldl (fun a j => a + (elem r (w * per + j)).1 % 2 ^ b * 2 ^ (b * j)) 0),
   BitVec.ofNat 32 (js.foldl (fun a j => a + (2 ^ b - 1) * 2 ^ (b * j)) 0),
   js.any (fun j => (elem r (w * per + j)).2))

/-- The words a window of an element tile deposits in order. -/
def windowWords (t : Tile) (tr0 rows cols : Nat) (elem : Nat → Nat → Nat × Bool) : List (Nat × Lane × Lane × Bool) :=
  let per := 32 / fmtBits (tileFmt t)
  (span 0 rows).foldr (fun r acc =>
    (span 0 (ceilDiv cols per)).map (fun w =>
      let e := elemWord t cols r w elem
      ((tr0 + r) * pitch t / 4 + w, e.1, e.2.1, e.2.2)) ++ acc) []

/-- The words up to and with the first one that is uncorrectable. -/
def upToBad : List (Nat × Lane × Lane × Bool) → List (Nat × Lane × Lane × Bool)
  | [] => []
  | w :: ws => if w.2.2.2 then [w] else w :: upToBad ws

/-- A command's work done: its run with the deposits it makes. -/
def workedRun (s : State) (r : Run) (ws : List (Nat × Lane × Lane × Bool)) (status : BitVec 8) (detail count : Nat) : State :=
  setRun { s with deps := s.deps ++ hodDeposits s r.cmd ws }
    { r with worked := true, status := status, detail := detail, count := count }

/-! ## Line requests (R244, R245, R290) -/

/-- The 64-byte lines of `n` bytes from a virtual address, each with whether it is written. -/
def lineKeys (write : Bool) (va n : Nat) : List (Nat × Bool) :=
  (span (va / 64) ((va + n - 1) / 64 + 1 - va / 64)).map (fun l => (l, write))

/-- The lines of a layout element, none where it is out of bounds (R249). -/
def elemLines (l : Layout) (write : Bool) (x1 x0 : Int) : List (Nat × Bool) :=
  match (index2 l x0 x1).bind (elemAt l) with
  | some b => lineKeys write (b.toNat / 8) (bytesOver b.toNat l.bits)
  | none => []

/-- What a command does for the lines of its next element before it works it: nothing where it has requested them all; else it requests the
next, the engine one in a clock, in a shared slot that the command holds until it works the element; or it waits for that (R244, R245, R290,
R382). -/
def askLines (s : State) (r : Run) (need : List (Nat × Bool)) : Option State :=
  match need.find? (fun l => !r.opened.contains l) with
  | none => none
  | some l =>
    let c := r.cmd
    let k := getCore s c.core
    let pkg := homePkg (((pinPa c.pins (64 * l.1)).map (·.1)).getD 0)
    if s.clk < k.hodReq || !egressOk k c.part pkg || !reachable s pkg then some s
    else if !sharedFor k reqHod 1 then some (setCore s c.core (askShared k reqHod))
    else
      let t := setCore s c.core { shareTaken k reqHod with hodReq := s.clk + 1, hodLines := k.hodLines + 1 }
      some (setRun (noteEgress t c.core c.part pkg) { r with opened := r.opened.filter (need.contains ·) ++ [l], slots := r.slots + 1 })

/-- A command with the request slots of its lines given back, their responses having come (R244). -/
def linesDone (r : Run) : Run := { r with slots := 0 }

/-- The state with the request slots of a command's lines given back. -/
def freeLines (s : State) (r : Run) : State :=
  let k := getCore s r.cmd.core
  setRun (setCore s r.cmd.core { k with hodLines := k.hodLines - r.slots }) (linesDone r)

/-! ## Elements in order (R270, R290, R292, R293) -/

/-- The element of HOD.COPY DIR 0 with index `i` read into an element tile: its word is deposited with its last element, and the command
stops after a word with an uncorrectable one (R292, R367). -/
def readElem (s : State) (r : Run) (l : Layout) (i : Nat) : State :=
  let q := r.cmd.quad
  let t := tileOf (getCore s r.cmd.core) (hodHandle q).toNat
  let b := fmtBits (tileFmt t)
  let per := 32 / b
  let row := i / winCols q
  let col := i % winCols q
  let bit := (index2 l (winO0 q + (col : Nat)) (winO1 q + (row : Nat))).bind (elemAt l)
  let v := match bit with
    | some x => pinBits s r.cmd.pins x.toNat b
    | none => (l.pad.toNat, false)
  let got := r.got ++ [(v.1, 0, v.2)]
  let w := col / per
  let ends := col % per + 1 = per || col + 1 = winCols q
  let stop := v.2 && r.status = 0
  let r1 := { r with
    pos := i + 1, got := if ends then [] else got, status := if stop then cUNCORR else r.status
    detail := if stop then i else if r.status = 0 && bit.isNone then r.detail + 1 else r.detail }
  if !ends then setRun s r1
  else
    let e := elemWord t (winCols q) row w (fun _ c => let x := (nth got (c - w * per)).getD (0, 0, false); (x.1, x.2.2))
    let r2 := { r1 with count := r.count + 4, worked := r1.status ≠ 0 }
    let r3 := if r1.status = 0 && i + 1 = winRows q * winCols q then
        { r2 with worked := true, count := ceilDiv (winRows q * winCols q * b) 8 } else r2
    setRun { s with deps := s.deps ++ hodDeposits s r.cmd [((winTr0 q + row) * pitch t / 4 + w, e.1, e.2.1, e.2.2)] } r3

/-- The weight of HOD.COPY DIR 0 with index `i` read for a digit-plane tile, which is deposited once all have been decoded; one that
stops it leaves the tile as it was (R292). One that is uncorrectable ends the command with UNCORR, and the words it stands in are deposited
poisoned (R367). -/
def readPlane (s : State) (r : Run) (l : Layout) (i : Nat) : State :=
  let q := r.cmd.quad
  let t := tileOf (getCore s r.cmd.core) (hodHandle q).toNat
  let k := i / winCols q
  let n := i % winCols q
  let goOn := fun (cell : Nat × Nat × Bool) (r1 : Run) =>
    let got := r.got ++ [cell]
    if i + 1 < winRows q * winCols q then setRun s { r1 with pos := i + 1, got := got }
    else workedRun s { r1 with pos := i + 1, got := [] } (readPlanes t got) r1.status r1.detail (tileSize t)
  match readWeight s r.cmd.pins l (tileFmt t) t.pl.toNat (winO0 q) (winO1 q) id k n with
  | .stop cause =>
    if cause = cUNCORR then goOn (0, 0, true) (if r.status = 0 then { r with status := cause, detail := i } else r)
    else setRun s { r with worked := true, status := cause, detail := i, got := [] }
  | .cell p h padded =>
    goOn (p, h, false) { r with detail := if r.status = 0 && padded && firstOfPad l k n then r.detail + 1 else r.detail }

/-- HOD.FILL DIR 0 (R293). -/
def fillTile (s : State) (r : Run) : State :=
  let q := r.cmd.quad
  let t := tileOf (getCore s r.cmd.core) (hodHandle q).toNat
  if t.pl = 0 then
    let ws := windowWords t (winTr0 q) (winRows q) (winCols q) (fun _ _ => (qArg q, false))
    workedRun s r ws 0 0 (ceilDiv (winRows q * winCols q * fmtBits (tileFmt t)) 8)
  else
    match recode (tileFmt t) (tileFmt t) (qArg q) with
    | some cell =>
      let ws := planeWords (tileFmt t) t.pl.toNat (tileRows t) (tileCols t) (fun _ _ => cell) (tileSize t / 4)
      workedRun s r (ws.map (fun w => (w.1, w.2.1, w.2.2, false))) 0 0 (tileSize t)
    | none => setRun s { r with worked := true, status := cOPERAND }

/-- The element written to memory through a layout, or suppressed (R249); an element that is an image takes the value's bits
right-aligned (log 61). -/
def storeElem (pins : List Pin) (l : Layout) (q : Quad) (i j : Nat) (v : Nat × Bool) (a : Walk) : Walk :=
  match (index2 l (winO0 q + (j : Nat)) (winO1 q + (i : Nat))).bind (elemAt l) with
  | none => { a with miss := a.miss + 1 }
  | some bit => putElem pins bit.toNat l.bits v.1 v.2 a

/-- The walk after an element: one that is uncorrectable stops the command there (R367). -/
def stopIf (bad : Bool) (i : Nat) (a : Walk) : Walk := if bad then { a with stop := some (cUNCORR, i) } else a

/-- Element (i, j) of the window of HOD.COPY DIR 1 or 2 or HOD.FILL DIR 1 written (R292, R293). -/
def walkElem (s : State) (c : Cmd) (row : CRow) (dst : Layout) (i j : Nat) (a : Walk) : Walk :=
  let q := c.quad
  let k := getCore s c.core
  let t := tileOf k (hodHandle q).toNat
  match row, c.layouts.head? with
  | .copyToMemory, _ =>
    let w := (winTr0 q + i) * pitch t / 4 + j * fmtBits (tileFmt t) / 32
    let bad := k.spoil.contains (tileKey t w)
    stopIf bad (i * winCols q + j) (storeElem c.pins dst q i j (tileElem k t (winTr0 q + i) j, bad) a)
  | .copyMemory, some src =>
    match (index2 src (winO0 q + (j : Nat)) (winO1 q + (i : Nat))).bind (elemAt src) with
    | none => storeElem c.pins dst q i j (src.pad.toNat, false) { a with miss := a.miss + 1 }
    | some bit =>
      let v := pinBits s c.pins bit.toNat src.bits
      stopIf v.2 (i * winCols q + j) (storeElem c.pins dst q i j v a)
  | _, _ => storeElem c.pins dst q i j (qArg q, false) a

/-- The element with index `i` of a command that writes memory; its lines for inlets and its counts are settled after the last one
(R249, R292, R328). -/
def writeElem (s : State) (r : Run) (row : CRow) (dst : Layout) (i : Nat) : State :=
  let q := r.cmd.quad
  let a := walkElem s r.cmd row dst (i / winCols q) (i % winCols q) { s := s, out := r.out, cover := r.cover, n := r.count, miss := r.detail, stop := none }
  if a.stop.isNone && i + 1 < winRows q * winCols q then setRun a.s { r with pos := i + 1, out := a.out, cover := a.cover, count := a.n, detail := a.miss }
  else
    let ls := inletLines a.out
    let r1 := { r with pos := i + 1, out := [], cover := [], worked := true, lines := ls.1, count := ceilDiv (a.n * dst.bits) 8 }
    setRun (refuseAll a.s ls.2) (match a.stop with
      | some (cause, j) => { r1 with status := cause, detail := j }
      | none => { r1 with detail := a.miss })

/-- The lines of memory that the element with index `i` needs; one that is decoded from images needs its image (R292). -/
def needLines (decode : Bool) (c : Cmd) (row : CRow) (i : Nat) : List (Nat × Bool) :=
  let q := c.quad
  let r := i / winCols q
  let col := i % winCols q
  let lines := fun (l : Layout) (write : Bool) =>
    if decode && l.image then elemLines l write (winO1 q + (r / 32 : Nat)) (winO0 q + (col / 32 : Nat)) else elemLines l write (winO1 q + r) (winO0 q + col)
  match row, c.layouts with
  | .copyToTile, l :: _ => lines l false
  | .copyMemory, l :: d :: _ => lines l false ++ lines d true
  | .copyToMemory, d :: _ => lines d true
  | .fillMemory, d :: _ => lines d true
  | _, _ => []

/-- Whether the work of a command must wait: its tile is being cleared or, where it is to read it, not FULL (R153, R156); a page it
writes is under migration (R237). -/
def hodWaits (s : State) (r : Run) (row : CRow) : Bool :=
  let c := r.cmd
  let t := tileOf (getCore s c.core) (hodHandle c.quad).toNat
  (rowTile row && !storageIn t) || (row == .copyToMemory && r.pos = 0 && !isFull t s.clk)
  || (rowDst row && c.pins.any (fun p => leafW p.attr && migratingAt s p.attr p.pa))

/-- The next element of a command worked (R290, R292, R293). -/
def hodElem (s : State) (r : Run) (row : CRow) : State :=
  match row, r.cmd.layouts with
  | .copyToTile, l :: _ =>
    if (tileOf (getCore s r.cmd.core) (hodHandle r.cmd.quad).toNat).pl = 0 then readElem s r l r.pos else readPlane s r l r.pos
  | .fillTile, _ => fillTile s r
  | .copyMemory, _ :: l :: _ => writeElem s r row l r.pos
  | .copyMemory, _ => setRun s { r with worked := true, status := cOPERAND }
  | _, l :: _ => writeElem s r row l r.pos
  | _, [] => setRun s { r with worked := true, status := cOPERAND }

/-- Whether a command decodes what it reads: into a digit-plane tile (R292). -/
def hodDecodes (k : Core) (c : Cmd) (row : CRow) : Bool := row == .copyToTile && (tileOf k (hodHandle c.quad).toNat).pl != 0

/-- A turn of the work of a started HOD.COPY or HOD.FILL: its next element's lines are requested, or the element is worked, independently
of the others (R263, R290). -/
def hodWork (s : State) (r : Run) (row : CRow) : State :=
  let k := getCore s r.cmd.core
  match (if r.pos = 0 then hodReject k r.cmd row else none) with
  | some status => setRun (freeLines s r) { linesDone r with worked := true, status := status }
  | none =>
    if hodWaits s r row then s
    else (askLines s r (needLines (hodDecodes k r.cmd row) r.cmd row r.pos)).getD (hodElem (freeLines s r) (linesDone r) row)

/-! ## HOD.IMLOAD (R294) -/

/-- The core with words written to its instruction memory, which join the unit's image set (R294, R377). -/
def loadWords (k : Core) (uid : Nat) (mem w0 : Nat) : List (List Byte) → Core
  | [] => k
  | bs :: more =>
    let k' := if mem = 0 then
        noteImage { k with imemV := mapSet k.imemV w0 (BitVec.ofNat 96 (leNat bs)) } uid
          (fun i => { i with vwords := if i.vwords.contains w0 then i.vwords else i.vwords ++ [w0] })
          (fun i => { i with vwords := i.vwords.filter (· != w0) })
      else
        noteImage { k with imemM := mapSet k.imemM w0 (BitVec.ofNat 192 (leNat bs)) } uid
          (fun i => { i with mwords := if i.mwords.contains w0 then i.mwords else i.mwords ++ [w0] })
          (fun i => { i with mwords := i.mwords.filter (· != w0) })
    loadWords { k' with badWords := k'.badWords.filter (· != 8192 * mem + w0) } uid mem (w0 + 1) more

/-- A turn of the work of HOD.IMLOAD (R290, R294): the lines of its next word are requested, or the word is loaded; one whose bytes are
uncorrectable ends it. -/
def imloadWork (s : State) (r : Run) : State :=
  let c := r.cmd
  let q := c.quad
  let mem := wbits q.cw0 0 1
  let w0 := wbits q.cw1 51 13
  let n := wbits q.cw1 38 13 + 1
  let wb := if mem = 1 then 24 else 12
  let va := q.cw2.toNat + r.pos * wb
  if w0 + n > 8192 then setRun s { r with worked := true, status := cOPERAND }
  else
    (askLines s r (lineKeys false va wb)).getD
      (let x := pinBytes s c.pins va wb
       let t := freeLines s r
       if x.2 then setRun t { linesDone r with worked := true, status := cUNCORR, detail := r.pos, count := r.pos * wb }
       else
         setRun (setCore t c.core (loadWords (getCore t c.core) c.uid mem (w0 + r.pos) [x.1]))
           { linesDone r with pos := r.pos + 1, worked := r.pos + 1 = n, count := if r.pos + 1 = n then n * wb else 0 })

/-! ## Starts (R290) -/

/-- Whether a started hod command is set aside, held on a FULL tile (R290). -/
def hodAside (s : State) (r : Run) : Bool := s.deps.any (fun d => d.src == .cmd r.cmd.id && d.held)

/-- Whether a unit has a hod command that has started and not ended. -/
def hodActive (s : State) (core uid : Nat) : Bool :=
  s.cmds.any (fun r => r.cmd.eng == 0 && r.cmd.core == core && r.cmd.uid == uid)

/-- Whether the head of a slot's hod queue could start, the engine being free. -/
def hodReady (s : State) (core slot : Nat) : Bool :=
  let u := unitAt s core slot
  match (portOf u 0).queue with
  | [] => false
  | c :: _ => !(portOf u 0).halted && pushDone s c && !hodActive s core u.uid

/-- The command of a core's hod engine that it serves: the one it took last, unless that has ended or is set aside (R290). -/
def hodServed (s : State) (core : Nat) : Option Run :=
  s.cmds.find? (fun r => r.cmd.eng == 0 && r.cmd.core == core && (getCore s core).hodCur == some r.cmd.id && !hodAside s r)

/-- Whether a slot has a command to go on with that was set aside and is so no more (R290). -/
def hodBack (s : State) (core slot : Nat) : Bool :=
  s.cmds.any (fun r => r.cmd.eng == 0 && r.cmd.core == core && r.cmd.slot == slot && !r.worked && !hodAside s r)

/-- Whether the hod engine turns to a slot next: it serves no command, and the slot is the first in cyclic order that has one to start or
to go on with (R290). -/
def hodFirst (s : State) (core slot : Nat) : Bool :=
  (hodServed s core).isNone
  && (span 0 4).all (fun j => cyclicGap (getCore s core).hodLast slot ≤ cyclicGap (getCore s core).hodLast j
      || !(hodReady s core j || hodBack s core j))

/-- Whether the hod engine may start a command (R290). -/
def hodMay (s : State) (c : Cmd) : Bool := !hodActive s c.core c.uid && hodFirst s c.core c.slot

/-- The state with the command noted that the hod engine serves. -/
def hodServe (s : State) (c : Cmd) : State :=
  setCore s c.core { getCore s c.core with hodLast := c.slot, hodCur := some c.id }

/-- Whether a started command is the one the hod engine works: it serves it, or goes back to it now (R290). -/
def hodTurn (s : State) (r : Run) : Bool :=
  !hodAside s r && (match hodServed s r.cmd.core with
    | some x => x.cmd.id == r.cmd.id
    | none => hodFirst s r.cmd.core r.cmd.slot)

/-- A turn of a started command of the hod engine. -/
def hodRun (s : State) (r : Run) : State :=
  if !hodTurn s r then s
  else
    let t := if (hodServed s r.cmd.core).isSome then s else hodServe s r.cmd
    if cmdRow r.cmd = .imload then imloadWork t r else hodWork t r (cmdRow r.cmd)

/-- A hod command started, and its work done where nothing holds it. -/
def hodGo (p : Poster) (row : CRow) (s : State) (c : Cmd) : State :=
  hodWork (takeHead (hodServe s c) p 0 (runOf c)) (runOf c) row

/-- A start of a HOD.COPY or HOD.FILL in one row of the table. -/
def startHod (row : CRow) (p : Poster) (q : Quad) (s : State) : Host.Outcome State Fault Refusal :=
  startCmd 0 row p q hodMay (hodGo p row) s

/-- HOD.COPY, DIR 0 (R292). -/
def execHodCopyToTile (p : Poster) (q : Quad) (s : State) : Host.Outcome State Fault Refusal := startHod .copyToTile p q s
/-- HOD.COPY, DIR 1 (R292). -/
def execHodCopyToMemory (p : Poster) (q : Quad) (s : State) : Host.Outcome State Fault Refusal := startHod .copyToMemory p q s
/-- HOD.COPY, DIR 2 (R292). -/
def execHodCopyMemory (p : Poster) (q : Quad) (s : State) : Host.Outcome State Fault Refusal := startHod .copyMemory p q s
/-- HOD.FILL, DIR 0 (R293). -/
def execHodFillTile (p : Poster) (q : Quad) (s : State) : Host.Outcome State Fault Refusal := startHod .fillTile p q s
/-- HOD.FILL, DIR 1 (R293). -/
def execHodFillMemory (p : Poster) (q : Quad) (s : State) : Host.Outcome State Fault Refusal := startHod .fillMemory p q s

/-- HOD.IMLOAD (R294). -/
def execHodImload (p : Poster) (q : Quad) (s : State) : Host.Outcome State Fault Refusal :=
  startCmd 0 .imload p q hodMay (fun s c => imloadWork (takeHead (hodServe s c) p 0 (runOf c)) (runOf c)) s

/-- A hod command whose CODE or DIR is reserved started (R44). -/
def hodRejected (p : Poster) (q : Quad) (s : State) : Host.Outcome State Fault Refusal :=
  startCmd 0 .reserved p q hodMay (fun s c => startRejected 0 p (hodServe s c) c) s

/-! ## Parts of COMMAND_END (R271, R281, R282) -/

/-- Lines pushed to inlets while they have room (R328). -/
def pushLines (s : State) : List (Nat × BitVec 512) → State × List (Nat × BitVec 512)
  | [] => (s, [])
  | (c, line) :: more =>
    match inletOffer s c line with
    | some t => pushLines t more
    | none => (s, (c, line) :: more)

/-- Whether deposits of a command are outstanding, here or at a destination. -/
def cmdDeps (s : State) (id : Nat) : Bool :=
  s.deps.any (fun d => match d.src with
    | .cmd j => j == id
    | _ => false)

/-- A further record entered where the queue holds a free unreserved entry, with the clock and TNS of its writing (R281, R284);
it waits while its unit is away. -/
def enterMore (s : State) (r : Run) (x : Rec) (xs : List Rec) : State :=
  let u := unitAt s r.cmd.core r.cmd.slot
  if !posterHere s r.cmd then (if s.aways.any (fun a => a.unit.uid == r.cmd.uid) then s else setRun s { r with more := xs })
  else if u.evq.length + u.evqRsv < 64 then
    putRecord (setRun s { r with more := xs }) r.cmd { x with entered := s.clk, tns := BitVec.ofNat 64 s.tb.tns } false
  else s

/-- The ending of a command whose work, deposits and further records are done (R281, R282); its poster sees BUSY fall from the next clock on
(R288, R289). -/
def endCmd (s : State) (r : Run) : State :=
  let t := if posterHere s r.cmd then noteFlags s r.cmd.core r.cmd.slot else s
  haltOn (complete { t with cmds := t.cmds.filter (fun x => x.cmd.id != r.cmd.id) } r.cmd r.status r.sub r.detail r.count)
    r.cmd r.status

end Sys2Proof.Machine
end

