-- ==== Sys2Proof/Machine/Time.lean ====
section
/-! DEFINITION. The time base and the trace buffer: the clock, TNS and its discipline, RDTIME, RDCYC, SLEEPUNTIL, trace records
and TRC.MARK (R1, R399 to R406). -/
namespace Sys2Proof.Machine

/-! ## The trace buffer (R403 to R405) -/

/-- A trace record of 32 bytes: TYPE, bytes 1 to 15, TNS, bytes 24 to 31 (R405). -/
def traceRec (typ : Nat) (low : List Byte) (tns : Nat) (high : List Byte) : List Byte :=
  (BitVec.ofNat 8 typ :: low ++ List.replicate (15 - low.length) 0) ++ leBytes 8 tns ++ (high ++ List.replicate (8 - high.length) 0)

/-- The trace writer's counts of a partition at its creation, before any record has been written. -/
def Trace.reset : Trace := { wrptr := 0, lost := 0, unreported := 0, ok := false }

/-- The trace writer's counts of a partition. -/
def traceOf (s : State) (p : Nat) : Trace := mapGet Trace.reset s.traces p

/-- The state with the counts of a partition's trace writer replaced. -/
def withTrace (s : State) (p : Nat) (t : Trace) : State := { s with traces := mapSet s.traces p t }

/-- Records a partition's buffer holds (R403). -/
def traceCap (pt : Part) : Nat := (pt.trlen - 64) / 32

/-- RDPTR of a partition's buffer (R403); none where the buffer does not translate. -/
def traceRd (s : State) (p : Nat) : Option Nat :=
  match hubRead s p ((partOf s p).trva + 8) 8 with
  | some bs => some (leNat bs)
  | none => none

/-- A record written at WRPTR where the buffer has room, then WRPTR in the control block; vector 3 is signalled when the fill count reaches
half (R403); none where it does not fit, or the buffer does not translate or is not writable. -/
def putTrace (s : State) (p rd : Nat) (bs : List Byte) : Option State :=
  let pt := partOf s p
  let t := traceOf s p
  if t.wrptr - rd ≥ traceCap pt then none
  else
    match (hubWrite s p (pt.trva + 64 + 32 * (t.wrptr % traceCap pt)) bs).bind (fun u => hubWrite u p pt.trva (leBytes 8 (t.wrptr + 1))) with
    | none => none
    | some s1 =>
      let s2 := withTrace s1 p { t with wrptr := t.wrptr + 1, ok := true }
      some (if t.wrptr + 1 - rd = ceilDiv (traceCap pt) 2 then signalVf s2 p 3 else s2)

/-- A record discarded: LOST counts it, in the control block too where that can be written, and the first discard after a successful write
signals vector 3 (R403). -/
def dropTrace (s : State) (p : Nat) : State :=
  let t := traceOf s p
  let s1 := withTrace s p { t with lost := t.lost + 1, unreported := t.unreported + 1, ok := false }
  let s2 := (hubWrite s1 p ((partOf s p).trva + 16) (leBytes 8 (t.lost + 1))).getD s1
  if t.ok then signalVf s2 p 3 else s2

/-- The LOST record owed to a reader once room returns (R403, R405). -/
def owedTrace (s : State) (p rd : Nat) : State :=
  let t := traceOf s p
  if t.unreported = 0 then s
  else
    match putTrace s p rd (traceRec 8 ([0, 0, 0] ++ leBytes 4 t.unreported) s.tb.tns []) with
    | some s1 => withTrace s1 p { traceOf s1 p with unreported := 0 }
    | none => s

/-- A record placed in a partition's trace buffer: the state and the record's index, none where it is discarded (R403). -/
def placeTrace (s : State) (p : Nat) (bs : List Byte) : State × Option Nat :=
  if (partOf s p).trlen < 96 then (s, none)
  else
    match traceRd s p with
    | none => (dropTrace s p, none)
    | some rd =>
      let s1 := owedTrace s p rd
      match putTrace s1 p rd bs with
      | some s2 => (s2, some (traceOf s1 p).wrptr)
      | none => (dropTrace s1 p, none)

/-- What stands for the engine id of a source that is no engine: its records of a clock come after those of the engines (R404; log 60). -/
def noEngine : Nat := 15

/-- A record sent to the trace writer by a source, an engine id and a core (R404); records of one clock are placed at its end. -/
def traceWrite (s : State) (p eng core : Nat) (bs : List Byte) : State :=
  { s with traceq := s.traceq ++ [{ part := p, eng := eng, core := core, bytes := bs, cmd := none }] }

/-- A list of records with one put in its place: by engine id, then core, then arrival (R404). -/
def placeIn (x : TraceIn) : List TraceIn → List TraceIn
  | [] => [x]
  | y :: ys => if x.eng * 512 + x.core < y.eng * 512 + y.core then x :: y :: ys else y :: placeIn x ys

/-- A record that has arrived placed; a TRC.MARK has done its work with it, and COUNT is the record's index or all ones (R406). -/
def arriveTrace (s : State) (x : TraceIn) : State :=
  let r := placeTrace s x.part x.bytes
  match x.cmd.bind (runById r.1) with
  | some run => setRun r.1 { run with worked := true, count := r.2.getD (2 ^ 64 - 1) }
  | none => r.1

/-- The records that have arrived in a clock placed at its end (R404). -/
def flushTrace (s : State) : State := (s.traceq.foldl (fun xs x => placeIn x xs) []).foldl arriveTrace { s with traceq := [] }

/-! ## TNS (R399) -/

/-- The rate correction of one clock: at most 500 ppm of it, towards the offset still to be removed. -/
def slewStep (tb : TimeBase) : Int :=
  let m : Int := tb.period / 2000
  max (-m) (min m tb.slew)

/-- The time base one clock later, with the step it was to make. -/
def advanceTime (tb : TimeBase) : TimeBase :=
  let a := slewStep tb
  let f := ((tb.frac + tb.period : Nat) + a).toNat
  { tb with tns := tb.tns + tb.jump + f / 21000, frac := f % 21000, slew := tb.slew - a, jump := 0 }

/-- A SYNC record written to every partition of a list (R405). -/
def syncAll (bs : List Byte) : List (Nat × Part) → State → State
  | [], s => s
  | (p, _) :: ps, s => syncAll bs ps (traceWrite s p noEngine 0 bs)

/-- The time base in a state: a change of state is recorded in every partition and signals vector 5 of the physical function
(R386, R405). -/
def enterSync (s : State) (st : Nat) (offset : Int) (before : Nat) : State :=
  let bs := traceRec 7 (BitVec.ofNat 8 st :: [0, 0] ++ leBytes 4 (BitVec.ofInt 32 offset).toNat ++ leBytes 8 before) s.tb.tns []
  if s.tb.st = st then s
  else
    let s1 := { s with tb := { s.tb with st := st }, pfEv := s.pfEv ||| 32 }
    syncAll bs s1.parts s1

/-- TNS disciplined by an offset to the reference in ns (R399): a forward offset above 1 ms is one step, which TNS makes as the next clock
begins so that it has one value in each clock; any other is slewed. -/
def discipline (s : State) (offset : Int) : State :=
  if offset > 1000000 then { s with tb := { s.tb with slew := 0, jump := offset.toNat } }
  else
    enterSync { s with tb := { s.tb with slew := offset * 21000, jump := 0 } } (if offset = 0 then 2 else 1) offset 0

/-- TNS loaded by firmware that has verified, once after a reset and before any partition exists; TNS does not decrease (R396, R399). -/
def loadTime (s : State) (tns : Nat) : State :=
  if s.fw.verified && !s.fw.timed && s.parts.isEmpty && s.tb.tns ≤ tns then
    { s with tb := { s.tb with tns := tns }, fw := { s.fw with timed := true } }
  else s

/-- PTP_SYNC (R399). -/
def execPtpSync (offset : Int) (s : State) : Host.Outcome State Fault Refusal := .next (discipline s offset)

/-- The offset from TNS to the nearest second (R399). -/
def toSecond (tns : Nat) : Int :=
  let r := tns % 1000000000
  if r < 500000000 then -(r : Int) else 1000000000 - (r : Int)

/-- PPS_EDGE (R399): the edge fixes a second boundary. -/
def execPpsEdge (s : State) : Host.Outcome State Fault Refusal := .next (discipline s (toSecond s.tb.tns))

/-- REFERENCE_LOST (R405): the time base runs free. -/
def execReferenceLost (s : State) : Host.Outcome State Fault Refusal :=
  .next (enterSync { s with tb := { s.tb with slew := 0, jump := 0 } } 0 0 0)

/-- DVFS_CHANGE (R1, R398): a clock lasts another time, and no figure in clocks changes. -/
def execDvfsChange (ps : Nat) (s : State) : Host.Outcome State Fault Refusal :=
  if ps = 0 then .next s else .next { s with tb := { s.tb with period := 21 * ps } }

/-! ## The clock -/

/-- A core's request slots at the start of a clock: reads that were over within the last one have given theirs back (R244, R245). -/
def slotsTick (k : Core) : Core := { k with brief := [], asks := [], asked := k.asks }

/-- Whether a unit waits at a SLEEPUNTIL whose time TNS has reached (R402). -/
def sleptOut (tns : Nat) (u : Unit) : Bool :=
  match u.wait with
  | some (.sleepuntil ra) => (if ra = 0 then 0 else u.regs[ra.toNat]'(ra.isLt)).toNat ≤ tns
  | _ => false

/-- A core with the clock noted in which TNS reached the time of each SLEEPUNTIL that still waits (R402). -/
def wakeSleepers (clk tns : Nat) (k : Core) : Core :=
  { k with units := k.units.map (fun e => (e.1, { e.2 with woken := if sleptOut tns e.2 then some (e.2.woken.getD clk) else none })) }

/-- A core at the start of a clock: knot writes become visible (R97), and the lines an MLDW reads in the clock show whether they are
uncorrectable (R189). -/
def coreTick (clk tns : Nat) (k : Core) : Core := wakeSleepers clk tns (slotsTick (loadsRead clk (knotsDue clk k)))

/-- One clock (R400): TNS, which verified firmware has started (R396), advances or makes the step it is to make, and an offset slewed out
locks the time base. -/
def tick (s : State) : State :=
  let tb := if s.fw.verified then advanceTime s.tb else s.tb
  let clk := s.clk + 1
  let t := { s with clk := clk, tb := tb, cores := s.cores.map (fun e => (e.1, coreTick clk tb.tns e.2)) }
  if tb.jump < s.tb.jump then enterSync t 3 s.tb.jump s.tb.tns
  else if tb.st = 1 && tb.slew = 0 then enterSync t 2 0 0 else t

/-- A number of clocks. -/
def ticks : Nat → State → State
  | 0, s => s
  | n + 1, s => ticks n (tick s)

/-! ## RDTIME, RDCYC, SLEEPUNTIL (R402) -/

/-- RDTIME (R402). -/
def execRdtime (rd : BitVec 5) (s : State) : Host.Outcome State Fault Refusal :=
  scalarWord (.rdtime rd) (fun t => .done (regWriteAfter t rd (BitVec.ofNat 64 t.tb.tns) 2)) s

/-- RDCYC (R400, R402). -/
def execRdcyc (rd : BitVec 5) (s : State) : Host.Outcome State Fault Refusal :=
  scalarWord (.rdcyc rd) (fun t => .done (regWriteAfter t rd (BitVec.ofNat 64 t.clk) 1)) s

/-- What SLEEPUNTIL does when it issues or is tried again (R402). -/
def sleepBody (ra : BitVec 5) (t : State) : Act := if (regRead t ra).toNat ≤ t.tb.tns then .done t else .wait

/-- SLEEPUNTIL (R402). -/
def execSleepuntil (ra : BitVec 5) (s : State) : Host.Outcome State Fault Refusal :=
  scalarWord (.sleepuntil ra) (sleepBody ra) s

/-! ## TRC.MARK (R406) -/

/-- The MARK record of a command (R405). -/
def markRec (s : State) (c : Cmd) : List Byte :=
  traceRec 2 (BitVec.ofNat 8 (wbits c.quad.cw0 0 8) :: leBytes 2 (c.core + c.slot * 512) ++ leBytes 2 (qTag c.quad)
    ++ [0, 0] ++ leBytes 8 c.quad.cw1.toNat) s.tb.tns (leBytes 8 s.clk)

/-- A TRC.MARK started: its record goes to the trace writer (R404, R406). -/
def markGo (p : Poster) (s : State) (c : Cmd) : State :=
  let t := takeHead s p 4 (runOf c)
  { t with traceq := t.traceq ++ [{ part := c.part, eng := 4, core := c.core, bytes := markRec s c, cmd := some c.id }] }

/-- TRC.MARK (R406). -/
def execTrcMark (p : Poster) (q : Quad) (s : State) : Host.Outcome State Fault Refusal :=
  startCmd 4 .mark p q (fun _ _ => true) (markGo p) s

end Sys2Proof.Machine
end

