-- ==== Sys2Proof/Machine/Tiers.lean ====
section
/-! DEFINITION. The tier engine: itineraries, hops, windows, lateness, TIER.RUN, TIER.STOP and ropes (R295 to R309). -/
namespace Sys2Proof.Machine

/-! ## Tiers and pages (R295, R299) -/

/-- The tier a physical address lies in (R295): 1 HBM stage, 2 LPDDR-6, 3 CXL pool, 0 none. -/
def pageTier (pa : Nat) : Nat :=
  if pa < 0x2000000000 then (if pa % 0x800000000 < 0x600000000 then 1 else 0)
  else if 0x10000000000 ≤ pa && pa < 0x28000000000 then 2
  else if 0x100000000000 ≤ pa && pa < 0x500000000000 then 3
  else 0

/-- The page of an address, walked by a hub engine (R240). -/
def hubPage (s : State) (p va : Nat) (kind : AccessKind) : Pin ⊕ BitVec 8 :=
  match translateIn s.mem [] (partOf s p) p va kind with
  | (.ok _ leaf, e :: _) => .inl { vpage := e.vpage, span := e.span, pa := entryPa e e.vpage, attr := leaf }
  | (.fail c, _) => .inr c
  | (.ok _ _, []) => .inr cXLATE

/-- The pages of a range walked and pinned by a hub engine, each in the tier required (0: any). -/
def hubPins (s : State) (p : Nat) (kind : AccessKind) (tier hi : Nat) : Nat → Nat → List Pin → List Pin ⊕ BitVec 8
  | 0, _, pins => .inl pins
  | n + 1, lo, pins =>
    if hi < lo then .inl pins
    else
      match hubPage s p lo kind with
      | .inr c => .inr c
      | .inl q =>
        if tier ≠ 0 && pageTier q.pa ≠ tier then .inr cWINDOW
        else hubPins s p kind tier hi n (q.vpage + q.span) (if pins.contains q then pins else pins ++ [q])

/-- Bytes read by a hub engine; or the cause of the first that does not translate, or UNCORR where a line is poisoned (R367). -/
def hubBytes (s : State) (p va n : Nat) : List Byte ⊕ BitVec 8 :=
  match hubRead s p va n with
  | some bs =>
    if (span va n).any (fun a => match translateHub s p a .read with
        | .ok pa _ => poisoned s pa 1
        | .fail _ => false) then .inr cUNCORR
    else .inl bs
  | none =>
    match (span va n).findSome? (fun a => match translateHub s p a .read with
        | .fail c => some c
        | .ok _ _ => none) with
    | some c => .inr c
    | none => .inr cXLATE

/-- A layout record read by a hub engine (R240, R247). -/
def hubLayout (s : State) (p i : Nat) : Layout ⊕ BitVec 8 :=
  let pt := partOf s p
  if i ≥ pt.ltlen then .inr cOPERAND
  else
    match hubBytes s p (pt.ltbase + 64 * i) 64 with
    | .inr c => .inr c
    | .inl bs =>
      match layoutOf bs with
      | some l => .inl l
      | none => .inr cOPERAND

/-! ## Heads and steps (R297, R298) -/

/-- Whether a step names hop `h`. -/
def hasHop (hops h : Nat) : Bool := hops / 2 ^ h % 2 == 1

/-- The first and the last hop of a step, and the hop before hop `h`. -/
def firstHop (hops : Nat) : Nat := if hasHop hops 0 then 0 else if hasHop hops 1 then 1 else 2
def lastHop (hops : Nat) : Nat := if hasHop hops 2 then 2 else if hasHop hops 1 then 1 else 0
def prevHop (hops h : Nat) : Option Nat := if h > 0 && hasHop hops (h - 1) then some (h - 1) else none

/-- The step 32 bytes hold (R298). -/
def stepOf (bs : List Byte) : TStep :=
  { sly := fieldNat bs 0 2, hops := fieldNat bs 2 1, handle := BitVec.ofNat 12 (fieldNat bs 4 2), sub := fieldNat bs 4 2 / 4096 % 8
    gen := BitVec.ofNat 8 (fieldNat bs 6 1), core := fieldNat bs 8 2 % 512, due := fieldNat bs 12 4, lpva := fieldNat bs 16 8
    stva := fieldNat bs 24 8, lo := 0, len := 0, layout := none, started := [], done := [], pins := [], moved := false
    pos := 0, copy := [], spoilt := [], fore := [], delivered := false, reached := false }

/-- Whether a step breaks R298, R304 or R306: a reserved bit, HOPS, a hop with WSTEPS 0, LPVA, STVA or DEST. -/
def stepBad (it : Itin) (bs : List Byte) : Bool :=
  let t := stepOf bs
  !([1, 3, 7, 2, 6, 4].contains t.hops)
  || fieldNat bs 3 1 != 0 || fieldNat bs 5 1 ≥ 128 || fieldNat bs 7 1 != 0 || fieldNat bs 8 2 ≥ 512 || fieldNat bs 10 2 != 0
  || (span 0 3).any (fun h => hasHop t.hops h && (nth it.wsteps h).getD 0 == 0)
  || (t.lpva != 0) != hasHop t.hops 0 || (t.stva != 0) != hasHop t.hops 1
  || t.lpva % 64 != 0 || t.stva % 64 != 0
  || (!hasHop t.hops 2 && fieldNat bs 4 2 != 0)
  || (it.role == 1 && hasHop t.hops 2) || (it.role == 2 && t.hops != 6)

/-- A step as read, or as it stands in memory while it has not been read (R300, log 29), with the cause it fails with. -/
def lookStep (s : State) (it : Itin) (i : Nat) : TStep × Option (BitVec 8) :=
  match mapFind it.steps i with
  | some t => (t, none)
  | none =>
    match hubBytes s it.part (it.iva + 32 + 32 * i) 32 with
    | .inr c => (stepOf [], some c)
    | .inl bs => (stepOf bs, if stepBad it bs then some cOPERAND else none)

/-- The steps the run may still start lie below this one (R304). -/
def haltStep (it : Itin) : Nat :=
  match it.fail with
  | some (i, _, _) => min i it.nsteps
  | none => it.nsteps

/-- An itinerary with a step replaced. -/
def withStep (it : Itin) (i : Nat) (t : TStep) : Itin := { it with steps := mapSet it.steps i t }

/-- The state with the itinerary of a slot replaced. -/
def withItin (s : State) (slot : Nat) (it : Itin) : State := { s with itins := mapSet s.itins slot it }

/-- A flit sent for an itinerary, egress of its command's core (R382). -/
def tierSend (s : State) (it : Itin) (dst : Nat) (b : FlitBody) : State :=
  match runById s it.cmd with
  | some r => sendFrom s it.part r.cmd.core dst b
  | none => sendFlit s dst b

/-- Whether the journal of an itinerary's core takes a flit to a package (R382). -/
def tierEgress (s : State) (it : Itin) (pkg : Nat) : Bool :=
  match runById s it.cmd with
  | some r => egressOk (getCore s r.cmd.core) it.part (destOf pkg)
  | none => true

/-! ## Due points and windows (R300, R301) -/

/-- MCNT of a sub-array that exists (R200, R302). -/
def mcntOf (s : State) (core sub : Nat) : Option (BitVec 32) := (subOf (getCore s core) sub).map (·.mcnt)

/-- MCNT of a sub-array, as it last stood where it no longer exists (R302). -/
def frozenMcnt (s : State) (core sub : Nat) : Option (BitVec 32) :=
  match mcntOf s core sub with
  | some m => some m
  | none => mapFind (getCore s core).frozen sub

/-- DUEE of a step (R301). -/
def dueOf (it : Itin) (t : TStep) : BitVec 32 := BitVec.ofNat 32 (it.mbase + t.due)

/-- Whether the consumer's MCNT, be it frozen, has reached a step's effective due point (R300 to R302). -/
def dueReached (s : State) (it : Itin) (t : TStep) : Bool :=
  t.reached || (match frozenMcnt s t.core t.sub with
    | some m => (m - dueOf it t).toNat < 2 ^ 31
    | none => false)

/-- Bytes of a step for its windows: its footprint rounded up to 64 (R300). -/
def stepBytes (t : TStep) : Nat := 64 * ceilDiv t.len 64

/-- Whether every present subscriber has acknowledged the landing of step `i` (R307). -/
def allAcked (it : Itin) (i : Nat) : Bool := i < it.sent && it.subs.all (fun u => u.acked.contains i)

/-- Whether a step is in flight at hop `h` (R300); a rope's source keeps its last staging copy until the landings are
acknowledged (R307). -/
def inFlightAt (s : State) (it : Itin) (i h : Nat) (t : TStep) : Bool :=
  t.started.contains h
  && (if h = 2 then !dueReached s it t
      else if hasHop t.hops (h + 1) then !t.done.contains (h + 1)
      else if it.role = 1 then !allAcked it i
      else !t.done.contains h)

/-- Steps and bytes in flight at hop `h`. -/
def flightSteps (s : State) (it : Itin) (h : Nat) : List TStep :=
  (it.steps.filter (fun e => inFlightAt s it e.1 h e.2)).map (·.2)

/-! ## Starting a hop (R299, R300) -/

/-- Whether a step has started a hop. -/
def begun (t : TStep) : Bool := !t.started.isEmpty || !t.done.isEmpty

/-- The step that is lowest not yet started at hop `h`, of those that name it, looked for from step `i` on; a stopped run starts no
further step (R305). -/
def nextStep (s : State) (it : Itin) (h : Nat) : Nat → Nat → Option (Nat × TStep × Option (BitVec 8))
  | 0, _ => none
  | n + 1, i =>
    let t := lookStep s it i
    if it.stop.isSome && !begun t.1 then nextStep s it h n (i + 1)
    else if t.2.isSome || (hasHop t.1.hops h && !t.1.started.contains h && !t.1.done.contains h) then some (i, t.1, t.2)
    else nextStep s it h n (i + 1)

/-- A step with its layout read and its footprint known, images counted by the page of BASE; or the cause (R240, R246, R299). -/
def prepStep (s : State) (it : Itin) (t : TStep) : TStep ⊕ BitVec 8 :=
  match hubLayout s it.part t.sly with
  | .inr c => .inr c
  | .inl l =>
    let l1 := match hubPage s it.part l.base .read with
      | .inl q => withPage l q.attr
      | .inr _ => l
    let r : Nat × Nat := match footprint l1 with
      | some (lo, hi) => (lo.toNat, (hi - lo).toNat + 1)
      | none => (0, 0)
    let t1 := { t with layout := some l1, lo := r.1, len := r.2 }
    if (span 0 3).any (fun h => hasHop t.hops h && stepBytes t1 > 65536 * (nth it.wbytes h).getD 0) then .inr cOPERAND
    else .inl t1

/-- Pages of a range of `n` bytes. -/
def rangePins (s : State) (p : Nat) (kind : AccessKind) (tier lo n : Nat) (pins : List Pin) : List Pin ⊕ BitVec 8 :=
  if n = 0 then .inl pins else hubPins s p kind tier (lo + n - 1) (n / 65536 + 2) lo pins

/-- The pages of a step, pinned when its first hop starts (R299). -/
def stepPins (s : State) (it : Itin) (t : TStep) : List Pin ⊕ BitVec 8 :=
  match rangePins s it.part .read (3 - firstHop t.hops) t.lo t.len [] with
  | .inr c => .inr c
  | .inl p1 =>
    match (if t.lpva = 0 then (.inl p1 : List Pin ⊕ BitVec 8) else rangePins s it.part .write 2 t.lpva t.len p1) with
    | .inr c => .inr c
    | .inl p2 => if t.stva = 0 then .inl p2 else rangePins s it.part .write 1 t.stva t.len p2

/-- What hop `h` of an itinerary can do next: nothing, start a step, or fail at one. -/
inductive HopTry where
  | nothing
  | go (i : Nat) (t : TStep)
  | fail (i : Nat) (status : BitVec 8)

/-- Whether the window of hop `h` has room for one more step; a hop with WSTEPS 0, which no step may name, has room for the step that
fails on it (R298, R300). -/
def stepRoom (s : State) (it : Itin) (h : Nat) : Bool := (flightSteps s it h).length < max 1 ((nth it.wsteps h).getD 0)

/-- Whether the window of hop `h` has room for the bytes of a step (R300). -/
def byteRoom (s : State) (it : Itin) (h : Nat) (t : TStep) : Bool :=
  (flightSteps s it h).foldl (fun a x => a + stepBytes x) 0 + stepBytes t ≤ 65536 * (nth it.wbytes h).getD 0

/-- The hop at which a step that cannot be read or breaks its layout fails: its first one where HOPS can be told, else the lowest hop of
the run with a window (R304; log 29). -/
def badHop (it : Itin) (t : TStep) : Nat :=
  if ([1, 3, 7, 2, 6, 4] : List Nat).contains t.hops then firstHop t.hops
  else ((span 0 3).find? (fun h => (nth it.wsteps h).getD 0 != 0)).getD 0

/-- The start of step `i` at hop `h`, where the window has room for a step: its layout read at its first hop and, if its bytes fit too,
its pages pinned. -/
def hopStep (s : State) (it : Itin) (h i : Nat) (t : TStep) : HopTry :=
  match (if t.layout.isSome then (.inl t : TStep ⊕ BitVec 8) else prepStep s it t) with
  | .inr c => .fail i c
  | .inl t1 =>
    if !byteRoom s it h t1 then .nothing
    else if h = firstHop t.hops then
      match stepPins s it t1 with
      | .inr c => .fail i c
      | .inl ps => .go i { t1 with pins := ps, started := h :: t1.started, pos := 0 }
    else .go i { t1 with started := h :: t1.started, pos := 0 }

/-- What hop `h` of an itinerary can do next (R300, R304, R305); the first hop of a subscriber's step is the landing of its
copy (R306). -/
def hopTry (s : State) (it : Itin) (h : Nat) : HopTry :=
  if it.stop = some false || (it.role = 2 && h = 1) || !stepRoom s it h then .nothing
  else
    match nextStep s it h (haltStep it - it.first) it.first with
    | none => .nothing
    | some (i, t, some c) => if badHop it t = h then .fail i c else .nothing
    | some (i, t, none) =>
      if (prevHop t.hops h).any (fun p => !t.done.contains p) then .nothing
      else hopStep s it h i t

/-- Whether a hop has something to do. -/
def HopTry.some? : HopTry → Bool
  | .nothing => false
  | _ => true

/-- Whether a slot is the next in cyclic order whose hop `h` has something to do (R300). -/
def slotNext (s : State) (slot h : Nat) : Bool :=
  let last := mapGet 63 s.tierLast h
  let gap := fun j => (j + 64 - last % 64 - 1) % 64
  s.itins.all (fun e => gap slot ≤ gap e.1 || !(hopTry s e.2 h).some?)

/-- HOP_START (R300). -/
def execHopStart (slot hop : Nat) (s : State) : Host.Outcome State Fault Refusal :=
  match mapFind s.itins slot with
  | none => .next s
  | some it =>
    if hop ≥ 3 || !slotNext s slot hop then .next s
    else
      match hopTry s it hop with
      | .nothing => .next s
      | .fail i c => .next (withItin s slot (failAt it i hop c (hop + 1)))
      | .go i t => .next { withItin s slot (withStep it i t) with tierLast := mapSet s.tierLast hop slot }

/-! ## Completing a hop (R299, R304, R309) -/

/-- Raw bytes copied behind a step's pins, and whether any was uncorrectable, in which case its lines are poisoned (R299, R367). -/
def moveBytes (s : State) (pins : List Pin) (dst src n : Nat) : State × Bool :=
  let r := pinBytes s pins src n
  let a := putBytes pins r.1 dst { s := s, out := [], n := 0, miss := 0, stop := none }
  if r.2 then
    let bad := (span 0 n).filterMap (fun i =>
      if (pinByte s pins (src + i)).2 then (pinPa pins (dst + i)).map (fun p => p.1 / 64) else none)
    ({ a.s with poison := bad ++ a.s.poison.filter (fun l => !bad.contains l) }, true)
  else (a.s, false)

/-- The deposits H2 makes into the whole tile DEST, with how many bytes they are; or the cause (R292, R299). -/
def hopWords (s : State) (t : TStep) (l : Layout) (tile : Tile) : (List (Nat × Lane × Lane × Bool) × Nat) ⊕ BitVec 8 :=
  let at_ := fun va => if hasHop t.hops 1 then t.stva + (va - t.lo) else va
  let b := fmtBits (tileFmt tile)
  if tile.pl = 0 then
    let raw := { l with bits := fmtBits l.fmt, image := false }
    let elem := fun r c => match (index2 raw (c : Nat) (r : Nat)).bind (elemAt raw) with
      | some bit => pinBits s t.pins (8 * at_ (bit.toNat / 8) + bit.toNat % 8) b
      | none => (l.pad.toNat, false)
    if l.fmt != tileFmt tile then .inr cOPERAND
    else .inl (windowWords tile 0 (tileRows tile) (tileCols tile) elem, ceilDiv (tileRows tile * tileCols tile * b) 8)
  else
    match planeTile s t.pins l tile 0 0 at_ with
    | .inr (c, _) => .inr c
    | .inl (ws, _) => .inl (ws, tileSize tile)

/-- H2's deposits as they stand in the state. -/
def hopDeposits (s : State) (slot i : Nat) (t : TStep) (cls : BitVec 4) (ws : List (Nat × Lane × Lane × Bool)) : List Deposit :=
  ws.map (fun w =>
    { src := .hop slot i, core := t.core, handle := t.handle, gen := t.gen, word := w.1, data := w.2.1, mask := w.2.2.1
      kind := .write, ranked := none, cls := cls, due := s.clk, held := false, bad := w.2.2.2 })

/-- The class of an itinerary's command. -/
def itinClass (s : State) (it : Itin) : BitVec 4 := ((runById s it.cmd).map (fun r => qClass r.cmd.quad)).getD 0

/-- H2 makes its deposits, which are egress of its command's core where they go to another, or fails (R146, R299, R382). -/
def startH2 (s : State) (slot : Nat) (it : Itin) (i : Nat) (t : TStep) (l : Layout) : State :=
  let tile := tileOf (getCore s t.core) t.handle.toNat
  if !tile.valid || tile.gen != t.gen || tile.acc then withItin s slot (failAt it i 2 cTILE 3)
  else if !storageIn tile then s
  else
    match hopWords { s with mem := overlaid t.fore s.mem } t l tile with
    | .inr c => withItin s slot (failAt it i 2 c 3)
    | .inl (ws, n) =>
      let good := !ws.any (·.2.2.2)
      let it1 := { withStep it i { t with moved := true } with bytes := if good then it.bytes + n else it.bytes }
      let s0 := match runById s it.cmd with
        | some r => if r.cmd.core = t.core then s else noteEgress s r.cmd.core it.part none
        | none => s
      let s1 := { s0 with deps := s.deps ++ hopDeposits s slot i t (itinClass s it) (if tile.pl = 0 then upToBad ws else ws) }
      withItin s1 slot (if good then it1 else failAt it1 i 2 cUNCORR 3)

/-- A history of the last 64 steps a slot's run has delivered (R314). -/
def pushHist (h : List Nat) (sly : Nat) : List Nat := (h ++ [sly]).drop (h.length + 1 - 64)

/-- L(h) of an itinerary in 16 bits of a PROG record (R304). -/
def latBits (it : Itin) (h : Nat) : Nat := (BitVec.ofInt 16 ((nth it.lat h).getD (-32768))).toNat

/-- The PROG record of a delivered step (R304). -/
def progRecord (s : State) (it : Itin) (i : Nat) : State :=
  match runById s it.cmd with
  | some r =>
    if it.prog && qMode r.cmd.quad ≤ 1 then
      setRun s { r with more := r.more ++ [recordOf s r.cmd 0 0 i (latBits it 2 + latBits it 1 * 65536 + latBits it 0 * 2 ^ 32) false] }
    else s
  | none => s

/-- A step with hop `h` completed: delivered by its last hop unless the run has failed at or before it; L(h) is recomputed in
the next clock (R300, R301, R304, R314). -/
def hopDone (s : State) (slot : Nat) (it : Itin) (i h : Nat) (t : TStep) : State :=
  let t1 := { t with done := h :: t.done }
  let it1 := { it with dirty := (h, s.clk + 1) :: it.dirty }
  if h = lastHop t.hops && i < haltStep it then
    let t2 := { t1 with delivered := true, pins := if it.role = 1 then t1.pins else [] }
    let it2 := { withStep it1 i t2 with delivered := it.delivered + 1 }
    progRecord { withItin s slot it2 with hist := mapSet s.hist slot (pushHist (mapGet [] s.hist slot) t.sly) } it2 i
  else withItin s slot (withStep it1 i t1)

/-- Whether a page a hop writes is under migration (R309). -/
def hopHeld (s : State) (t : TStep) (h : Nat) : Bool :=
  let dst := if h = 0 then t.lpva else t.stva
  t.pins.any (fun p => p.vpage < dst + t.len && dst < p.vpage + p.span && migratingAt s p.attr p.pa)

/-- Whether a started hop of step `i` can go on now. -/
def hopCan (s : State) (slot h i : Nat) (t : TStep) : Bool :=
  t.started.contains h && !t.done.contains h
  && (if h = 2 then
        let tile := tileOf (getCore s t.core) t.handle.toNat
        (if t.moved then !hasDeps s (.hop slot i) else !tile.valid || tile.gen != t.gen || tile.acc || storageIn tile)
      else !hopHeld s t h)

/-- The line of an address no longer poisoned, which a staging copy has now written whole (R367). -/
def clearLine (s : State) (pins : List Pin) (va : Nat) : State :=
  match pinPa pins va with
  | some (pa, _) => if onMigrating s pa then s else { s with poison := s.poison.filter (fun l => l != pa / 64) }
  | none => s

/-- The state with the lines poisoned in which bytes behind a command's pins stand (R367). -/
def poisonAt (s : State) (pins : List Pin) (vas : List Nat) : State :=
  let bad := vas.filterMap (fun va => (pinPa pins va).map (fun p => p.1 / 64))
  { s with poison := bad ++ s.poison.filter (fun l => !bad.contains l) }

/-- The bytes of a copy that come in a piece from uncorrectable data, by their addresses at the destination. -/
def badOf (t : TStep) (dst n : Nat) : List Nat := (span 0 n).filterMap (fun i => if t.spoilt.contains (t.pos + i) then some (dst + i) else none)

/-- A piece of a staging hop of step `i`: at most 4 bytes in one aligned word of the destination, lowest first, read at its source or, at a
subscriber's landing, from the copy (R263, R299, R307). -/
def hopPiece (s : State) (slot : Nat) (it : Itin) (i h : Nat) (t : TStep) (landing : Bool) (total : Nat) : State :=
  let dst := (if h = 0 then t.lpva else t.stva) + t.pos
  let src := (if h = firstHop t.hops then t.lo else t.lpva) + t.pos
  let n := min (total - t.pos) (4 - dst % 4)
  let r := if landing then
      (poisonAt (putBytes t.pins ((t.copy.drop t.pos).take n) dst { s := s, out := [], n := 0, miss := 0, stop := none }).s t.pins (badOf t dst n), false)
    else moveBytes s t.pins dst src n
  let line := t.pos + n - min (t.pos + n) 64
  let u := if (dst + n) % 64 = 0 && !t.spoilt.any (fun i => line ≤ i && i < t.pos + n) then clearLine r.1 t.pins dst else r.1
  if r.2 then withItin r.1 slot (failAt it i h cUNCORR (h + 1)) else withItin u slot (withStep it i { t with pos := t.pos + n })

/-- A turn of a staging hop: its next piece, or its end once all are written; a subscriber then acknowledges its copy (R299, R307). -/
def stagingHop (s : State) (slot : Nat) (it : Itin) (i h : Nat) (t : TStep) : State :=
  let landing := it.role = 2 && h = 1
  let total := if landing then t.copy.length else t.len
  if t.pos < total then hopPiece s slot it i h t landing total
  else
    let u := hopDone s slot it i h { t with copy := [] }
    if landing then tierSend u it it.peer (.copyAck it.rope ownPkg i) else u

/-- What a started hop does (R299): H0 and H1 copy piece by piece and complete; H2 makes its deposits and completes when they are
counted. -/
def runHop (s : State) (slot : Nat) (it : Itin) (i h : Nat) (t : TStep) : State :=
  if h = 2 then
    (if t.moved then hopDone s slot it i 2 t
     else match t.layout with
      | some l => startH2 s slot it i t l
      | none => s)
  else stagingHop s slot it i h t

/-- HOP_COMPLETE (R299, R300): the lowest started step of the hop that can go on does (log 29). -/
def execHopComplete (slot hop : Nat) (s : State) : Host.Outcome State Fault Refusal :=
  match mapFind s.itins slot with
  | none => .next s
  | some it =>
    match it.steps.find? (fun e => hopCan s slot hop e.1 e.2) with
    | some (i, t) => if hop < 3 then .next (runHop s slot it i hop t) else .next s
    | none => .next s

/-! ## Lateness (R301 to R303) -/

/-- The oldest step not yet completed at hop `h`, of those that name it. -/
def oldestStep (s : State) (it : Itin) (h : Nat) : Nat → Nat → Option (Nat × TStep)
  | 0, _ => none
  | n + 1, i =>
    let t := lookStep s it i
    if t.2.isNone && hasHop t.1.hops h && !t.1.done.contains h then some (i, t.1) else oldestStep s it h n (i + 1)

/-- L(h) for an MCNT and a step (R301). -/
def lateness (it : Itin) (h : Nat) (m : BitVec 32) (t : TStep) : Int :=
  max (-32768) (min 32767 (m - (dueOf it t - BitVec.ofNat 32 ((nth it.lead h).getD 0))).toInt)

/-- The LATE record of a step and hop (R303, R405). -/
def lateRec (s : State) (slot : Nat) (it : Itin) (h i : Nat) (l : Int) (m : BitVec 32) (t : TStep) : List Byte :=
  traceRec 3 ([BitVec.ofNat 8 h, BitVec.ofNat 8 slot, 0] ++ leBytes 4 i ++ leBytes 2 (BitVec.ofInt 16 l).toNat
    ++ leBytes 2 t.core ++ [BitVec.ofNat 8 t.sub]) s.tb.tns (leBytes 4 m.toNat ++ leBytes 4 (dueOf it t).toNat)

/-- L(h) of one hop recomputed (R301); a sub-array that does not exist leaves it (R302); the first time it exceeds TRACEL a LATE
record is written (R303). -/
def relate (s : State) (slot h : Nat) : State :=
  match mapFind s.itins slot with
  | none => s
  | some it =>
    let none_ := { it with lat := setAt it.lat h (-32768), names := setAt it.names h none }
    if (nth it.wsteps h).getD 0 = 0 then withItin s slot none_
    else
      match oldestStep s it h (it.nsteps - it.first) it.first with
      | none => withItin s slot none_
      | some (i, t) =>
        let it1 := { it with names := setAt it.names h (some (t.core, t.sub)) }
        match mcntOf s t.core t.sub with
        | none => withItin s slot it1
        | some m =>
          let l := lateness it h m t
          let it2 := { it1 with lat := setAt it1.lat h l }
          if l > it.tracel && !it.late.contains (i, h) then
            traceWrite (withItin s slot { it2 with late := (i, h) :: it.late }) it.part 1 (((runById s it.cmd).map (·.cmd.core)).getD 0)
              (lateRec s slot it h i l m t)
          else withItin s slot it2

/-- The steps whose effective due point MCNT has reached noted (R300). -/
def noteReached (s : State) (it : Itin) : Itin :=
  { it with steps := it.steps.map (fun e => (e.1, { e.2 with reached := dueReached s it e.2 })) }

/-- Steps a subscriber has consumed, in order: H2 completed and the due point reached (R307). -/
def consumedSteps (it : Itin) : Nat → Nat → Nat
  | 0, i => i
  | n + 1, i =>
    match mapFind it.steps i with
    | some t => if t.done.contains 2 && t.reached then consumedSteps it n (i + 1) else i
    | none => i

/-- A subscriber's consumed steps reported to the source (R307). -/
def reportConsumed (s : State) (slot : Nat) : State :=
  match mapFind s.itins slot with
  | none => s
  | some it =>
    let n := consumedSteps it it.nsteps 0
    if it.role = 2 && it.joined && n ≠ it.consumed then
      tierSend (withItin s slot { it with consumed := n }) it it.peer (.consumed it.rope ownPkg n)
    else s

/-- The hops of a list recomputed. -/
def relates (slot : Nat) : List Nat → State → State
  | [], s => s
  | h :: hs, s => relates slot hs (relate s slot h)

/-- LATENESS_RECOMPUTE (R301): in the clock after MCNT of a consumer changes or a hop completes a step. -/
def execLatenessRecompute (slot : Nat) (s : State) : Host.Outcome State Fault Refusal :=
  match mapFind s.itins slot with
  | none => .next s
  | some it =>
    let due := (span 0 3).filter (fun h => it.dirty.any (fun d => d.1 == h && d.2 ≤ s.clk))
    if due.isEmpty then .next s
    else
      let it1 := noteReached s { it with dirty := it.dirty.filter (fun d => s.clk < d.2) }
      .next (reportConsumed (relates slot due (withItin s slot it1)) slot)

/-! ## TIER.RUN and TIER.ROPE (R304, R306) -/

def tierSlot (q : Quad) : Nat := wbits q.cw0 0 6

/-- Whether a partition owns an itinerary slot (R296). -/
def ownsSlot (s : State) (p slot : Nat) : Bool :=
  let pt := partOf s p
  pt.itbase ≤ slot && slot < pt.itbase + pt.itcnt

/-- The itinerary a head describes (R297); none where it holds a reserved value. L(h) stands at -32768, no consumer named, until it is first
recomputed, which R301 leaves open (the model's choice, log 62). -/
def headItin (c : Cmd) (role : Nat) (bs : List Byte) : Option Itin :=
  let q := c.quad
  let first := if role = 0 then wbits q.cw2 0 16 else 0
  let grp := fun (h lo n : Nat) => fieldNat bs (8 + 8 * h + lo) n
  if fieldNat bs 2 1 > 1 || fieldNat bs 5 3 != 0 || (span 0 3).any (fun h => grp h 0 1 > 64) || first ≥ fieldNat bs 0 2 then none
  else some
    { cmd := c.id, role := role, part := c.part, iva := wbits q.cw1 0 55, nsteps := fieldNat bs 0 2, prog := fieldNat bs 2 1 == 1
      tracel := signedNat 16 (fieldNat bs 3 2), wsteps := (span 0 3).map (fun h => grp h 0 1)
      wbytes := (span 0 3).map (fun h => grp h 1 2), lead := (span 0 3).map (fun h => grp h 3 2)
      thresh := (span 0 3).map (fun h => signedNat 16 (grp h 5 2)), gain := (span 0 3).map (fun h => grp h 7 1)
      mbase := wbits q.cw2 32 32, first := first, steps := [], lat := [-32768, -32768, -32768], names := [none, none, none]
      dirty := [], late := [], fail := none, stop := none, delivered := 0, bytes := 0, rope := wbits q.cw0 8 12
      peer := wbits q.cw2 16 12, slack := wbits q.cw2 0 8, nsub := wbits q.cw2 8 6, accepted := 0, subs := [], sent := 0, joined := false
      consumed := 0, left := 0, gone := false }

/-- The status a TIER.RUN or TIER.ROPE ends with at once, of the slot and the rope's fields (R296, R306). -/
def tierReject (s : State) (c : Cmd) (role : Nat) : Option (BitVec 8) :=
  let q := c.quad
  let pt := partOf s c.part
  if !ownsSlot s c.part (tierSlot q) then some cWINDOW
  else if role = 1 && (wbits q.cw2 0 8 = 0 || wbits q.cw2 0 8 > 64 || wbits q.cw2 8 6 = 0) then some cOPERAND
  else if role = 2 && !(pt.fablo ≤ wbits q.cw2 16 12 && wbits q.cw2 16 12 ≤ pt.fabhi) then some cWINDOW
  else none

/-- A subscriber's join sent when its command starts (R307). -/
def sendJoin (s : State) (it : Itin) : State :=
  if it.role = 2 then tierSend s it it.peer (.join it.rope ownPkg it.cmd it.nsteps ((nth it.wsteps 1).getD 0)) else s

/-- A TIER.RUN or TIER.ROPE started: the head is read and checked, the slot's history is cleared (R304, R314). -/
def tierGo (p : Poster) (role : Nat) (s : State) (c : Cmd) : State :=
  let run := fun (st : BitVec 8) => takeHead s p 1 { runOf c with status := st, worked := true }
  match tierReject s c role with
  | some st => run st
  | none =>
    let bs := pinBytes s c.pins (wbits c.quad.cw1 0 55) 32
    if bs.2 then run cUNCORR
    else
      match headItin c role bs.1 with
      | none => run cOPERAND
      | some it =>
        let slot := tierSlot c.quad
        sendJoin { withItin (takeHead s p 1 (runOf c)) slot it with hist := mapErase s.hist slot } it

/-- Whether a TIER.RUN or TIER.ROPE may start: its slot is idle, or it is refused at once (R304). -/
def tierMay (s : State) (c : Cmd) : Bool :=
  !mapHas s.itins (tierSlot c.quad) || !ownsSlot s c.part (tierSlot c.quad)

/-- TIER.RUN (R304). -/
def execTierRun (p : Poster) (q : Quad) (s : State) : Host.Outcome State Fault Refusal :=
  startCmd 1 .tierRun p q tierMay (tierGo p 0) s

/-- TIER.ROPE, ROLE 0 (R306). -/
def execTierRopeSource (p : Poster) (q : Quad) (s : State) : Host.Outcome State Fault Refusal :=
  startCmd 1 .ropeSource p q tierMay (tierGo p 1) s

/-- TIER.ROPE, ROLE 1 (R306). -/
def execTierRopeSubscriber (p : Poster) (q : Quad) (s : State) : Host.Outcome State Fault Refusal :=
  startCmd 1 .ropeSubscriber p q tierMay (tierGo p 2) s

/-- A tier command whose CODE or ROLE is reserved started (R44). -/
def tierRejected (p : Poster) (q : Quad) (s : State) : Host.Outcome State Fault Refusal :=
  startCmd 1 .reserved p q (fun _ _ => true) (startRejected 1 p) s

/-! ## TIER.STOP (R305) -/

/-- The itinerary of a slot stopped, with or without DRAIN; a stop without DRAIN stands over one with it. -/
def stopItin (it : Itin) (drain : Bool) : Itin := { it with stop := some (drain && it.stop != some false) }

/-- A TIER.STOP started (R296, R305). -/
def stopGo (p : Poster) (drain : Bool) (s : State) (c : Cmd) : State :=
  let slot := tierSlot c.quad
  if !ownsSlot s c.part slot then takeHead s p 1 { runOf c with status := cWINDOW, worked := true }
  else
    match mapFind s.itins slot with
    | none => takeHead s p 1 { runOf c with worked := true }
    | some it => withItin (takeHead s p 1 { runOf c with worked := true, waits := some it.cmd }) slot (stopItin it drain)

/-- TIER.STOP, DRAIN clear (R305). -/
def execTierStop (p : Poster) (q : Quad) (s : State) : Host.Outcome State Fault Refusal :=
  startCmd 1 .tierStop p q (fun _ _ => true) (stopGo p false) s

/-- TIER.STOP, DRAIN set (R305). -/
def execTierStopDrain (p : Poster) (q : Quad) (s : State) : Host.Outcome State Fault Refusal :=
  startCmd 1 .tierStopDrain p q (fun _ _ => true) (stopGo p true) s

/-! ## The end of an itinerary (R304, R305, R308) -/

/-- Whether any hop has started and not ended. -/
def hopsBusy (it : Itin) : Bool := it.steps.any (fun e => e.2.started.any (fun h => !e.2.done.contains h))

/-- Whether every step of a run below `n` has been delivered; under a TIER.STOP, every one that has started (R304, R305). -/
def deliveredBelow (it : Itin) (n : Nat) : Bool :=
  (span it.first (n - it.first)).all (fun i => match mapFind it.steps i with
    | some t => t.delivered || (it.stop.isSome && !begun t)
    | none => it.stop.isSome)

/-- How a finished itinerary's command ends: status, sub-status, DETAIL, COUNT; none while it runs (R304, R305, R308). COUNT of a
run that fails or is cancelled, which R304 does not state, is the bytes of the whole fills so far, without those of an H2 that met UNCORR (the
model's choice, log 62). -/
def itinEnd (it : Itin) : Option (BitVec 8 × BitVec 8 × Nat × Nat) :=
  if hopsBusy it then none
  else
    match it.fail, it.stop with
    | some (i, st, sub), stop =>
      if stop = some false || i = 0 || deliveredBelow it i then some (st, sub, i, it.bytes) else none
    | none, some drain =>
      if drain && it.steps.any (fun e => !e.2.delivered && begun e.2) then none
      else some (cCANCELLED, 0, it.delivered, it.bytes)
    | none, none =>
      if it.role = 1 then
        (if it.accepted ≥ it.nsub && it.sent = it.nsteps && it.subs.all (fun u => (span 0 it.nsteps).all u.acked.contains) then
          some (0, 0, it.left, it.bytes) else none)
      else if it.delivered = it.nsteps - it.first then some (0, 0, it.delivered, it.bytes)
      else none

/-- Whether deposits of a slot's run are still to be counted. -/
def slotDeps (s : State) (slot : Nat) : Bool := s.deps.any (fun d => match d.src with
  | .hop j _ => j == slot
  | _ => false)

/-- The state with a subscriber's source told that it leaves, which it is once: its run has been stopped, has failed or ends (R308). -/
def tellLeave (s : State) (slot : Nat) (it : Itin) : State :=
  if it.role = 2 && !it.gone then tierSend (withItin s slot { it with gone := true }) it it.peer (.leave it.rope ownPkg) else s

/-- Whether the unit that posted an itinerary's command has ended; it has not while it is away (R372, R440). -/
def posterGone (s : State) (it : Itin) : Bool :=
  match runById s it.cmd with
  | some r => !posterHere s r.cmd && !s.aways.any (fun a => a.unit.uid == r.cmd.uid)
  | none => true

/-- The slot whose subscriber is to leave in this clock: its run has been stopped or has failed, or its unit has ended (R308, R424). -/
def leaveDue (s : State) : Option (Nat × Itin) :=
  s.itins.find? (fun e => e.2.role == 2 && !e.2.gone && (e.2.stop.isSome || e.2.fail.isSome || posterGone s e.2))

/-- The run of an itinerary that has ended, its slot idle again; deposits that a failed H2 has made are counted or discarded first
(R304). -/
def tierWork (s0 : State) (r : Run) : State :=
  match s0.itins.find? (fun e => e.2.cmd == r.cmd.id) with
  | none => s0
  | some (slot, it) =>
    match itinEnd it with
    | none => s0
    | some (st, sub, d, n) =>
      if slotDeps s0 slot then s0
      else
      let s := tellLeave s0 slot it
      setRun { s with itins := mapErase s.itins slot } { r with worked := true, status := st, sub := sub, detail := d, count := n }

/-! ## Ropes (R306 to R308) -/

/-- The running source of a rope in this package. -/
def ropeSource (s : State) (rope : Nat) : Option (Nat × Itin) := s.itins.find? (fun e => e.2.role == 1 && e.2.rope == rope)

/-- Whether join `k` is the next the source takes: in the order of the clocks in which joins reach the hub, ties to the lower package,
those counted that still stand in the network (R307). -/
def joinNext (s : State) (rope pkg arrived k : Nat) : Bool :=
  ((span 0 s.joins.length).zip s.joins).all (fun e => e.1 == k || (match e.2.body with
    | .join r p _ _ _ => r != rope || arrived < e.2.arrived || (arrived == e.2.arrived && (pkg < p || (pkg == p && k < e.1)))
    | _ => true))
  && s.net.all (fun f => f.dst != ownPkg || (match f.body with
    | .join r p _ _ _ => r != rope || arrived < f.arrived || (arrived == f.arrived && pkg ≤ p)
    | _ => true))

/-- The source's answer to a join (R307): accepted, or refused with whether the fabric window excludes it. -/
def joinAnswer (s : State) (it : Itin) (pkg nsteps wsteps1 : Nat) : Bool × Bool :=
  let pt := partOf s it.part
  if !(pt.fablo ≤ pkg && pkg ≤ pt.fabhi) then (false, true)
  else (!(it.sent > 0 || wsteps1 < it.slack || nsteps != it.nsteps || it.accepted ≥ it.nsub), false)

/-- A source whose subscriber has gone: it is excluded from CONS, and has left early where a step is not landed (R308). -/
def withoutSub (it : Itin) (pkg : Nat) : Itin :=
  match it.subs.find? (fun u => u.pkg == pkg) with
  | some u =>
    { it with subs := it.subs.filter (fun v => v.pkg != pkg)
              left := if (span 0 it.nsteps).all u.acked.contains then it.left else it.left + 1 }
  | none => it

/-- Whether a held flit says that a package leaves a rope. -/
def leaves (rope pkg : Nat) (f : Flit) : Bool :=
  match f.body with
  | .leave r p => r == rope && p == pkg
  | _ => false

/-- Whether a held flit is a join of a package to a rope. -/
def joinsRope (rope pkg : Nat) (f : Flit) : Bool :=
  match f.body with
  | .join r p _ _ _ => r == rope && p == pkg
  | _ => false

/-- JOIN (R307): the source of the rope takes the next join, once the clock in which it reached the hub is over; while none has started the
join is held. -/
def execJoin (k : Nat) (s : State) : Host.Outcome State Fault Refusal :=
  match nth s.joins k with
  | none => .next s
  | some f =>
    match f.body with
    | .join rope pkg cmd nsteps wsteps1 =>
      match ropeSource s rope with
      | none => .next s
      | some (slot, it) =>
        if s.clk ≤ f.arrived || !joinNext s rope pkg f.arrived k then .next s
        else
          let a := joinAnswer s it pkg nsteps wsteps1
          let left := dropAt s.joins k
          let t := { s with joins := left.eraseP (leaves rope pkg) }
          let it1 := { it with accepted := it.accepted + 1, subs := it.subs ++ [{ pkg := pkg, consumed := 0, acked := [] }] }
          let it2 := if left.any (leaves rope pkg) then withoutSub it1 pkg else it1
          let t1 := if a.1 then withItin t slot it2 else t
          .next (tierSend t1 it pkg (.joinAnswer rope cmd a.1 a.2))
    | _ => .next s

/-- CONS: the least count of consumed steps over the present subscribers (R307). -/
def consOf (it : Itin) : Nat := it.subs.foldl (fun a u => min a u.consumed) it.nsteps

/-- The copies of a step sent to the present subscribers (R307, R357). -/
def sendCopies (s : State) (it : Itin) (i : Nat) (bs : List Byte) (bad : List Nat) : List Subscriber → State
  | [] => s
  | u :: us => sendCopies (tierSend s it u.pkg (.copy it.rope i bs bad)) it i bs bad us

/-- ROPE_SEND (R307): the source sends its next step once its last staging hop has completed it and it lies within the slack; bytes that
are uncorrectable fail its run there, and are written poisoned where they land (R304, R367). -/
def execRopeSend (slot : Nat) (s : State) : Host.Outcome State Fault Refusal :=
  match mapFind s.itins slot with
  | none => .next s
  | some it =>
    match mapFind it.steps it.sent with
    | none => .next s
    | some t =>
      if it.role = 1 && it.accepted ≥ it.nsub && t.delivered && it.sent < consOf it + it.slack
          && it.subs.all (fun u => tierEgress s it u.pkg) then
        let h := if hasHop t.hops 1 then 1 else 0
        let va := if h = 1 then t.stva else t.lpva
        let bad := (span 0 t.len).filter (fun i => (pinByte s t.pins (va + i)).2)
        let it1 := { it with sent := it.sent + 1, bytes := it.bytes + t.len }
        .next (sendCopies (withItin s slot (if bad.isEmpty then it1 else failAt it1 it.sent h cUNCORR (h + 1))) it it.sent
          (pinBytes s t.pins va t.len).1 bad it.subs)
      else .next s

/-- The source with a subscriber changed. -/
def withSubscriber (it : Itin) (pkg : Nat) (f : Subscriber → Subscriber) : Itin :=
  { it with subs := it.subs.map (fun u => if u.pkg = pkg then f u else u) }

/-- The pages of a source's step released once every present subscriber has acknowledged it (R307). -/
def releaseStep (it : Itin) (i : Nat) : Itin :=
  if allAcked it i then { it with steps := it.steps.map (fun e => if e.1 = i then (i, { e.2 with pins := [] }) else e) } else it

/-- The running subscriber of a rope in this package. -/
def ropeSubscriber (s : State) (rope : Nat) : Option (Nat × Itin) := s.itins.find? (fun e => e.2.role == 2 && e.2.rope == rope)

/-- CONSUMED_REPORT (R307). -/
def execConsumedReport (k : Nat) (s : State) : Host.Outcome State Fault Refusal :=
  .next (onFlit s k (fun t f => match f.body with
    | .consumed rope pkg n =>
      match ropeSource t rope with
      | some (slot, it) => some (withItin t slot (withSubscriber it pkg (fun u => { u with consumed := n })))
      | none => some t
    | _ => none))

/-- The itinerary of a subscriber with the landing of a copy at STVA begun, which is its step's H1; or the cause that fails the run
(R306, R307). -/
def landCopy (s : State) (it : Itin) (i : Nat) (bs : List Byte) (bad : List Nat) : Itin ⊕ BitVec 8 :=
  match lookStep s it i with
  | (_, some c) => .inr c
  | (t, none) =>
    match prepStep s it t with
    | .inr c => .inr c
    | .inl t1 =>
      match rangePins s it.part .write 1 t1.stva bs.length [] with
      | .inr c => .inr c
      | .inl ps => .inl (withStep it i { t1 with pins := ps, started := [1], pos := 0, copy := bs, spoilt := bad })

/-- Whether a copy of step `i` has to wait for a remap: its H1 writes a page under migration (R309). -/
def copyHeld (s : State) (it : Itin) (i n : Nat) : Bool :=
  match rangePins s it.part .write 1 (lookStep s it i).1.stva n [] with
  | .inl ps => ps.any (fun p => migratingAt s p.attr p.pa)
  | .inr _ => false

/-- Whether a copy of step `i` has to wait for room in the window of its H1 (R300, R307). -/
def copyWaits (s : State) (it : Itin) (i : Nat) : Bool :=
  !stepRoom s it 1 || (match lookStep s it i with
    | (t, none) => (match prepStep s it t with
        | .inl t1 => !byteRoom s it 1 t1
        | .inr _ => false)
    | _ => false)

/-- Whether a subscriber takes a copy of step `i`: it has joined and not left, and its run has neither been stopped nor failed there
(R308). -/
def takesCopy (it : Itin) (i : Nat) : Bool := it.joined && !it.gone && it.stop.isNone && i < haltStep it

/-- MULTICAST_LANDING (R300, R307 to R309): a copy begins to land at its subscriber, which waits for a page under migration and for room in
its window and acknowledges it once it has landed; one that is discarded, or fails the run, is acknowledged at once. -/
def execMulticastLanding (k : Nat) (s : State) : Host.Outcome State Fault Refusal :=
  .next (onFlit s k (fun t f => match f.body with
    | .copy rope i bs bad =>
      match ropeSubscriber t rope with
      | some (slot, it) =>
        if takesCopy it i then
          (if copyHeld t it i bs.length || copyWaits t it i then none
           else match landCopy t it i bs bad with
            | .inl it1 => some (withItin t slot it1)
            | .inr c => some (tierSend (withItin t slot (failAt it i 1 c 2)) it f.src (.copyAck rope ownPkg i)))
        else some (tierSend t it f.src (.copyAck rope ownPkg i))
      | none => some (sendFlit t f.src (.copyAck rope ownPkg i))
    | _ => none))

/-- SUBSCRIBER_LEAVE (R308): a subscriber that has gone is excluded from CONS. One of this package leaves once its own run has been
stopped, has failed or has ended. -/
def execSubscriberLeave (slot pkg : Nat) (s : State) : Host.Outcome State Fault Refusal :=
  match mapFind s.itins slot with
  | none => .next s
  | some it =>
    if it.role ≠ 1 || (pkg = ownPkg && (ropeSubscriber s it.rope).any (fun e => e.2.stop.isNone && e.2.fail.isNone)) then .next s
    else .next (withItin s slot (withoutSub it pkg))

/-- The state with every subscriber in a package that no path reaches gone (R308). -/
def dropRemoteSubs (gone : Nat → Bool) (s : State) : State :=
  { s with itins := s.itins.map (fun e => (e.1,
      if e.2.role = 1 then (e.2.subs.filter (fun u => gone u.pkg)).foldl (fun it u => withoutSub it u.pkg) e.2 else e.2)) }

/-- The effect of a received flit of the tier engine that has no row of its own: a join is held for its source, an answer and an
acknowledgement reach theirs (R307), and a subscriber that leaves is let go, once its join has been answered (R308). -/
def tierFlit (s : State) (f : Flit) : Option State :=
  match f.body with
  | .join _ _ _ _ _ => some { s with joins := s.joins ++ [f] }
  | .joinAnswer _ cmd accepted window =>
    match s.itins.find? (fun e => e.2.cmd == cmd && e.2.role == 2) with
    | some (slot, it) =>
      if accepted then some (withItin s slot { it with joined := true })
      else some (withItin s slot (failAt it 0 3 (if window then cWINDOW else cOPERAND) (if window then 0 else 0x11)))
    | none => some s
  | .copyAck rope pkg i =>
    match ropeSource s rope with
    | some (slot, it) => some (withItin s slot (releaseStep (withSubscriber it pkg (fun u => { u with acked := i :: u.acked })) i))
    | none => some s
  | .leave rope pkg =>
    if s.joins.any (joinsRope rope pkg) then some { s with joins := s.joins ++ [f] }
    else
    match ropeSource s rope with
    | some (slot, it) => some (withItin s slot (withoutSub it pkg))
    | none => some s
  | _ => none

/-! ## Landing of deposits -/

/-- The state with one deposit fewer to be counted under the first acknowledgement owed for it, which is sent when none is left
(R176, R198, R354). -/
def oweLess (s : State) (src : DepSrc) (core : Nat) (w : Nat × Nat) : State :=
  match s.owed.find? (owes · src w) with
  | none => s
  | some o =>
    let rest := (s.owed.foldl (fun (acc : List Owed × Bool) x =>
      if !acc.2 && owes x src w then ((if x.left.length ≤ 1 then acc.1 else acc.1 ++ [{ x with left := x.left.erase w }]), true)
      else (acc.1 ++ [x], acc.2)) ([], false)).1
    if o.left.length ≤ 1 then sendAck { s with owed := rest } core o.dst (ackBody o) else { s with owed := rest }

/-- A sub-array with one row or held contribution of a word that has retired acknowledged: a word that waited only for that finishes
(R93, R197). -/
def flightAcked (s : State) (core n : Nat) (mine : MFlight → Bool) : State :=
  let k := getCore s core
  match subOf k n with
  | none => s
  | some b =>
    match b.flights.find? mine with
    | none => s
    | some f =>
      let done := f.retired && f.unacked ≤ 1
      let b1 := { b with flights := if done then b.flights.filter (fun g => g.id != f.id)
        else b.flights.map (fun g => if g.id = f.id then { g with unacked := g.unacked - 1 } else g) }
      let k1 := { k with subs := mapSet k.subs n b1 }
      setCore s core (if done then giveToken k1 f.uid f.give else k1)

/-- What one deposit's leaving the list counts or discards at last: itself, or with it what its segment held, unless it is held in a
landing row itself (R349). -/
def settledBy (s t : State) (d : Deposit) : List (DepSrc × Nat) :=
  let before := segParked (getCore s d.core) d
  let after := (segParked (getCore t d.core) d).length
  if after = before.length + 1 then []
  else if d.ranked.isSome && after = 0 then before.map (fun p => (p.src, p.word)) ++ [(d.src, d.word)]
  else [(d.src, d.word)]

/-- The state with a deposit of a source counted or discarded: a remote sender is owed one fewer, and an MEPI that has retired waits for
one fewer (R93, R197, R354). -/
def settleDep (h core : Nat) (s : State) (x : DepSrc × Nat) : State :=
  match x.1 with
  | .mat c n id => flightAcked s c n (fun f => f.id == id && f.retired)
  | .net _ _ _ | .row _ _ _ _ => oweLess s x.1 core (h, x.2)
  | _ => s

/-- The state with H2 of a step complete in the clock its last deposit is counted (R300, R422). -/
def hopCounted (t : State) (slot i : Nat) : State :=
  match mapFind t.itins slot with
  | none => t
  | some it =>
    match mapFind it.steps i with
    | some x => if x.moved && hopCan t slot 2 i x then hopDone t slot it i 2 x else t
    | none => t

/-- The state after a deposit has landed: an MEPI whose held deposit it was retires no earlier than the next clock (R186), and
a VSTT whose last deposit it was finishes (R229). -/
def afterDeposit (s t : State) (k : Nat) : State :=
  match nth s.deps k with
  | none => t
  | some d =>
    match d.src with
    | .vec core _ => if t.deps.length < s.deps.length then finishVector t core else t
    | .mat core n id =>
      if t.deps.length < s.deps.length then
        let c := getCore t core
        (settledBy s t d).foldl (settleDep d.handle.toNat d.core) (if d.held then
          setCore t core { c with subs := c.subs.map (fun e => if e.1 = n then
            (e.1, { e.2 with flights := e.2.flights.map (fun f => if f.id = id then { f with due := max f.due (t.clk + 1) } else f) })
            else e) }
        else t)
      else t
    | .net _ _ _ | .row _ _ _ _ =>
      if t.deps.length < s.deps.length then (settledBy s t d).foldl (settleDep d.handle.toNat d.core) t else t
    | .hop slot i => hopCounted t slot i
    | .cmd _ => t

/-- DEPOSIT (R152). -/
def execDeposit (k : Nat) (s : State) : Host.Outcome State Fault Refusal := .next (afterDeposit s (landDeposit s k false) k)

/-- HELD_DEPOSIT_RELEASE (R152). -/
def execHeldDepositRelease (k : Nat) (s : State) : Host.Outcome State Fault Refusal :=
  .next (afterDeposit s (landDeposit s k true) k)

end Sys2Proof.Machine
end

