-- ==== Sys2Proof/Machine/Splice.lean ====
section
/-! DEFINITION. The splice unit: collectives, puts and signals, landing rows, remote epilogue rows, and the fabric ports (R198,
R199, R339 to R361). -/
namespace Sys2Proof.Machine

/-! ## The parameter block (R339, R340, R342, R345) -/

def bOp (b : List Byte) : Nat := fieldNat b 0 1
def bAlg (b : List Byte) : Nat := fieldNat b 1 1
def bDtype (b : List Byte) : Nat := fieldNat b 2 1 % 16
def bRedop (b : List Byte) : Nat := fieldNat b 2 1 / 16
def bRanked (b : List Byte) : Bool := fieldNat b 3 1 % 2 == 1
def bDtile (b : List Byte) : Bool := fieldNat b 3 1 / 2 % 2 == 1
def bAow (b : List Byte) : Bool := fieldNat b 3 1 / 4 % 2 == 1
def bNrank (b : List Byte) : Nat := fieldNat b 4 2
def bMyrank (b : List Byte) : Nat := fieldNat b 6 2
def bGva (b : List Byte) : Nat := fieldNat b 8 8
def bCollid (b : List Byte) : Nat := fieldNat b 16 4
def bCount (b : List Byte) : Nat := fieldNat b 20 4
def bPeer (b : List Byte) : Nat := fieldNat b 30 2
def bLrows (b : List Byte) : Nat := fieldNat b 32 1
def bMrank (b : List Byte) : Nat := fieldNat b 64 1
def bSaxis (b : List Byte) : Nat := fieldNat b 65 1
def bDaxis (b : List Byte) : Nat := fieldNat b 66 1
def bPerm (b : List Byte) (d : Nat) : Nat := fieldNat b 68 2 / 8 ^ d % 8
def bGext (b : List Byte) (d : Nat) : Nat := fieldNat b (72 + 4 * d) 4
/-- The format of DTYPE. -/
def bFmt (b : List Byte) : Fmt := (fmtOfCode (BitVec.ofNat 4 (bDtype b))).getD .f32

/-- Whether a run of bytes is zero. -/
def zeroBytes (b : List Byte) (lo n : Nat) : Bool := fieldNat b lo n == 0

/-- Whether the layout map breaks R340 or does not divide as R351 requires. -/
def mapBad (b : List Byte) : Bool :=
  let m := bMrank b
  m == 0 || m > 5 || bSaxis b ≥ m || bDaxis b ≥ m || fieldNat b 68 2 / 8 ^ m != 0
  || !(span 0 m).all (fun a => (span 0 m).any (fun d => bPerm b d == a))
  || (span m (5 - m)).any (fun d => bGext b d != 0)
  || bGext b (bSaxis b) % bNrank b != 0 || bGext b (bPerm b (bDaxis b)) % bNrank b != 0

/-- Whether a format takes a reduction (R345). -/
def reduces : Fmt → Bool
  | .f32 | .bf16 | .f16 | .i32 | .i16 | .i8 | .n32 | .n16 | .n8 => true
  | _ => false

/-- Whether a parameter block holds a reserved value or a non-zero field its operation does not use (R340, R342, R345). -/
def blockBad (b : List Byte) : Bool :=
  let op := bOp b
  let coll := op ≤ 5
  (coll && bAlg b > 4) || (!coll && bAlg b != 0)
  || (op ≤ 6 && (fmtOfCode (BitVec.ofNat 4 (bDtype b))).isNone)
  || (op ≤ 1 && (bRedop b > 2 || !reduces (bFmt b))) || (op > 1 && bRedop b != 0) || (op == 7 && fieldNat b 2 1 != 0)
  || fieldNat b 3 1 ≥ 8 || (bAow b && op != 6) || (op == 7 && fieldNat b 3 1 != 0) || (op == 6 && !bDtile b)
  || bNrank b == 0 || bNrank b > 4096 || bMyrank b ≥ bNrank b || bGva b % 8 != 0
  || ((op == 5 || op == 7) && bCount b != 0) || (!coll && bCollid b != 0) || (2 ≤ op && op ≤ 5 && !bDtile b && bRanked b)
  || ((op == 7 || (op == 3 && bMyrank b != bPeer b)) && !zeroBytes b 24 2)
  || ((bDtile b || op == 7) && !zeroBytes b 26 2)
  || (if bAlg b == 4 then fieldNat b 28 2 == 0 || bNrank b % fieldNat b 28 2 != 0 else bAlg b != 0 && !zeroBytes b 28 2)
  || (!coll && !zeroBytes b 28 2)
  || (if op == 3 || op > 5 then bPeer b ≥ bNrank b else bPeer b != 0)
  || (if op == 5 then bLrows b == 0 || bLrows b > 64 || mapBad b else bLrows b != 0 || !zeroBytes b 64 28)
  || (if op == 7 then fieldNat b 33 1 > 1 || fieldNat b 40 8 % 8 != 0 else !zeroBytes b 33 1 || !zeroBytes b 40 16)
  || !zeroBytes b 34 6 || !zeroBytes b 56 8 || !zeroBytes b 67 1 || !zeroBytes b 70 2 || !zeroBytes b 92 36

/-- Entry p of a member list (R339). -/
def entryAt (ms : List Byte) (p : Nat) : Nat := fieldNat ms (8 * p) 8
def entryPkg (e : Nat) : Nat := e % 4096
def entryCore (e : Nat) : Nat := e / 4096 % 512
def entryHandle (e : Nat) : BitVec 12 := BitVec.ofNat 12 (e / 2 ^ 32)
def entryGen (e : Nat) : BitVec 8 := BitVec.ofNat 8 (e / 2 ^ 44)

/-- Whether a member entry breaks R339. -/
def entryBad (dtile : Bool) (e : Nat) : Bool := e / 2 ^ 52 != 0 || e / 2 ^ 21 % 2 ^ 11 != 0 || (!dtile && e / 2 ^ 32 != 0)

/-- Whether a member list breaks R339 or does not name the poster at its own rank (R342). -/
def membersBad (c : Cmd) (ms : List Byte) : Bool :=
  (span 0 (bNrank c.block)).any (fun p => entryBad (bDtile c.block) (entryAt ms p))
  || entryPkg (entryAt ms (bMyrank c.block)) != ownPkg || entryCore (entryAt ms (bMyrank c.block)) != c.core

/-- What every member's block must agree on (R339): OP, ALG, TYPE, ORDER and DTILE, NRANK, COLLID, COUNT, ROWS2D, the layout map. -/
def agreeBytes (b : List Byte) : List Byte :=
  b.take 3 ++ [BitVec.ofNat 8 (fieldNat b 3 1 % 4)] ++ (b.drop 4).take 2 ++ (b.drop 16).take 8 ++ (b.drop 28).take 2 ++ (b.drop 64).take 28

/-! ## Sequences and slabs (R344, R351) -/

/-- The multi-index of a flat one, dimension 0 fastest. -/
def unflat : List Nat → Nat → List Nat
  | [], _ => []
  | e :: es, i => i % e :: unflat es (i / e)

/-- The flat index of a multi-index, dimension 0 fastest. -/
def flat : List Nat → List Nat → Nat
  | e :: es, i :: is => i + e * flat es is
  | _, _ => 0

/-- Elements of a sequence. -/
def seqLen (ext : List Nat) : Nat := ext.foldl (· * ·) 1

/-- The extents of rank's source slab and destination slab (R351). -/
def srcExt (b : List Byte) : List Nat :=
  (span 0 (bMrank b)).map (fun a => if a = bSaxis b then bGext b a / bNrank b else bGext b a)
def dstExt (b : List Byte) : List Nat :=
  (span 0 (bMrank b)).map (fun d => if d = bDaxis b then bGext b (bPerm b d) / bNrank b else bGext b (bPerm b d))

/-- The source flat index at rank `p` of element `i` of rank `q`'s destination slab, if `p` holds it (R351). -/
def slabSource (b : List Byte) (p q i : Nat) : Option Nat :=
  let h := unflat (dstExt b) i
  let bs := bGext b (bSaxis b) / bNrank b
  let bd := bGext b (bPerm b (bDaxis b)) / bNrank b
  let hAt := fun d => (nth h d).getD 0 + (if d = bDaxis b then q * bd else 0)
  let g := (span 0 (bMrank b)).map (fun a => hAt (((span 0 (bMrank b)).find? (fun d => bPerm b d == a)).getD 0))
  let gs := (nth g (bSaxis b)).getD 0
  if p * bs ≤ gs && gs < (p + 1) * bs then some (flat (srcExt b) (setAt g (bSaxis b) (gs - p * bs))) else none

/-- What rank `p` sends rank `q`: destination and source flat indexes (R344, R351). -/
def shareOf (b : List Byte) (p q : Nat) : List (Nat × Nat) :=
  let n := bCount b
  match bOp b with
  | 0 => (span 0 n).map (fun i => (i, i))
  | 1 => (span 0 n).map (fun i => (i, q * n + i))
  | 2 => (span 0 n).map (fun j => (p * n + j, j))
  | 3 => if p = bPeer b then (span 0 n).map (fun i => (i, i)) else []
  | 4 => (span 0 n).map (fun i => (p * n + i, q * n + i))
  | 5 => (span 0 (seqLen (dstExt b))).filterMap (fun i => (slabSource b p q i).map (fun j => (i, j)))
  | _ => (span 0 n).map (fun i => (i, i))

/-- Elements a member's source and destination must hold (R344), and those it is to receive. -/
def needSrc (b : List Byte) : Nat :=
  match bOp b with
  | 1 | 4 => bNrank b * bCount b
  | 3 => if bMyrank b = bPeer b then bCount b else 0
  | 5 => seqLen (srcExt b)
  | 7 => 0
  | _ => bCount b
def needDst (b : List Byte) : Nat :=
  match bOp b with
  | 0 | 1 | 3 => bCount b
  | 2 | 4 => bNrank b * bCount b
  | 5 => seqLen (dstExt b)
  | _ => 0
def toCome (b : List Byte) : Nat :=
  match bOp b with
  | 0 | 1 => bNrank b * bCount b
  | _ => needDst b

/-- The peers a member exchanges data with (R343). -/
def peersOf (b : List Byte) : List Nat :=
  let all := (span 0 (bNrank b)).filter (· != bMyrank b)
  match bOp b with
  | 3 => if bMyrank b = bPeer b then all else [bPeer b]
  | 6 | 7 => []
  | _ => all

/-! ## Where a destination's elements stand -/

/-- A tile's element storage as a layout from bit 0, columns first (R148). -/
def tileLayout (t : Tile) : Layout :=
  { bits := fmtBits (tileFmt t), image := false, base := 0, ext := [tileCols t, tileRows t]
    str := [1, ((8 * pitch t / fmtBits (tileFmt t) : Nat) : Int)], rank := 2, fmt := tileFmt t, pad := 0 }

/-- The index of destination element `i` in the layout it stands in (R344, R351): of a tile its column and row. -/
def dstIndex (b : List Byte) (l : Layout) (i : Nat) : List Int :=
  if bDtile b then
    let w := if bOp b = 5 then (nth (dstExt b) 0).getD 1 else (nth l.ext 0).getD 1
    [(i % w : Nat), (i / w : Nat)]
  else (unflat l.ext i).map (fun (x : Nat) => (x : Int))

/-- The bit address of destination element `i`, 0 where it is out of bounds. -/
def dstBit (b : List Byte) (l : Layout) (i : Nat) : Nat := ((elemAt l (dstIndex b l i)).getD 0).toNat

/-- A list of elements placed by the bit address of their destinations. -/
def placeByBit (f : Nat → Nat) (x : Nat × Nat × Bool) : List (Nat × Nat × Bool) → List (Nat × Nat × Bool)
  | [] => [x]
  | y :: ys => if f x.1 < f y.1 then x :: y :: ys else y :: placeByBit f x ys

/-- The elements of a share cut into flits (R352, R358): at most 60 destination words each, and in one 256-byte segment where a
flit must keep to one. -/
def cutShare (f : Nat → Nat) (bySeg : Bool) (xs : List (Nat × Nat × Bool)) : List (List (Nat × Nat × Bool)) :=
  (xs.foldl (fun (acc : List (List (Nat × Nat × Bool)) × Nat × Nat) x =>
    let word := f x.1 / 32
    match acc.1 with
    | cur :: rest =>
      let lastWord := match cur with
        | y :: _ => f y.1 / 32
        | [] => word
      if (bySeg && word / 64 != acc.2.2) || (word != lastWord && acc.2.1 ≥ 60) then ([x] :: cur :: rest, 1, word / 64)
      else ((x :: cur) :: rest, if word = lastWord then acc.2.1 else acc.2.1 + 1, acc.2.2)
    | [] => ([[x]], 1, word / 64)) ([], 0, 0)).1.reverse.map List.reverse

/-! ## Running collectives -/

/-- The state with a collective replaced. -/
def setColl (s : State) (c : Coll) : State :=
  { s with colls := s.colls.map (fun x => if x.cmd.id = c.cmd.id then c else x) }

/-- The collective as it now stands. -/
def collOf (s : State) (id : Nat) : Option Coll := s.colls.find? (fun c => c.cmd.id == id)

/-- The collective of this package a flit is meant for (R339). -/
def collAt (s : State) (group : List Byte) (collid rank core : Nat) : Option Coll :=
  s.colls.find? (fun c => c.ann.members == group && c.ann.collid == collid && c.rank == rank && c.core == core && c.op ≤ 5)

/-- The collective an announcement meets: posts are matched by COLLID at the core the announcement names, and one of the same member list
comes first (R339; log 41). -/
def annAt (s : State) (a : Announce) : Option Coll :=
  let here := s.colls.filter (fun c => c.ann.collid == a.collid && c.core == a.core && c.op ≤ 5)
  match here.find? (fun c => c.ann.members == a.members && c.rank == a.tgt) with
  | some c => some c
  | none => here.find? (fun c => c.ann.members != a.members)

/-- A command's own error, the first one standing; its work goes on (R146, R367). -/
def softFail (s : State) (id : Nat) (status sub : BitVec 8) (detail : Nat) : State :=
  { s with cmds := s.cmds.map (fun r =>
    if r.cmd.id = id && r.status = 0 then { r with status := status, sub := sub, detail := detail } else r) }

/-- One element of a member's source (R344), with whether it is uncorrectable. -/
def readSource (s : State) (c : Coll) (j : Nat) : Nat × Bool :=
  match c.cmd.layouts with
  | [] => (0, false)
  | l :: _ =>
    match elemAt l ((unflat l.ext j).map (fun (x : Nat) => (x : Int))) with
    | some bit => pinBits s c.cmd.pins bit.toNat l.bits
    | none => (0, false)

/-- How a reduction or a put combines (R340, R345). -/
def blockKind (b : List Byte) : DepKind :=
  if bOp b ≤ 1 then (if bRedop b = 0 then .sum (bFmt b) else if bRedop b = 1 then .least (bFmt b) else .most (bFmt b))
  else if bAow b then .sum (bFmt b) else .write

/-- The flits rank `q` is sent, its destination standing as given (R344, R352). -/
def piecesFor (s : State) (c : Coll) (q : Nat) (dst : Layout) : List Piece :=
  let b := c.cmd.block
  let seg := c.op = 5
  let e := entryAt c.ann.members q
  let xs := (shareOf b c.rank q).map (fun x => (x.1, readSource s c x.2))
  let ys := if seg then xs.foldl (fun acc x => placeByBit (dstBit b dst) x acc) [] else xs
  let cuts := cutShare (dstBit b dst) seg ys
  let segOf := fun (p : List (Nat × Nat × Bool)) => (p.head?.map (fun x => dstBit b dst x.1 / 2048)).getD 0
  (span 0 cuts.length).map (fun k =>
    let p := (nth cuts k).getD []
    { group := if c.op == 6 then [] else c.ann.members, collid := c.ann.collid, put := c.op == 6, rank := c.rank, tgt := q, srcPkg := ownPkg, srcCore := c.core, cmd := c.cmd.id
      core := entryCore e, handle := entryHandle e, gen := entryGen e, fmt := bFmt b, kind := blockKind b, ranked := bRanked b
      cls := qClass c.cmd.quad, width := fmtBits (bFmt b), seg := segOf p
      newRow := seg && (k == 0 || segOf ((nth cuts (k - 1)).getD []) != segOf p)
      last := seg && (k + 1 == cuts.length || segOf ((nth cuts (k + 1)).getD []) != segOf p)
      elems := p.map (fun x => (x.1, x.2.1)), bad := (p.filter (fun x => x.2.2)).map (·.1) })

/-- One flit of a share sent. -/
def sendPiece (s : State) (c : Coll) (p : Piece) : State :=
  sendFrom s c.cmd.part c.core (entryPkg (entryAt c.ann.members p.tgt)) (.piece p)

/-- A list of flits sent in order. -/
def sendPieces (s : State) (c : Coll) : List Piece → State
  | [] => s
  | p :: ps => sendPieces (sendPiece s c p) c ps

/-- The payload bits of flits that leave for another rank (R360). -/
def pieceBits (own : Nat) (ps : List Piece) : Nat := ps.foldl (fun a p => if p.tgt = own then a else a + p.elems.length * p.width) 0

/-- A member's share for a peer read and sent; of a transposing all-to-all the first flit, the others as each is acknowledged
(R344, R352). UNCORR met at the source is reported (R367). -/
def sendShare (s : State) (id q : Nat) (dst : Layout) : State :=
  match collOf s id with
  | none => s
  | some c =>
    if c.fail.isSome then s
    else
      let ps := piecesFor { s with mem := overlaid c.fore s.mem } c q dst
      let now := if c.op = 5 then ps.take 1 else ps
      let t := setColl s { c with
        unacked := c.unacked ++ now.map (fun _ => q), sent := c.sent + pieceBits c.rank now
        queued := if c.op = 5 && ps.length > 1 then c.queued ++ [(q, ps.drop 1)] else c.queued }
      let t1 := sendPieces t c now
      if ps.any (fun p => !p.bad.isEmpty) then softFail t1 id cUNCORR 0 c.rank else t1

/-- A member's collective failed: it sends no further flit, and ends once what it has sent is acknowledged and what it has taken is
written (R44, R271). -/
def failColl (s : State) (id : Nat) (status sub : BitVec 8) (detail : Nat) : State :=
  match collOf s id with
  | none => s
  | some c => if c.fail.isSome then s else setColl s { c with fail := some (status, sub, detail), queued := [] }

/-- The shares of a list of peers sent, each with its destination. -/
def sendShares (s : State) (id : Nat) : List (Nat × Layout) → State
  | [] => s
  | (q, dst) :: qs => sendShares (sendShare s id q dst) id qs

/-- The shares of a member sent once every peer has been heard, in the cyclic order of ranks from the next one on, its own last
(R343, R352). -/
def shareAll (s : State) (id : Nat) : State :=
  match collOf s id with
  | none => s
  | some c =>
    if c.shared || !c.toHear.isEmpty || c.fail.isSome then s
    else
      let n := bNrank c.cmd.block
      let order := (span 1 n).filterMap (fun i =>
        let q := (c.rank + i) % n
        if q = c.rank then some (q, c.ann.dst) else c.heard.find? (fun e => e.1 == q))
      sendShares (setColl s { c with heard := [], shared := true }) id order

/-- Whether an announcement differs in a field that must agree (R339). -/
def disagrees (c : Coll) (a : Announce) : Bool := a.agree != c.ann.agree || a.members != c.ann.members

/-- The package and core that a member's entry names. -/
def entryMember (e : Nat) : Nat := e % 2 ^ 21

/-- What tells the announcements a member makes to a core from others: COLLID, the core, and the member's package and core. -/
def annKey (a : Announce) : Nat × Nat × Nat := (a.collid, a.core, entryMember (entryAt a.members a.rank))

/-- What tells the announcements of rank `q` to a member from others. -/
def peerKey (c : Coll) (q : Nat) : Nat × Nat × Nat := (c.ann.collid, c.core, entryMember (entryAt c.ann.members q))

/-- Whether a flit is an announcement of a member to a core. -/
def announces (x : Nat × Nat × Nat) (f : Flit) : Bool :=
  match f.body with
  | .announce a => annKey a == x
  | _ => false

/-- The state in which the announcements that a failed member has still to hear of some peers are of no more use: one that is held is
dropped, else the next to come is, so that each post of a member meets the same post of its peers (R339, R343; log 41). -/
def spendAnns (c : Coll) : List Nat → State → State
  | [], s => s
  | q :: qs, s =>
    spendAnns c qs (if s.anns.any (announces (peerKey c q)) then { s with anns := s.anns.eraseP (announces (peerKey c q)) }
      else { s with spent := s.spent ++ [peerKey c q] })

/-- An announcement heard by a collective that has announced itself (R343, R438; log 41): members that disagree fail it; once all
peers have been heard and agree, each is sent its share. -/
def hear (s : State) (c : Coll) (a : Announce) : State :=
  if disagrees c a then
    let q := if c.toHear.contains a.rank && peerKey c a.rank == annKey a then some a.rank
      else c.toHear.find? (fun q => peerKey c q == annKey a)
    failColl (setColl s { c with toHear := c.toHear.filter (fun r => some r != q) }) c.cmd.id cOPERAND 2 a.rank
  else
    shareAll (setColl s { c with toHear := c.toHear.filter (· != a.rank), heard := c.heard ++ [(a.rank, a.dst)] }) c.cmd.id

/-- Announcements that have arrived heard by the collectives that can hear them; the others wait, one of a later collective of the same
group among them (R343). -/
def hearAll : List Flit → State → State
  | [], s => s
  | f :: fs, s =>
    match f.body with
    | .announce a =>
      match annAt s a with
      | some c =>
        if c.announced && c.fail.isNone && (disagrees c a || c.toHear.contains a.rank) then hearAll fs (hear s c a)
        else hearAll fs { s with anns := s.anns ++ [f] }
      | none => hearAll fs { s with anns := s.anns ++ [f] }
    | _ => hearAll fs s

/-- The state with held announcements offered again. -/
def rehear (s : State) : State := hearAll s.anns { s with anns := [] }

/-- The algorithm a command runs by: 1 RING, 2 TREE, 3 DIRECT, 4 TWOD, AUTO resolved (R347). -/
def algOf (b : List Byte) : Nat :=
  let p := bCount b * fmtBits (bFmt b) / 8
  if bNrank b = 1 then 3
  else if bAlg b ≠ 0 then bAlg b
  else if bOp b = 4 || bOp b = 5 then 3
  else if bOp b = 3 then 2
  else if bOp b = 2 && p ≤ 65536 then 3
  else if bOp b ≤ 1 && p ≤ 65536 then 2
  else if bNrank b ≥ 16 && fieldNat b 28 2 ≠ 0 then 4
  else 1

/-- Whether a command is the root of a TREE broadcast, whose tree is pruned of members that cannot be reached (R357). -/
def castRoot (c : Coll) : Bool := c.op == 3 && c.rank == bPeer c.cmd.block && algOf c.cmd.block == 2

/-- A member pruned from the tree of a broadcast (R308, R357). -/
def pruneRank (s : State) (id q : Nat) : State :=
  match collOf s id with
  | none => s
  | some c => setColl s { c with
      toHear := c.toHear.filter (· != q), heard := c.heard.filter (fun e => e.1 != q), unacked := c.unacked.filter (· != q)
      pruned := c.pruned + 1 }

/-- A member's announcement sent to a list of peers (R343); one that no path reaches fails it, or is pruned (R357, R360). -/
def announceTo (c : Coll) : List Nat → State → State
  | [], s => s
  | q :: qs, s =>
    let e := entryAt c.ann.members q
    if reachable s (destOf (entryPkg e)) then
      announceTo c qs (sendFrom s c.cmd.part c.core (entryPkg e) (.announce { c.ann with tgt := q, core := entryCore e }))
    else announceTo c qs (if castRoot c then pruneRank s c.cmd.id q else failColl s c.cmd.id cENGINE 3 q)

/-! ## Landing rows of commands (R350, R352) -/

/-- The landing rows of the hub that no running command has reserved. -/
def hubRows (s : State) : Nat :=
  1024 - (s.colls.filter (fun c => c.holds && !bDtile c.cmd.block)).foldl (fun a c => a + c.rows) 0

/-- Whether a command's rows can be reserved now: it needs none, or no command that started before it waits on its pool, and enough are
free (R350). -/
def rowsFree (s : State) (c : Coll) : Bool :=
  let tile := bDtile c.cmd.block
  c.rows == 0
  || (!(s.colls.takeWhile (fun d => d.cmd.id != c.cmd.id)).any (fun d =>
        !d.holds && d.rows != 0 && bDtile d.cmd.block == tile && (!tile || d.core == c.core))
      && (if tile then ((c.rows : Nat) : Int) ≤ freeRows (getCore s c.core) else c.rows ≤ hubRows s))

/-- The state with a command's rows reserved. -/
def takeRows (s : State) (c : Coll) : State :=
  let t := setColl s { c with holds := true }
  if bDtile c.cmd.block && c.rows ≠ 0 then
    setCore t c.core { getCore t c.core with lrows := mapSet (getCore t c.core).lrows c.cmd.id c.rows }
  else t

/-- The state with a command's reservation freed and the tiles that wait served (R349, R350). -/
def dropRows (s : State) (c : Coll) : State :=
  let k := getCore s c.core
  let k1 := { k with lrows := mapErase k.lrows c.cmd.id }
  if mapHas k.lrows c.cmd.id then setCore s c.core (gainRows k1 [] k1.ranks) else s

/-! ## Signals (R354, R355) -/

/-- Whether everything a signal orders itself behind is acknowledged (R354). -/
def signalClear (s : State) (c : Cmd) : Bool :=
  !s.colls.any (fun d => d.cmd.uid == c.uid && d.cmd.id < c.id && qClass d.cmd.quad == qClass c.quad)
  && !s.rowsOut.any (fun e => e.1 ≤ c.id && e.2.srcUid == c.uid && e.2.cls == qClass c.quad)

/-- The flag of a signal. -/
def signalBody (c : Coll) : FlitBody :=
  .signal (entryCore (entryAt c.ann.members (bPeer c.cmd.block))) (fieldNat c.cmd.block 40 8)
    (BitVec.ofNat 64 (fieldNat c.cmd.block 48 8)) (fieldNat c.cmd.block 33 1 == 1) (qClass c.cmd.quad) c.cmd.id

/-- Whether the flits a splice command would send may leave its core (R382). -/
def spliceEgress (s : State) (c : Coll) : Bool :=
  ((if c.op ≤ 5 then c.rank :: peersOf c.cmd.block else [bPeer c.cmd.block]).all
    (fun q => egressOk (getCore s c.core) c.cmd.part (destOf (entryPkg (entryAt c.ann.members q)))))

/-- A splice command as far as it can go: its rows are reserved, then it announces itself or sends what it has to send. -/
def advanceColl (s : State) (id : Nat) : State :=
  match collOf s id with
  | none => s
  | some c =>
    let s1 := if !c.holds && rowsFree s c then takeRows s c else s
    match collOf s1 id with
    | none => s1
    | some c1 =>
      if !c1.holds || c1.announced || !spliceEgress s1 c1 then s1
      else if c1.op = 7 then
        let e := entryAt c1.ann.members (bPeer c1.cmd.block)
        if !signalClear s1 c1.cmd then s1
        else if reachable s1 (destOf (entryPkg e)) then
          sendFrom (setColl s1 { c1 with announced := true, unacked := [bPeer c1.cmd.block] }) c1.cmd.part c1.core (entryPkg e) (signalBody c1)
        else failColl s1 id cENGINE 4 (bPeer c1.cmd.block)
      else if c1.op = 6 then
        let e := entryAt c1.ann.members (bPeer c1.cmd.block)
        if reachable s1 (destOf (entryPkg e)) then
          sendShare (setColl s1 { c1 with announced := true }) id (bPeer c1.cmd.block)
            (if entryPkg e = ownPkg then tileLayout (tileOf (getCore s1 (entryCore e)) (entryHandle e).toNat) else c1.ann.dst)
        else failColl s1 id cENGINE 3 (bPeer c1.cmd.block)
      else
        rehear (shareAll (announceTo c1 c1.toHear (setColl s1 { c1 with announced := true })) id)

/-! ## Starts (R341 to R343) -/

/-- The destination of a member: its own tile or its DLY. -/
def ownDst (s : State) (c : Cmd) (ms : List Byte) : Layout :=
  let e := entryAt ms (bMyrank c.block)
  let none_ : Layout := { bits := fmtBits (bFmt c.block), image := false, base := 0, ext := [bCount c.block], str := [1], rank := 1
                          fmt := bFmt c.block, pad := 0 }
  if bOp c.block ≥ 6 then none_
  else if bDtile c.block then tileLayout (tileOf (getCore s c.core) (entryHandle e).toNat)
  else c.layouts.getLast?.getD none_

/-- Whether a member's own sequences do not fit (R344, R351). A layout whose elements are images or are not as wide as DTYPE's does not either,
for which the spec gives no status (the model's choice, log 62). -/
def lengthBad (s : State) (c : Cmd) (ms : List Byte) : Bool :=
  let b := c.block
  let e := entryAt ms (bMyrank b)
  let t := tileOf (getCore s c.core) (entryHandle e).toNat
  let src := c.layouts.head?
  let dst := ownDst s c ms
  let w := fmtBits (bFmt b)
  let srcOk := needSrc b == 0 || (match src with
    | some l => l.bits == w && !l.image && (if bOp b = 5 then l.ext == srcExt b else needSrc b ≤ seqLen l.ext)
    | none => false)
  let dstOk := bOp b ≥ 6
    || (if bDtile b then
          if bOp b = 5 then (nth (dstExt b) 0).getD 1 ≤ tileCols t && seqLen ((dstExt b).drop 1) ≤ tileRows t
          else needDst b ≤ tileRows t * tileCols t
        else dst.bits == w && !dst.image && (if bOp b = 5 then dst.ext == dstExt b else needDst b ≤ seqLen dst.ext))
  bOp b != 7 && !(srcOk && dstOk)

/-- The landing rows a command needs (R350, R352): LROWS, or for a reduction into memory one for each contribution of a segment
under RANKED and one under ARRIVAL (log 40). -/
def rowNeed (b : List Byte) : Nat :=
  if bOp b = 5 then bLrows b
  else if bOp b ≤ 1 && !bDtile b then (if bRanked b then bNrank b else 1)
  else 0

/-- Whether a put adds in a format that is not that of its tile, which is known here where the tile is of this package (R345; log 41). -/
def putFmtBad (s : State) (c : Cmd) (ms : List Byte) : Bool :=
  let e := entryAt ms (bPeer c.block)
  let t := tileOf (getCore s (entryCore e)) (entryHandle e).toNat
  bOp c.block == 6 && bAow c.block && entryPkg e == ownPkg && t.valid && t.gen == entryGen e && tileFmt t != bFmt c.block

/-- Whether the destination tile a splice command quotes in this package is not VALID or of another generation: its own where it fills
one, and the peer's of a put (R146). -/
def handleBad (s : State) (c : Cmd) (ms : List Byte) : Bool :=
  let e := entryAt ms (if bOp c.block = 6 then bPeer c.block else bMyrank c.block)
  let t := tileOf (getCore s (entryCore e)) (entryHandle e).toNat
  bDtile c.block && bOp c.block ≤ 6 && entryPkg e == ownPkg && (!t.valid || t.gen != entryGen e)

/-- What ends a splice command at its start: status, sub-status (R146, R342, R350, R360). -/
def spliceReject (s : State) (c : Cmd) : (BitVec 8 × BitVec 8) ⊕ List Byte :=
  if blockBad c.block then .inl (cOPERAND, 0)
  else
    match hubBytes s c.part (bGva c.block) (8 * bNrank c.block) with
    | .inr cause => .inl (cause, if cause = cUNCORR then 0 else 1)
    | .inl ms =>
      if membersBad c ms || putFmtBad s c ms then .inl (cOPERAND, 0)
      else if handleBad s c ms then .inl (cTILE, 8)
      else if lengthBad s c ms then .inl (cOPERAND, 7)
      else if rowNeed c.block > (if bDtile c.block then 64 else 1024) then .inl (cOPERAND, 5)
      else .inr ms

/-- A splice command as it starts running. -/
def collFor (s : State) (c : Cmd) (ms : List Byte) : Coll :=
  let b := c.block
  let mates := s.colls.filter (fun d => d.op ≤ 5 && bOp b ≤ 5 && d.ann.collid == bCollid b && d.ann.members == ms)
  { cmd := c, op := bOp b, rank := bMyrank b, core := c.core
    ann := { collid := bCollid b, rank := bMyrank b, tgt := 0, core := 0, agree := agreeBytes b, members := ms, dst := ownDst s c ms }
    rows := rowNeed b, holds := false, announced := false, toHear := peersOf b, heard := [], shared := false, queued := [], unacked := [], landing := []
    coming := toCome b, written := [], contrib := [], kept := [], jobs := [], bad := [], fore := [], pruned := 0, sent := 0
    seed := (mates.head?.map (·.seed)).getD (2 * s.fresh), fail := none }

/-- A splice command started (R342, R343). -/
def spliceGo (p : Poster) (s : State) (c : Cmd) : State :=
  match spliceReject s c with
  | .inl (st, sub) => takeHead s p 2 { runOf c with worked := true, status := st, sub := sub, detail := bMyrank c.block }
  | .inr ms =>
    let t := takeHead s p 2 (runOf c)
    advanceColl { t with colls := t.colls ++ [collFor s c ms], fresh := t.fresh + 1 } c.id

/-- A start of a splice command in one row of the table. -/
def startSplice (row : CRow) (p : Poster) (q : Quad) (s : State) : Host.Outcome State Fault Refusal :=
  startCmd 2 row p q (fun _ _ => true) (spliceGo p) s

/-- SPL.COLL, OP 0 (R344 to R346). -/
def execSplCollAllReduce (p : Poster) (q : Quad) (s : State) : Host.Outcome State Fault Refusal := startSplice .allReduce p q s
/-- SPL.COLL, OP 1 (R344 to R346). -/
def execSplCollReduceScatter (p : Poster) (q : Quad) (s : State) : Host.Outcome State Fault Refusal := startSplice .reduceScatter p q s
/-- SPL.COLL, OP 2 (R344). -/
def execSplCollAllGather (p : Poster) (q : Quad) (s : State) : Host.Outcome State Fault Refusal := startSplice .allGather p q s
/-- SPL.COLL, OP 3 (R344). -/
def execSplCollBroadcast (p : Poster) (q : Quad) (s : State) : Host.Outcome State Fault Refusal := startSplice .broadcast p q s
/-- SPL.COLL, OP 4 (R344). -/
def execSplCollAllToAll (p : Poster) (q : Quad) (s : State) : Host.Outcome State Fault Refusal := startSplice .allToAll p q s
/-- SPL.COLL, OP 5 (R351, R352). -/
def execSplCollTransposingAllToAll (p : Poster) (q : Quad) (s : State) : Host.Outcome State Fault Refusal := startSplice .transpose p q s
/-- SPL.PUT (R341, R344, R354). -/
def execSplPut (p : Poster) (q : Quad) (s : State) : Host.Outcome State Fault Refusal := startSplice .put p q s
/-- SPL.SIG, SIGOP 0 (R354, R355). -/
def execSplSigSet (p : Poster) (q : Quad) (s : State) : Host.Outcome State Fault Refusal := startSplice .sigSet p q s
/-- SPL.SIG, SIGOP 1 (R354, R355). -/
def execSplSigAdd (p : Poster) (q : Quad) (s : State) : Host.Outcome State Fault Refusal := startSplice .sigAdd p q s

/-- A splice command whose CODE, OP or SIGOP is reserved started (R44, R342). -/
def spliceRejected (p : Poster) (q : Quad) (s : State) : Host.Outcome State Fault Refusal :=
  startCmd 2 .reserved p q (fun _ _ => true)
    (fun s c => takeHead s p 2 { runOf c with worked := true, status := cOPERAND, detail := bMyrank c.block }) s

/-! ## Reception (R344 to R349, R352) -/

/-- A flit of elements acknowledged at once. -/
def ackPiece (s : State) (f : Flit) (p : Piece) (refused : Bool) : State :=
  sendAck s p.core f.src (.pieceAck p.cmd p.tgt p.last refused)

/-- The tile row and column of element `i` of a destination tile (R344, R351). -/
def tileIndex (b : List Byte) (t : Tile) (i : Nat) : Nat × Nat :=
  let w := if bOp b = 5 then (nth (dstExt b) 0).getD 1 else tileCols t
  (i / w, i % w)

/-- Elements deposited into a tile word by word (R152, R348, R349), the sender acknowledged once all have landed; the first
contribution to a word of a reduction is written, the others combine. With the words now written; a tile that cannot take them
refuses the flit, and so does one of another element width, for which the spec gives no status (the model's choice, log 62). -/
def landElems (s : State) (f : Flit) (p : Piece) (b : List Byte) (reduce : Bool) (written : List Nat) : State × List Nat :=
  let t := tileOf (getCore s p.core) p.handle.toNat
  let at_ := p.elems.map (fun e => (tileIndex b t e.1, e.2))
  if !t.valid || t.gen != p.gen || t.acc || t.pl != 0 || p.width != fmtBits (tileFmt t)
      || (p.put && p.kind != .write && p.fmt != tileFmt t)
      || at_.any (fun e => e.1.1 ≥ tileRows t || e.1.2 ≥ tileCols t) then (ackPiece s f p true, written)
  else
    let ws := wordsOf t (at_.map (fun e => (e.1.1, e.1.2, e.2)))
    let badWords := (p.bad.map (tileIndex b t)).map (fun x => elemBit t x.1 x.2 / 32)
    let first := fun w => if p.ranked then p.rank == 0 else !written.contains w
    let ds : List Deposit := ws.map (fun w =>
      { src := .net f.src p.cmd p.tgt, core := p.core, handle := p.handle, gen := p.gen, word := w.1, data := w.2.1, mask := w.2.2
        kind := if reduce && first w.1 then .write else p.kind, ranked := if p.ranked then some p.rank else none, cls := p.cls
        due := s.clk, held := false, bad := badWords.contains w.1 })
    if ds.isEmpty then (ackPiece s f p false, written)
    else
      ({ s with
          deps := s.deps ++ ds
          owed := s.owed ++ [{ src := .net f.src p.cmd p.tgt, left := ds.map (fun d => (d.handle.toNat, d.word)), refused := false, dst := f.src
                               ack := .pieceAck p.cmd p.tgt p.last false }] },
       if reduce then written ++ (ws.map (·.1)).filter (fun w => !written.contains w) else written)

/-- Elements due for a member's memory destination, with the landing row they stand in and the acknowledgement that follows them. -/
def writeElems (s : State) (c : Coll) (bad : List Nat) (xs : List (Nat × Nat)) (row : Option (Nat × Nat)) (ack : Option (Nat × FlitBody)) : State :=
  setColl s { c with jobs := c.jobs ++ [{ elems := xs, bad := bad, out := [], cover := [], row := row, ack := ack }] }

/-- Whether a byte behind a command's pins lies on a page under migration (R237). -/
def pinsMigrate (s : State) (pins : List Pin) (va n : Nat) : Bool :=
  (span va n).any (fun a => (pinPa pins a).any (fun x => migratingAt s x.2 x.1))

/-- The first job of a member carried on: one element is written, an uncorrectable one poisoned (R249, R263, R344, R367), or waits for the
remap of its page with those after it (R237, R258); after the last, lines go to inlets and the sender is acknowledged (R328, R354). -/
def runJob (s : State) (id : Nat) : State :=
  match collOf s id with
  | none => s
  | some c =>
    match c.jobs with
    | [] => s
    | j :: js =>
      match j.elems with
      | x :: xs =>
        let w : Walk := { s := s, out := j.out, cover := j.cover, n := 0, miss := 0, stop := none }
        let wrote := fun (a : Walk) => setColl a.s { c with jobs := { j with elems := xs, out := a.out, cover := a.cover } :: js }
        match elemAt c.ann.dst (dstIndex c.cmd.block c.ann.dst x.1) with
        | some bit =>
          if pinsMigrate s c.cmd.pins (bit.toNat / 8) (bytesOver bit.toNat c.ann.dst.bits) then s
          else wrote (putElem c.cmd.pins bit.toNat c.ann.dst.bits x.2 (j.bad.contains x.1) w)
        | none => wrote w
      | [] =>
        let ls := inletLines j.out
        let t := refuseAll (setColl s { c with jobs := js }) ls.2
        let t1 := { t with cmds := t.cmds.map (fun r => if r.cmd.id = id then { r with lines := r.lines ++ ls.1 } else r) }
        match j.ack with
        | some (pkg, b) => sendAck t1 (ackCore b c.core) pkg b
        | none => t1

/-- A list of contributions with one placed by its rank. -/
def placeRank (x : Nat × Nat) : List (Nat × Nat) → List (Nat × Nat)
  | [] => [x]
  | y :: ys => if x.1 < y.1 then x :: y :: ys else y :: placeRank x ys

/-- A free binary tree over a list of values (R346, log 16): two of them are combined until one is left. -/
def treeFold (k : DepKind) (seed i : Nat) : Nat → List Nat → Nat
  | 0, xs => xs.headD 0
  | fuel + 1, xs =>
    if xs.length ≤ 1 then xs.headD 0
    else
      let pick := Config.treePick seed i xs.length
      let a := pick.1 % xs.length
      let rest := dropAt xs a
      let b := pick.2 % rest.length
      treeFold k seed i fuel (addElem k ((nth xs a).getD 0) ((nth rest b).getD 0) :: dropAt rest b)

/-- Whether every rank combines by the same tree: an all-reduce under RING or TREE (R346). -/
def oneTree (c : Coll) : Bool := c.op == 0 && (algOf c.cmd.block == 1 || algOf c.cmd.block == 2)

/-- What a member's trees are drawn by: one draw for every rank where all combine by the same tree, else its own (R346). -/
def treeSeed (c : Coll) : Nat := if oneTree c then c.seed else c.seed + 2 ^ 64 * (c.rank + 1)

/-- The value of one element of a reduction from its contributions (R345, R346). -/
def reduceElem (c : Coll) (e : Nat × List (Nat × Nat)) : Nat × Nat :=
  let k := blockKind c.cmd.block
  let xs := (e.2.foldl (fun acc x => placeRank x acc) []).map (·.2)
  (e.1, if bRanked c.cmd.block then (match xs with
    | [] => 0
    | x :: rest => rest.foldl (addElem k) x)
  else treeFold k (treeSeed c) e.1 xs.length xs)

/-- A member with the contributions of a flit noted. -/
def addContribs (c : Coll) (p : Piece) : Coll :=
  { c with
    contrib := p.elems.foldl (fun m e => mapSet m e.1 (mapGet [] m e.1 ++ [(p.rank, e.2)])) c.contrib
    coming := c.coming - p.elems.length, bad := c.bad ++ p.bad }

/-- Contributions of a flit to a memory destination kept until every one has come; then each element is written once (R346). -/
def keepContribs (s : State) (c : Coll) (f : Flit) (p : Piece) : State :=
  let c1 := addContribs c p
  if c1.coming = 0 then
    writeElems s { c1 with contrib := [] } c1.bad (c1.contrib.map (reduceElem c1)) none (some (f.src, .pieceAck p.cmd p.tgt p.last false))
  else ackPiece (setColl s c1) f p false

/-- Flits kept for a tile whose ranks all combine by one tree landed, each with the elements' final values (R346, R349; log 16). -/
def landKept (s : State) (b : List Byte) (f : Flit) (vals : List (Nat × Nat)) : List (Nat × Piece) → State
  | [] => s
  | (src, p) :: more =>
    landKept (landElems s { f with src := src } { p with elems := p.elems.map (fun e => (e.1, mapGet 0 vals e.1)), kind := .write } b false []).1
      b f vals more

/-- Contributions of a flit to a tile kept until every one has come, where all ranks combine by one tree (R346; log 16). -/
def keepForTile (s : State) (c : Coll) (f : Flit) (p : Piece) : State :=
  let c1 := addContribs { c with kept := c.kept ++ [(f.src, p)] } p
  if c1.coming = 0 then
    landKept (setColl s { c1 with contrib := [], kept := [] }) c.cmd.block f (c1.contrib.map (reduceElem c1)) c1.kept
  else setColl s c1

/-- The landing rows of a reservation in use at a member: open ones, and closed ones whose deposits have not landed (R352). -/
def rowsUsed (s : State) (c : Coll) : List LRow :=
  c.landing.filter (fun r => !r.closed || s.owed.any (fun o => o.src == .net r.pkg r.cmd c.rank)
    || c.jobs.any (fun j => j.row == some (r.pkg, r.cmd)))

/-- Whether a flit asks for a new landing row of a member. -/
def asksRow (c : Coll) (q : Piece) : Bool :=
  q.newRow && q.group == c.ann.members && q.collid == c.ann.collid && q.tgt == c.rank && q.core == c.core

/-- Whether a flit that needs a new landing row and arrived at a clock must let another go first: one that arrived before, and of one clock
that of the lower source package, then of the lower source core; a flit offered again counts as arriving now (R352, R361). Flits of another
package stand in the order of their pair, so that none of the same one comes before the next of it. -/
def rowRival (s : State) (c : Coll) (arrived src core : Nat) : Bool :=
  let before := fun (a p k : Nat) => a < arrived || (a == arrived && (p < src || (p == src && k < core)))
  (span 0 s.net.length).any (fun j => match arrivalOf s j with
    | .next g => (g.src != src || src == ownPkg) && (match g.body with
        | .piece q => asksRow c q && before g.arrived g.src q.srcCore
        | _ => false)
    | _ => false)
  || s.back.any (fun g => match g.body with
    | .piece q => asksRow c q && before s.clk g.src q.srcCore
    | _ => false)

/-- Whether the flits of a pair that stand between one and a later one have all arrived, so that nothing holds the later one back. -/
def followsOn (s : State) (f g : Flit) : Bool :=
  g.src == f.src && (g.seq - f.seq).toNat ≤ 1024 && (span 1 ((g.seq - f.seq).toNat)).all (fun i =>
    s.net.any (fun h => h.src == f.src && h.dst == f.dst && h.seq == f.seq + BitVec.ofNat 32 i))

/-- The flits of one package that come in the clock of a flit, right behind it in their pair's order, and win a landing row from it by a
lower source core (R352, R361): it goes back to its sender where the rows left are no more than they. -/
def winners (s : State) (c : Coll) (f : Flit) (core : Nat) : Nat :=
  if f.src = ownPkg then 0
  else (s.net.filter (fun g => g.arrived == f.arrived && followsOn s f g && (match g.body with
    | .piece q => asksRow c q && q.srcCore < core
    | _ => false))).length

/-- A flit of a transposing all-to-all that may land (R352): it joins its sender's row, and the flit that ends a segment has the
row deposited. -/
def joinRow (s : State) (c : Coll) (f : Flit) (p : Piece) : State :=
  let rows := rowsUsed s c
  let mine := fun (r : LRow) => r.pkg == f.src && r.cmd == p.cmd && r.seg == p.seg && !r.closed
  let rows1 := if rows.any mine then rows else
    rows ++ [{ pkg := f.src, cmd := p.cmd, seg := p.seg, elems := [], bad := [], closed := false }]
  let rows2 := rows1.map (fun r => if mine r then { r with elems := r.elems ++ p.elems, bad := r.bad ++ p.bad, closed := p.last } else r)
  let c1 := { c with landing := rows2, coming := c.coming - p.elems.length }
  if !p.last then ackPiece (setColl s c1) f p false
  else
    match (rows1.find? mine) with
    | none => ackPiece (setColl s c1) f p false
    | some r =>
      let whole := { p with elems := r.elems ++ p.elems, bad := r.bad ++ p.bad }
      if bDtile c.cmd.block then (landElems (setColl s c1) f whole c.cmd.block false []).1
      else writeElems s c1 whole.bad whole.elems (some (f.src, p.cmd)) (some (f.src, .pieceAck p.cmd p.tgt p.last false))

/-- A flit of elements at its destination; none while it must wait behind another of its clock (R344 to R349, R352). A flit whose
collective does not run here any more lands nowhere; one that finds no landing row goes back to its sender. -/
def landPiece (s : State) (f : Flit) (p : Piece) : Option State :=
  if p.put then some (landElems s f p [6] false []).1
  else
    match collAt s p.group p.collid p.tgt p.core with
    | none => some (ackPiece s f p false)
    | some c =>
      let b := c.cmd.block
      let own := entryAt c.ann.members c.rank
      let p1 := { p with handle := entryHandle own, gen := entryGen own, kind := blockKind b, ranked := bRanked b }
      if c.op = 5 then
        (if p.newRow && (rowsUsed s c).length + winners s c f p.srcCore ≥ c.rows then some { s with back := s.back ++ [f] }
         else if p.newRow && rowRival s c f.arrived f.src p.srcCore then none
         else some (joinRow s c f p1))
      else if bDtile b && oneTree c && !bRanked b then some (keepForTile s c f p1)
      else if bDtile b then
        let r := landElems s f p1 b (c.op ≤ 1) c.written
        some (match collOf r.1 c.cmd.id with
          | some c1 => setColl r.1 { c1 with written := r.2, coming := c1.coming - p.elems.length }
          | none => r.1)
      else if c.op ≤ 1 then some (keepContribs s c f p1)
      else
        some (writeElems s { c with coming := c.coming - p.elems.length } p.bad p.elems none
          (some (f.src, .pieceAck p.cmd p.tgt p.last false)))

/-- The next flit of a transposing all-to-all for a rank sent, none for it being unacknowledged, where the core's journal takes it (R352,
R382). -/
def pushQueued (s : State) (c : Coll) (tgt : Nat) : State :=
  match c.queued.find? (fun e => e.1 == tgt) with
  | some (_, p :: ps) =>
    let rest := c.queued.filter (fun e => e.1 != tgt)
    if c.unacked.contains tgt || !egressOk (getCore s c.core) c.cmd.part (destOf (entryPkg (entryAt c.ann.members tgt))) then s
    else
      sendPiece (setColl s { c with
        queued := if ps.isEmpty then rest else rest ++ [(tgt, ps)], unacked := c.unacked ++ [tgt]
        sent := c.sent + pieceBits c.rank [p] }) c p
  | _ => s

/-- An acknowledgement of elements at their sender (R352, R354): a refusal is reported, and of a transposing all-to-all the next
flit for that rank is sent. -/
def pieceAcked (s : State) (id tgt : Nat) (refused : Bool) : State :=
  let s1 := if refused then softFail s id cTILE 8 tgt else s
  match collOf s1 id with
  | none => s1
  | some c =>
    let c1 := { c with unacked := c.unacked.erase tgt }
    pushQueued (setColl s1 c1) c1 tgt

/-! ## Remote epilogue rows (R198, R199, R354) -/

/-- The clock from which a remote row may go to egress: the drain path brings one row in each ⌈C ÷ 128⌉ clocks (R186). -/
def rowClock (f : MFlight) (r : RemoteRow) : Nat := f.issue + f.late + 8 + (r.srcRow + 1) * ceilDiv r.elems.length 128

/-- The words of a remote row in its destination tile, none where the row is refused (R198, R348, R349). -/
def rowWords (k : Core) (r : RemoteRow) : Option (List (Nat × Lane × Lane)) :=
  let t := tileOf k r.handle.toNat
  if !t.valid || t.gen != r.gen || t.acc || t.pl != 0 || t.fmt != r.fmt || (r.ranked && rankRefused t)
      || r.elems.any (fun e => e.r < 0 || e.c < 0 || (tileRows t : Int) ≤ e.r || (tileCols t : Int) ≤ e.c) then none
  else
    let ws := wordsOf t (r.elems.map (fun e => (e.r.toNat, e.c.toNat, e.bits.toNat)))
    if r.add && storageIn t && ws.any (fun w => addReserved (tileFmt t) (tileWord k t w.1) w.2.1 w.2.2) then none else some ws

/-- Whether a row goes to a tile of this package that is FULL, for which egress holds it (R152, R202). -/
def rowMeetsFull (s : State) (r : RemoteRow) : Bool :=
  let k := getCore s r.core
  r.dstPkg == ownPkg && (rowWords k r).isSome && isFull (tileOf k r.handle.toNat) s.clk

/-- REMOTE_ROW_HANDOFF (R198, R199, R202): the next row of a remote MEPI goes to egress, and EROW moves past it; a row to a tile of this
package that is FULL waits, and the rows after one that goes late come as much later (R186). -/
def execRemoteRowHandoff (core sub : Nat) (s : State) : Host.Outcome State Fault Refusal :=
  let k := getCore s core
  match subOf k sub with
  | none => .next s
  | some b =>
    match b.flights.find? (fun f => match f.effect with
        | .epiRemote _ (_ :: _) => true
        | _ => false) with
    | none => .next s
    | some f =>
      match f.effect with
      | .epiRemote ha (r :: rs) =>
        let part := (corePart s core).getD 0
        if preempting s core f.slot || f.stuck || s.clk < rowClock f r || !egressOk k part (destOf r.dstPkg)
            || rowMeetsFull s r then .next s
        else
          let b1 := { b with
            erow := BitVec.ofNat 12 (r.srcRow + 1)
            flights := b.flights.map (fun g => if g.id = f.id then
              { g with effect := .epiRemote ha rs, unacked := g.unacked + 1, late := g.late + (s.clk - rowClock f r) } else g) }
          let t := setCore s core { k with subs := mapSet k.subs sub b1 }
          .next (sendFrom { t with rowsOut := t.rowsOut ++ [(t.cmdSeq, r)] } part core r.dstPkg (.row r))
      | _ => .next s

/-- REMOTE_ROW_ARRIVAL (R198): a row is checked at its destination and deposited, or refused whole. -/
def execRemoteRowArrival (k : Nat) (s : State) : Host.Outcome State Fault Refusal :=
  .next (onFlit s k (fun t f => match f.body with
    | .row r =>
      let c := getCore t r.core
      match rowWords c r with
      | none => some (sendAck t r.core f.src (.rowAck r true))
      | some ws =>
        let src : DepSrc := .row f.src r.srcCore r.srcSub r.core
        let fmt := tileFmt (tileOf c r.handle.toNat)
        let ds : List Deposit := ws.map (fun w =>
          { src := src, core := r.core, handle := r.handle, gen := r.gen, word := w.1, data := w.2.1, mask := w.2.2
            kind := if r.add then .sum fmt else .write
            ranked := if r.ranked then some (f.src * 4096 + r.srcCore * 8 + r.srcSub) else none, cls := r.cls, due := t.clk
            held := false, bad := false })
        if ds.isEmpty then some (sendAck t r.core f.src (.rowAck r false))
        else some { t with
          deps := t.deps ++ ds
          owed := t.owed ++ [{ src := src, left := ds.map (fun d => (d.handle.toNat, d.word)), refused := false, dst := f.src, ack := .rowAck r false }] }
    | _ => none))

/-- The splice report of a refused row (R284). -/
def rowReport (s : State) (r : RemoteRow) : Rec :=
  { entered := s.clk, status := cTILE, sub := 8, engine := 2, flags := 6
    tagq := BitVec.ofNat 32 (r.pc.toNat % 8192 + r.srcSub * 8192 + r.srcSlot % 4 * 65536), sig := 0x20000000
    detail := BitVec.ofNat 32 (r.handle.toNat + r.srcRow % 2048 * 4096), tns := BitVec.ofNat 64 s.tb.tns
    count := BitVec.ofNat 64 (r.dstPkg + r.core * 65536) }

/-- The slot of a core in which a unit stands, if it does. -/
def whereIs (s : State) (uid : Nat) : Option (Nat × Nat) :=
  s.cores.findSome? (fun e => (slotOfUid e.2 uid).map (fun i => (e.1, i)))

/-- A splice report entered where the unit's queue has a free unreserved entry; held at the hub while the unit is away; none while
it must wait (R198, R281, R372). -/
def enterReport (s : State) (r : RemoteRow) : Option State :=
  match whereIs s r.srcUid with
  | some (core, i) =>
    let u := unitAt s core i
    if u.evq.length + u.evqRsv ≥ 64 then none
    else
      let t := noteFlags s core i
      some (setUnitAt t core i (latched { unitAt t core i with evq := enterRec (rowReport s r) u.evq }))
  | none => some { s with aways := s.aways.map (fun a =>
      if a.unit.uid = r.srcUid then { a with recs := a.recs ++ [rowReport s r] } else a) }

/-- A sub-array with one row of a word acknowledged (R93, R197). -/
def rowAcked (s : State) (r : RemoteRow) : State :=
  flightAcked s r.srcCore r.srcSub (fun f => f.id == r.srcId && f.uid == r.srcUid)

/-- A row's acknowledgement at its sender (R176, R198): a refusal also makes a splice report. -/
def rowAnswer (s : State) (f : Flit) (r : RemoteRow) (refused : Bool) : State :=
  let out := match s.rowsOut.find? (fun e => e.2 == r) with
    | some e => s.rowsOut.erase e
    | none => s.rowsOut
  let t := rowAcked { s with rowsOut := out } r
  if refused then (enterReport t r).getD { t with back := t.back ++ [f] } else t

/-! ## Signals at their target (R355) -/

/-- A flag applied in its target's space; the cause where it does not translate; none while its page is under migration. -/
def applySignal (s : State) (core va : Nat) (value : Word) (add : Bool) : Option (State × BitVec 8) :=
  match corePart s core with
  | none => some (s, cWINDOW)
  | some p =>
    match translateHub s p va .write with
    | .fail c => some (s, c)
    | .ok pa leaf =>
      match inletChan pa with
      | some ch => some (inletRefuse s ch, 0)
      | none =>
        if migratingAt s leaf pa then none
        else
          let v := if add then memNat s.mem pa 8 + value.toNat else value.toNat
          some ({ s with mem := memSetNat s.mem pa 8 v }, 0)

/-- SIGNAL_APPLY (R355). -/
def execSignalApply (k : Nat) (s : State) : Host.Outcome State Fault Refusal :=
  .next (onFlit s k (fun t f => match f.body with
    | .signal core va value add _ cmd =>
      (applySignal t core va value add).map (fun r => sendAck r.1 core f.src (.signalAck cmd r.2))
    | _ => none))

/-- A signal's acknowledgement at its issuer (R355, R360). -/
def signalAcked (s : State) (id : Nat) (cause : BitVec 8) : State :=
  match collOf s id with
  | none => s
  | some c =>
    let t := setColl s { c with unacked := [] }
    if cause = 0 then t else failColl t id cause 0 (bPeer c.cmd.block)

/-! ## Announcements and withdrawals (R343) -/

/-- COLLECTIVE_ANNOUNCE (R343). -/
def execCollectiveAnnounce (k : Nat) (s : State) : Host.Outcome State Fault Refusal :=
  .next (onFlit s k (fun t f => match f.body with
    | .announce a =>
      some (if t.spent.contains (annKey a) then { t with spent := t.spent.erase (annKey a) } else hearAll [f] t)
    | _ => none))

/-- The state with an announcement forgotten that no collective has heard. -/
def forgetAnn (s : State) (group : List Byte) (collid rank tgt core : Nat) : State :=
  { s with anns := s.anns.filter (fun g => match g.body with
      | .announce a => !(a.members == group && a.collid == collid && a.rank == rank && a.tgt == tgt && a.core == core)
      | _ => true) }

/-- MEMBER_WITHDRAW (R343): a peer still running the collective ends CANCELLED, and an announcement not yet heard is forgotten. -/
def execMemberWithdraw (k : Nat) (s : State) : Host.Outcome State Fault Refusal :=
  .next (onFlit s k (fun t f => match f.body with
    | .withdraw group collid rank tgt core =>
      let u := forgetAnn t group collid rank tgt core
      match collAt u group collid tgt core with
      | some c => some (failColl u c.cmd.id cCANCELLED 6 rank)
      | none => some u
    | _ => none))

/-- A member's withdrawal told to a list of peers. -/
def withdrawTo (c : Coll) : List Nat → State → State
  | [], s => s
  | q :: qs, s =>
    let e := entryAt c.ann.members q
    withdrawTo c qs (sendFrom s c.cmd.part c.core (entryPkg e) (.withdraw c.ann.members c.ann.collid c.rank q (entryCore e)))

/-- A failed member's announcement taken back from a list of peers, so that it stands for no later collective (R339, R343). A member
that has failed because another disagrees takes nothing back, for every peer is to see that (R438). -/
def retractTo (c : Coll) : List Nat → State → State
  | [], s => s
  | q :: qs, s =>
    let e := entryAt c.ann.members q
    retractTo c qs (sendFrom s c.cmd.part c.core (entryPkg e) (.retract c.ann.members c.ann.collid c.rank q (entryCore e)))

/-- The acknowledgements of jobs sent that are dropped with their command. -/
def ackJobs (core : Nat) : List WJob → State → State
  | [], s => s
  | j :: js, s => ackJobs core js (match j.ack with
    | some (pkg, b) => sendAck s (ackCore b core) pkg b
    | none => s)

/-- The other ranks of a collective. -/
def otherRanks (c : Coll) : List Nat := (span 0 (bNrank c.cmd.block)).filter (· != c.rank)

/-- Acknowledgements sent for flits that were kept for a command that is gone. -/
def ackKept : List (Nat × Piece) → State → State
  | [], s => s
  | (src, p) :: more, s => ackKept more (sendAck s p.core src (.pieceAck p.cmd p.tgt p.last false))

/-- A splice command gone, its landing rows freed and the flits it kept acknowledged. -/
def removeColl (s : State) (c : Coll) : State :=
  ackKept c.kept (dropRows { s with colls := s.colls.filter (fun d => d.cmd.id != c.cmd.id) } c)

/-- The started collectives of a unit withdrawn and ended (R343, R440). -/
def withdrawColls (s : State) : List Coll → State
  | [] => s
  | c :: cs =>
    let t := withdrawTo c (otherRanks c) (ackJobs c.core c.jobs (removeColl s c))
    withdrawColls { t with cmds := t.cmds.filter (fun r => r.cmd.id != c.cmd.id) } cs

/-! ## Receiving flits (R353) -/

/-- The effect of a flit that has no row of its own in the table. -/
def flitEffect (s : State) (f : Flit) : Option State :=
  match f.body with
  | .piece p => landPiece s f p
  | .pieceAck cmd tgt _ refused => some (pieceAcked s cmd tgt refused)
  | .signalAck cmd cause => some (signalAcked s cmd cause)
  | .rowAck r refused => some (rowAnswer s f r refused)
  | .retract group collid rank tgt core => some (forgetAnn s group collid rank tgt core)
  | _ => tierFlit s f

/-- FLIT_RECEIVE (R353). -/
def execFlitReceive (k : Nat) (s : State) : Host.Outcome State Fault Refusal := .next (onFlit s k flitEffect)

/-- FLIT_REOFFER (R352, R361): a flit that waits at its sender is offered again when a row is free; a splice report that waits for an
entry is tried again (R281). -/
def execFlitReoffer (k : Nat) (s : State) : Host.Outcome State Fault Refusal :=
  match nth s.back k with
  | none => .next s
  | some f =>
    let t := { s with back := dropAt s.back k }
    match f.body with
    | .piece p =>
      match collAt s p.group p.collid p.tgt p.core with
      | none => .next (ackPiece t f p false)
      | some c =>
        let own := entryAt c.ann.members c.rank
        if (rowsUsed s c).length ≥ c.rows || rowRival t c s.clk f.src p.srcCore then .next s
        else .next (joinRow t c f { p with handle := entryHandle own, gen := entryGen own, kind := blockKind c.cmd.block, ranked := bRanked c.cmd.block })
    | .rowAck r _ => .next ((enterReport t r).getD s)
    | _ => .next t

/-! ## Endings (R354, R360) -/

/-- Whether the destination tile of a member has taken everything sent to it. -/
def dstSettled (s : State) (c : Coll) : Bool :=
  let h := entryHandle (entryAt c.ann.members c.rank)
  !bDtile c.cmd.block
  || (!s.deps.any (fun d => d.core == c.core && d.handle == h && (match d.src with
        | .net _ _ tgt => tgt == c.rank
        | _ => false))
      && !(getCore s c.core).parked.any (fun p => p.handle == h))

/-- The payload bits a member sends under RING where R347 fixes them: a round of NRANK − 1 steps of one block each (R360). -/
def ringBits (b : List Byte) : Option Nat :=
  let n := bNrank b
  let w := fmtBits (bFmt b)
  if algOf b ≠ 1 then none
  else if bOp b = 1 || bOp b = 2 then some ((n - 1) * bCount b * w)
  else if bOp b = 0 && bCount b % n = 0 then some (2 * (n - 1) * (bCount b / n) * w)
  else none

/-- The payload bytes a member sent (R360): those of DIRECT and of the rounds of RING, else open (log 5, log 41). -/
def payloadSent (s : State) (c : Coll) : Nat × State :=
  if c.op ≥ 4 || algOf c.cmd.block = 3 || (c.fail.isSome && !c.shared) then (ceilDiv c.sent 8, s)
  else
    match (if c.fail.isSome then none else ringBits c.cmd.block) with
    | some n => (ceilDiv n 8, s)
    | none => ((Config.splicePayload s.fresh).toNat, { s with fresh := s.fresh + 1 })

/-- Whether nothing that a splice command has sent or taken is outstanding (R271). -/
def quiet (c : Coll) : Bool := c.unacked.isEmpty && c.jobs.isEmpty

/-- Whether a splice command has done its work: its own destination is final and everything it sent is acknowledged (R354). -/
def spliceOver (s : State) (c : Coll) : Bool :=
  c.announced && c.toHear.isEmpty && c.queued.isEmpty && quiet c && (c.op ≥ 6 || (c.coming = 0 && dstSettled s c))

/-- The flits of a transposing all-to-all that waited for the core's journal sent as far as it takes them (R382). -/
def pushAll (s : State) (id : Nat) : State :=
  match collOf s id with
  | none => s
  | some c => (c.queued.map (·.1)).foldl (fun t q => match collOf t id with
    | some d => pushQueued t d q
    | none => t) s

/-- What COMMAND_END finds of a splice command that has not done its work: it goes on as far as it can, and ends when it is over or,
having failed, when nothing of it is outstanding (R271, R354, R360), its announcements taken back or those of its peers spent; the members pruned of a broadcast's tree are its DETAIL (R357). -/
def spliceWork (s : State) (r : Run) : State :=
  let t := runJob (pushAll (advanceColl s r.cmd.id) r.cmd.id) r.cmd.id
  match collOf t r.cmd.id, runById t r.cmd.id with
  | some c, some r1 =>
    let x := payloadSent t c
    match c.fail with
    | some (st, sub, d) =>
      if !quiet c then t
      else
        let u := if c.op ≤ 5 && c.announced then
            (if st = cOPERAND && sub = 2 then spendAnns c c.toHear x.2 else retractTo c (peersOf c.cmd.block) x.2) else x.2
        setRun (removeColl u c) { r1 with worked := true, status := st, sub := sub, detail := d, count := x.1 }
    | none =>
      if spliceOver t c then
        setRun (removeColl x.2 c) { r1 with worked := true, detail := if r1.status = 0 then c.pruned else r1.detail, count := x.1 }
      else t
  | _, _ => t

/-! ## Links (R358, R359) -/

/-- The state with a port replaced. -/
def withFport (s : State) (p : Nat) (f : FPort) : State := { s with fports := mapSet s.fports p f }

/-- Replays of a port within the last millisecond. -/
def recentReplays (s : State) (p : Nat) : List Nat := (fportOf s p).replays.filter (fun t => s.tb.tns < t + 1000000)

/-- The ranks of a splice command that no path reaches and from which something is still due. -/
def awaited (s : State) (c : Coll) : List Nat :=
  let foreign := fun q => !reachable s (destOf (entryPkg (entryAt c.ann.members q)))
  if c.op ≥ 6 then c.unacked.filter foreign
  else if !c.announced then []
  else
    let heard := c.toHear.filter foreign
    if !heard.isEmpty then heard
    else if !c.unacked.isEmpty || c.coming ≠ 0 then (peersOf c.cmd.block).filter foreign else []

/-- A splice command's flits to packages that no path reaches given up. -/
def giveUp (s : State) (id : Nat) : State :=
  match collOf s id with
  | none => s
  | some c => setColl s { c with unacked := c.unacked.filter (fun q => reachable s (destOf (entryPkg (entryAt c.ann.members q)))) }

/-- Splice commands that no path serves any more failed, and the tree of a broadcast pruned (R356, R357, R360). -/
def cutOff (s : State) : List Coll → State
  | [] => s
  | c :: cs =>
    let lost := (otherRanks c).filter (fun q => !reachable s (destOf (entryPkg (entryAt c.ann.members q))) && (c.toHear.contains q || c.unacked.contains q))
    if castRoot c && c.announced && c.fail.isNone then cutOff (shareAll (lost.foldl (fun t q => pruneRank t c.cmd.id q) s) c.cmd.id) cs
    else
      match awaited s c with
      | q :: _ => cutOff (giveUp (failColl s c.cmd.id cENGINE (if c.op = 7 then 4 else 3) q) c.cmd.id) cs
      | [] => cutOff (giveUp s c.cmd.id) cs

/-- Whatever waits for a package that no path reaches any more ended, pruned or excluded (R308, R356, R357). -/
def pathsGone (s : State) : State := dropRemoteSubs (fun p => !reachable s (destOf p)) (cutOff s s.colls)

/-- A port down; with the last one every path out of the package is gone (R356, R359). -/
def portLost (s : State) (p : Nat) : State :=
  let t := { withFport s p { fportOf s p with up := false, replays := [] } with pfEv := s.pfEv ||| 16 }
  if (span 0 16).any (fun q => (fportOf t q).up) then t else pathsGone t

/-- The fabric reports that no path to a package remains, or that one does again (R356, R357). -/
def pathReport (s : State) (pkg : Nat) (up : Bool) : State :=
  if up then { s with cutPkgs := s.cutPkgs.filter (· != pkg) }
  else if pkg == ownPkg || s.cutPkgs.contains pkg then s
  else pathsGone { s with cutPkgs := pkg :: s.cutPkgs }

/-- LINK_REPLAY (R359): a port re-sends from the flit its receiver asks for. -/
def execLinkReplay (port : Nat) (s : State) : Host.Outcome State Fault Refusal :=
  if port < 16 && (fportOf s port).up then
    .next (withFport s port { fportOf s port with replays := recentReplays s port ++ [s.tb.tns] })
  else .next s

/-- LINK_RETRAIN (R359): more than sixteen replays in a millisecond at 224 Gb/s; vector 4 is signalled (R386). -/
def execLinkRetrain (port : Nat) (s : State) : Host.Outcome State Fault Refusal :=
  let f := fportOf s port
  if port < 16 && f.up && f.fast && (recentReplays s port).length > 16 then
    .next { withFport s port { f with fast := false, replays := [] } with pfEv := s.pfEv ||| 16 }
  else .next s

/-- PORT_DOWN (R359): more than sixteen replays in a millisecond at 112 Gb/s. -/
def execPortDown (port : Nat) (s : State) : Host.Outcome State Fault Refusal :=
  let f := fportOf s port
  if port < 16 && f.up && !f.fast && (recentReplays s port).length > 16 then .next (portLost s port) else .next s

/-- LINK_FAILURE (R356): a link fails, and its flits take other paths while there are any. -/
def execLinkFailure (port : Nat) (s : State) : Host.Outcome State Fault Refusal :=
  if port < 16 && (fportOf s port).up then .next (portLost s port) else .next s

end Sys2Proof.Machine
end

