-- ==== Sys2Proof/Machine/Units.lean ====
section
/-! DEFINITION. Tasks and the endings of units: the TCB, the hierarchy, arming, dependences, HALT, TSK.END and the other task
instructions (R135, R165, R180, R181, R312 to R323, R440). -/
namespace Sys2Proof.Machine

/-! ## The TCB (R180, R313, R314) -/

def tcbQmask (b : List Byte) : Nat := fieldNat b 16 16
def tcbBond (b : List Byte) : Nat := fieldNat b 32 4
def tcbPrio (b : List Byte) : Nat := fieldNat b 38 1 % 8
def tcbIdem (b : List Byte) : Bool := fieldNat b 38 1 / 8 % 2 == 1
def tcbPolicy (b : List Byte) : Nat := fieldNat b 38 1 / 16 % 4
def tcbNsucc (b : List Byte) : Nat := fieldNat b 39 1
def tcbRows (b : List Byte) : Nat := 16 * fieldNat b 40 1
def tcbNres (b : List Byte) : Nat := fieldNat b 41 1
def tcbHpath (b : List Byte) : Nat := fieldNat b 44 4
def tcbSucc (b : List Byte) (i : Nat) : Nat := fieldNat b (48 + 8 * i) 8
def tcbOvfl (b : List Byte) : Nat := fieldNat b 96 8
def tcbRes (b : List Byte) (i : Nat) : Nat := fieldNat b (104 + 4 * i) 4
/-- The shape of a bond request: 0 none, 1 local, 2 tall, 3 wide, 4 square (R180). -/
def bondShape (w : Nat) : Nat := w / 2 ^ 29

/-- Whether a bond request breaks R180. -/
def bondReqBad (w : Nat) : Bool :=
  match bondShape w with
  | 0 => w != 0
  | 1 => w % 2 ^ 21 != 0
  | 2 | 3 | 4 => w % 2 ^ 29 != 0
  | _ => true

/-- The places, by row and column, of `n` rectangles of h × w bricks formed in turn beside the bricks in use: each the free one
with the lowest column, then the lowest row (R181). -/
def placeRects (h w : Nat) : Nat → List Nat → Option (List (Nat × Nat))
  | 0, _ => some []
  | n + 1, used =>
    match (span 0 (9 - w)).findSome? (fun c => (firstIn (fun r => !bricksMeet (rectBricks r h c w) used) 0 (5 - h)).map (fun r => (r, c))) with
    | none => none
    | some (r, c) => (placeRects h w n (used ++ rectBricks r h c w)).map (fun xs => (r, c) :: xs)

/-- Height, width and number of a local request (R180). -/
def bondH (w : Nat) : Nat := w / 2 ^ 27 % 4 + 1
def bondW (w : Nat) : Nat := w / 2 ^ 24 % 8 + 1
def bondN (w : Nat) : Nat := w / 2 ^ 21 % 8 + 1

/-- Whether a request can never be supplied (R181). -/
def neverSupplied (w : Nat) : Bool := bondShape w == 1 && (placeRects (bondH w) (bondW w) (bondN w) []).isNone

/-- The package quads a task may run on (R313). -/
def taskQuads (pt : Part) (b : List Byte) : List Nat :=
  if tcbQmask b = 0 then pt.quads else pt.quads.filter (fun q => tcbQmask b / 2 ^ q % 2 == 1)

/-- The four nodes of a task as level and number (R312, R313). -/
def tcbNodes (b : List Byte) : List (Nat × Nat) :=
  let h := tcbHpath b
  [(1, h % 1024), (2, h / 2 ^ 10 % 256), (3, h / 2 ^ 18 % 64), (4, h / 2 ^ 24 % 16)]

/-- Whether a partition owns a node (R312, R387). -/
def ownsNode (pt : Part) (n : Nat × Nat) : Bool :=
  match n.1 with
  | 1 => pt.lnbase ≤ n.2 && n.2 < pt.lnbase + pt.lncnt
  | 2 => pt.grbase ≤ n.2 && n.2 < pt.grbase + pt.grcnt
  | 3 => pt.phbase ≤ n.2 && n.2 < pt.phbase + pt.phcnt
  | 4 => pt.jbbase ≤ n.2 && n.2 < pt.jbbase + pt.jbcnt
  | _ => false

/-- The key of a node in the map of nodes. -/
def nodeKey (n : Nat × Nat) : Nat := n.1 * 65536 + n.2
/-- A node (R312). -/
def nodeOf (s : State) (n : Nat × Nat) : Node := mapGet { done := 0, fail := 0, live := 0, cxl := false } s.nodes (nodeKey n)
/-- The state with a node replaced. -/
def withNode (s : State) (n : Nat × Nat) (x : Node) : State := { s with nodes := mapSet s.nodes (nodeKey n) x }

/-- Whether the 128 bytes of a TCB break what R316 lists under OPERAND. -/
def tcbBad (pt : Part) (x : List Byte) : Bool :=
  let st := fieldNat x 120 1
  fieldNat x 0 8 % 4 != 0 || fieldNat x 0 8 ≥ 2 ^ 55
  || bondReqBad (tcbBond x)
  || fieldNat x 38 1 ≥ 64 || tcbPolicy x == 3 || tcbNsucc x > 6 || fieldNat x 40 1 > 128 || tcbNres x > 4
  || fieldNat x 42 2 != 0 || tcbHpath x ≥ 2 ^ 28
  || (span 0 6).any (fun i => if i < tcbNsucc x then tcbSucc x i % 128 != 0 || tcbSucc x i ≥ 2 ^ 55 else tcbSucc x i != 0)
  || tcbOvfl x % 8 != 0 || (tcbNsucc x != 6 && tcbOvfl x != 0)
  || (span 0 4).any (fun i => if i < tcbNres x then tcbRes x i ≥ 2 ^ 22 else tcbRes x i != 0)
  || !([0, 4, 6, 7].contains st) || fieldNat x 123 1 != 0
  || (taskQuads pt x).isEmpty

/-- Whether a node or a residency slot of a TCB is not the partition's (R316). -/
def tcbForeign (pt : Part) (x : List Byte) : Bool :=
  !(tcbNodes x).all (ownsNode pt)
  || (span 0 (tcbNres x)).any (fun i =>
      let sl := tcbRes x i / 65536 % 64
      !(pt.itbase ≤ sl && sl < pt.itbase + pt.itcnt))

/-! ## The scheduler's copies (R316, R318) -/

/-- STATE as written to a TCB (R313). -/
def stateCode : TState → BitVec 8
  | .free => 0 | .wait => 1 | .ready => 2 | .run => 3 | .done => 4 | .held => 5 | .failed => 6 | .cancelled => 7

/-- Bytes 120 to 127 of a TCB. -/
def tcbTail (t : Task) : List Byte :=
  [stateCode t.state, t.status, BitVec.ofNat 8 t.retries, if t.dupdec then 1 else 0] ++ leBytes 4 t.aseq

/-- The state with an armed task replaced and its TCB written back (R316). -/
def putTask (s : State) (id : Nat) (t : Task) : State := writeBytes { s with tasks := mapSet s.tasks id t } (t.pa + 120) (tcbTail t)

/-- The state with a task ended: its last write-back is made, its pin and its chain are released (R316, R379). -/
def dropTask (s : State) (id : Nat) (t : Task) : State :=
  writeBytes { s with tasks := mapErase s.tasks id, chains := mapErase s.chains id } (t.pa + 120) (tcbTail t)

/-- An armed task. -/
def taskOf (s : State) (id : Nat) : Option Task := mapFind s.tasks id

/-- The armed task of a TCB. -/
def armedAt (s : State) (pa : Nat) : Option (Nat × Task) := s.tasks.find? (fun e => e.2.pa == pa)

/-- The four nodes of a task with LIVE risen. -/
def nodesLive (s : State) : List (Nat × Nat) → State
  | [] => s
  | n :: ns => nodesLive (withNode s n { nodeOf s n with live := (nodeOf s n).live + 1 }) ns

/-- The four nodes of a task with an ending counted (R312). -/
def nodesEnd (s : State) (good : Bool) : List (Nat × Nat) → State
  | [] => s
  | n :: ns =>
    let x := nodeOf s n
    nodesEnd (withNode s n { x with
      live := x.live - 1, done := if good then x.done + 1 else x.done, fail := if good then x.fail else x.fail + 1 }) good ns

/-! ## Successors (R313, R317, R318, R320) -/

/-- Successors as they translate, with their leaf and the first virtual address and span of their page, up to the first that does not,
with its cause (R318). -/
structure Succs where
  list : List (Nat × Nat × Word × Nat × Nat)
  fail : Option (BitVec 8)
  deriving DecidableEq, Repr

/-- Successor addresses translated in order. One whose bits 6:0 are not zero, which only an overflow block can hold and for which R318 names no
outcome, fails with OPERAND (the model's choice, log 62). -/
def resolveList (s : State) (p : Nat) : List Nat → Succs
  | [] => { list := [], fail := none }
  | a :: as =>
    if a % 128 ≠ 0 then { list := [], fail := some cOPERAND }
    else
      match hubPage s p a .write with
      | .inr c => { list := [], fail := some c }
      | .inl x => { list := (a, x.pa + (a - x.vpage), x.attr, x.vpage, x.span) :: (resolveList s p as).list, fail := (resolveList s p as).fail }

/-- The addresses of an overflow block (R313, R318). -/
def overflowList (s : State) (p va : Nat) : List Nat ⊕ BitVec 8 :=
  match hubBytes s p va 8 with
  | .inr c => .inr c
  | .inl hd =>
    let n := fieldNat hd 0 2
    if n = 0 || n > 4096 || fieldNat hd 2 6 ≠ 0 then .inr cOPERAND
    else
      match hubBytes s p (va + 8) (8 * n) with
      | .inr c => .inr c
      | .inl bs => .inl ((span 0 n).map (fun i => fieldNat bs (8 * i) 8))

/-- The successors a TCB names, inline ones first. -/
def successors (s : State) (p : Nat) (b : List Byte) : Succs :=
  let inl := resolveList s p ((span 0 (min 6 (tcbNsucc b))).map (tcbSucc b))
  if inl.fail.isSome || tcbNsucc b ≠ 6 || tcbOvfl b = 0 then inl
  else
    match overflowList s p (tcbOvfl b) with
    | .inr c => { inl with fail := some c }
    | .inl as =>
      let more := resolveList s p as
      { list := inl.list ++ more.list, fail := more.fail }

/-- The state with decrements or cancellations on their way to a list of TCBs, `src` being the task that releases them (R317, R320). -/
def emitDecrs (s : State) (p : Nat) (cancel : Bool) (core : Nat) (accs : List Nat) (uid src : Option Nat)
    (xs : List (Nat × Nat × Word × Nat × Nat)) : State :=
  { s with decrs := s.decrs ++ xs.map (fun x =>
    { part := p, va := x.1, pa := x.2.1, leaf := x.2.2.1, cancel := cancel, core := core, accs := accs, uid := uid
      vpage := x.2.2.2.1, span := x.2.2.2.2, src := src }) }

/-- The state with a task's successors to be cancelled. -/
def cancelSuccessors (s : State) (p : Nat) (b : List Byte) : State := emitDecrs s p true 0 [] none none (successors s p b).list

/-- The unit a task runs as, by core and slot. -/
def unitOfTask (s : State) (id : Nat) : Option (Nat × Nat) :=
  s.cores.findSome? (fun e => (e.2.units.find? (fun u => u.2.live && u.2.task == id)).map (fun u => (e.1, u.1)))

/-- A task's ending (R320), `from_` being the core and instance of the unit that ended, if one did. An OPERAND ending at arming
takes HOLD as CANCEL-SUCCESSORS (R316). -/
def taskEnd (s : State) (id : Nat) (status : BitVec 8) (arming : Bool) (from_ : Option (Nat × Nat)) : State :=
  match taskOf s id with
  | none => s
  | some t =>
    let again := status == cCHECK || status == cUNCORR || status == cRESTORELOST
    let finish := fun (s : State) (st : TState) (code : BitVec 8) (good : Bool) =>
      dropTask (nodesEnd s good (tcbNodes t.body)) id { t with state := st, status := code }
    let release := fun (st : TState) =>
      let x := successors s t.part t.body
      let core := (from_.map (·.1)).getD 0
      let accs := match from_ with
        | some (c, uid) => ((getCore s c).accs.filter (fun a => a.uid == uid)).map (·.id)
        | none => []
      let s1 := emitDecrs s t.part false core accs (from_.map (·.2)) (some id) x.list
      match x.fail with
      | some c => finish s1 .failed c false
      | none => finish s1 st status (status == 0)
    if status = 0 then release .done
    else if status = cCANCELLED then finish s .cancelled status false
    else if again && tcbIdem t.body && t.retries < 3 then
      putTask { s with chains := mapErase s.chains id } id
        { t with state := .ready, retries := t.retries + 1, readyAt := s.tb.tns, headAt := none, blocking := false }
    else if tcbPolicy t.body = 2 then release .failed
    else if tcbPolicy t.body = 1 || arming then finish (cancelSuccessors s t.part t.body) .failed status false
    else putTask { s with chains := mapErase s.chains id } id { t with state := .held, status := status }

/-! ## Endings of units (R135, R165, R440) -/

/-- The handles a unit owns. -/
def ownedHandles (k : Core) (uid : Nat) : List Nat := (k.tiles.filter (fun e => e.2.valid && e.2.ownerUid == uid)).map (·.1)

/-- The core with a list of handles freed. -/
def freeTiles (k : Core) : List Nat → Core
  | [] => k
  | h :: hs => freeTiles (freeTile k h) hs

/-- The core with what a unit holds given back: its handles, its token queues, its image set, the vector sequencer and its
sub-arrays with their streams (R94, R165, R177, R377). -/
def releaseUnit (k : Core) (uid : Nat) : Core :=
  let held := (span 0 8).filter (holds k uid)
  let k1 := freeTiles k (ownedHandles k uid)
  let k2 := { k1 with
    tokq := k1.tokq.map (fun e => if e.2.owner = some uid then (e.1, { owner := none, count := 0, rsv := 0 }) else e)
    images := k1.images.filter (fun i => i.uid != uid)
    vec := if k1.vec.owner = some uid then { Vec.reset with nextId := k1.vec.nextId, pipeA := k1.vec.pipeA, pipeB := k1.vec.pipeB } else k1.vec }
  let k3 := dissolveHeld k2 uid (span 0 8)
  { k3 with mats := k3.mats.map (fun e => if held.contains e.1 then (e.1, { Strm.reset with issueAt := e.2.issueAt }) else e) }

/-- The state with a unit gone from its slot; its window is free with it (R135, R143, R165). -/
def unitGone (s : State) (core slot : Nat) : State :=
  let k := getCore s core
  let t := unpark { s with preempts := s.preempts.filter (fun e => e.1 != 4 * core + slot) } core (ownedHandles k (unitOf k slot).uid)
  setCore t core (withUnit (releaseUnit (getCore t core) (unitOf k slot).uid) slot Unit.reset)

/-- A unit ended with a completion status, and its task with it (R320). -/
def endUnit (s : State) (core slot : Nat) (status : BitVec 8) : State :=
  let u := unitAt s core slot
  taskEnd (unitGone s core slot) u.task status false (some (core, u.uid))

/-- Whether the unit in a slot has scalar words under way: divisions or accesses. -/
def scalarBusy (k : Core) (uid : Nat) : Bool :=
  (match k.divider with
   | some d => d.uid == uid
   | none => false)
  || k.accs.any (fun a => a.uid == uid)

/-- Whether a stream of a unit is at rest for HALT (R135): IDLE, or in S mode FAULTED with nothing in flight. -/
def strmRests (k : Core) (u : Unit) (n : Nat) : Bool :=
  let m := strmOf k u.uid n
  m.mode == .idle || (u.mode == .s && m.mode == .faulted && !inFlight k n)

/-- The streams of a unit: the vector stream and those of its sub-arrays. -/
def unitStreams (k : Core) (uid : Nat) : List Nat :=
  (if vecOwner k = some uid then [8] else []) ++ (span 0 8).filter (holds k uid)

/-- Whether everything HALT waits for is over; the commands of a halted queue count as cut (R135, R282). -/
def haltReady (s : State) (core slot : Nat) : Bool :=
  let k := getCore s core
  let u := unitOf k slot
  !scalarBusy k u.uid && (unitStreams k u.uid).all (strmRests k u)
  && u.ports.all (fun e => e.2.queue.isEmpty || e.2.halted) && !s.cmds.any (fun r => r.cmd.uid == u.uid)
  && !s.rowsOut.any (fun e => e.2.srcUid == u.uid)

/-- The unit of a slot with every queue cut (R282, R440). -/
def cutAll (core slot : Nat) : List Nat → State → State
  | [], s => s
  | e :: es, s => cutAll core slot es (cutQueue s core slot e (fun _ => true))

/-- HALT and TSK.END with a completion status: what a halted queue still holds is cut as the unit ends (R135, R282, R321). -/
def haltBody (status : BitVec 8) (t : State) : Act :=
  if haltReady t t.focus.core t.focus.slot then
    .leave (endUnit (cutAll t.focus.core t.focus.slot (span 0 5) t) t.focus.core t.focus.slot status)
  else .wait

/-- The status HALT ends with (R135). -/
def haltStatus (u : Unit) : BitVec 8 :=
  match u.mode with
  | .u => 0
  | .s => u.ecause.setWidth 8

/-- HALT (R135). -/
def execHalt (s : State) : Host.Outcome State Fault Refusal := scalarWord .halt (haltBody (haltStatus (getUnit s))) s

/-- What TSK.END does when it issues or is tried again (R321). -/
def tskEndBody (ra : BitVec 5) (t : State) : Act :=
  let v := regRead t ra
  if v.toNat > 0x13 then .trap cOPERAND 0 else haltBody (v.setWidth 8) t

/-- TSK.END (R321). -/
def execTskEnd (ra : BitVec 5) (s : State) : Host.Outcome State Fault Refusal := scalarWord (.tskEnd ra) (tskEndBody ra) s

/-- The core with the rows a unit's remote MEPI words have not handed over abandoned (R440). -/
def abandonRows (k : Core) (uid : Nat) : Core :=
  { k with subs := k.subs.map (fun e => (e.1, { e.2 with flights := e.2.flights.map (fun f => match f.effect with
      | .epiRemote ha _ => if f.uid = uid then { f with effect := .epiRemote ha [] } else f
      | _ => f) })) }

/-- Steps 1 to 4 of R440 for the unit in a slot: streams stopped, rows abandoned, queues cut, collectives withdrawn. -/
def stopUnit (s : State) (core slot : Nat) : State :=
  let k := getCore s core
  let uid := (unitOf k slot).uid
  let s1 := setCore s core (abandonRows k uid)
  let s2 := stopStreams (focusOn s1 core slot 0) (unitStreams k uid)
  let s3 := setUnit s2 { getUnit s2 with group := 0 }
  let s4 := cutAll core slot (span 0 5) s3
  let s5 := withdrawColls s4 (s4.colls.filter (fun c => c.cmd.uid == uid && c.op ≤ 5))
  { s5 with focus := s.focus }

/-- Whether the words and hod commands of a unit that ends have ended (R440 step 5). -/
def unitQuiet (s : State) (core slot : Nat) : Bool :=
  let k := getCore s core
  let uid := (unitOf k slot).uid
  !scalarBusy k uid && (unitStreams k uid).all (fun n => !inFlight k n)
  && !s.cmds.any (fun r => r.cmd.uid == uid && r.cmd.eng == 0)

/-- UNIT_END (R440): a unit about to end otherwise than by HALT is stopped, and ends once it is quiet. -/
def execUnitEnd (core slot : Nat) (s : State) : Host.Outcome State Fault Refusal :=
  let u := unitAt s core slot
  match u.live, u.ending with
  | true, some cause =>
    let t := stopUnit s core slot
    .next (if unitQuiet t core slot then endUnit t core slot cause else t)
  | _, _ => .next s

/-! ## Cancelling (R320, R322, R384) -/

/-- A unit told to end with CANCELLED, whatever it was about to end with (R322). -/
def cancelUnit (s : State) (core slot : Nat) : State :=
  let u := unitAt s core slot
  setUnitAt s core slot { u with ending := some cCANCELLED, wait := none }

/-- The core with the handles of a unit that has left it freed (R166, R384). -/
def freeAway (k : Core) (uid : Nat) : Core := freeTiles k (ownedHandles k uid)

/-- The commands of a pre-empted unit that no hub engine has started: they stayed with the device (R372). -/
def awayQueued (a : Away) : List Cmd := a.unit.ports.flatMap (fun e => if e.1 = 0 then [] else e.2.queue)

/-- A pre-empted task ended (R384, R440): the hub commands it has not started are cut, its chain, held records and saved hod commands go,
and its handles are freed. -/
def endAway (s : State) (a : Away) (status : BitVec 8) : State :=
  let s0 := unpark s a.core (ownedHandles (getCore s a.core) a.unit.uid)
  let s1 := cutCmds (setCore s0 a.core (freeAway (getCore s0 a.core) a.unit.uid)) (awayQueued a)
  let s2 := withdrawColls { s1 with aways := s1.aways.filter (fun b => b.task != a.task) }
    (s1.colls.filter (fun c => c.cmd.uid == a.unit.uid && c.op ≤ 5))
  taskEnd s2 a.task status false (some (a.core, a.unit.uid))

/-- Whether the unit in a slot was dispatched in this clock (R327). -/
def dispatchedNow (s : State) (core slot : Nat) : Bool :=
  (unitAt s core slot).ready == [(32, s.clk + 64)] && s.sched.next == s.clk + 4

/-- The state with the dispatch of this clock undone, before which a HL.CANCEL of the clock goes: its task ends CANCELLED and the decision is
open again (R337). -/
def undoDispatch (s : State) (core slot : Nat) : State :=
  let b := s.sched.before
  endUnit { s with sched := { s.sched with turn := b.1, credit := b.2.1, next := b.2.2 } } core slot cCANCELLED

/-- An armed task cancelled in the state it is in (R322); `pass` passes the cancellation on to its successors (R320). -/
def cancelTask (s : State) (pass : Bool) (id : Nat) : State :=
  match taskOf s id with
  | none => s
  | some t =>
    let s1 := if pass then cancelSuccessors s t.part t.body else s
    match s1.aways.find? (fun a => a.task == id) with
    | some a => endAway s1 a cCANCELLED
    | none =>
      match unitOfTask s1 id with
      | some (core, slot) => if !pass && dispatchedNow s1 core slot then undoDispatch s1 core slot else cancelUnit s1 core slot
      | none => taskEnd s1 id cCANCELLED false none

/-- A list of tasks cancelled. -/
def cancelTasks (pass : Bool) : List Nat → State → State
  | [], s => s
  | i :: is, s => cancelTasks pass is (cancelTask s pass i)

/-! ## DEPCNT_DECREMENT (R317, R318, R320) -/

/-- Whether everything a decrement waits for is performed, and no earlier one of the task that releases it is on its way (R317). -/
def decrReady (s : State) (k : Nat) (d : Decr) : Bool :=
  !d.accs.any (outstanding (getCore s d.core))
  && (match d.uid with
      | some uid => !s.cmds.any (fun r => r.cmd.uid == uid) && !s.rowsOut.any (fun e => e.2.srcUid == uid)
      | none => true)
  && !(s.decrs.take k).any (fun e => e.pa == d.pa || (e.src.isSome && e.src == d.src))

/-- A decrement of an armed TCB or of one in memory (R318). -/
def decrement (s : State) (d : Decr) : State :=
  match armedAt s d.pa with
  | some (id, t) =>
    if t.depcnt = 0 then putTask s id { t with status := cOPERAND, dupdec := true }
    else
      let n := t.depcnt - 1
      let s1 := writeBytes s (t.pa + 36) (leBytes 2 n)
      if n = 0 && t.state = .wait then putTask s1 id { t with depcnt := n, state := .ready, readyAt := s.tb.tns }
      else putTask s1 id { t with depcnt := n }
  | none =>
    let n := memNat s.mem (d.pa + 36) 2
    if n = 0 then writeBytes (writeBytes s (d.pa + 121) [cOPERAND]) (d.pa + 123) [memByte s.mem (d.pa + 123) ||| 1]
    else writeBytes s (d.pa + 36) (leBytes 2 (n - 1))

/-- A successor cancelled (R320): an armed one as its state asks, another by its STATUS and STATE, and its own successors after
it. -/
def cancelSuccessor (s : State) (d : Decr) : State :=
  match armedAt s d.pa with
  | some (id, _) => cancelTask s true id
  | none => cancelSuccessors (writeBytes s (d.pa + 120) [stateCode .cancelled, cCANCELLED]) d.part (memBytes s.mem d.pa 120)

/-- DEPCNT_DECREMENT (R318, R320): the scheduler receives a decrement, or the cancellation of a successor. -/
def execDepcntDecrement (k : Nat) (s : State) : Host.Outcome State Fault Refusal :=
  match nth s.decrs k with
  | none => .next s
  | some d =>
    if decrReady s k d && ((armedAt s d.pa).isSome || !migratingAt s d.leaf d.pa) then
      let t := { s with decrs := dropAt s.decrs k }
      .next (if d.cancel then cancelSuccessor t d else decrement t d)
    else .next s

/-! ## TSK.ARM (R316) -/

/-- Whether a partition's share of the armed tasks has room (R316). -/
def armRoom (s : State) (p : Nat) : Bool :=
  (s.tasks.filter (fun e => e.2.part == p)).length < (partOf s p).armmax && s.tasks.length < 16384

/-- A TCB armed (R316, R322): a task under a cancelled node ends CANCELLED, one whose bond can never be supplied with OPERAND. -/
def armTask (s : State) (p va pa : Nat) (leaf : Word) (page : Nat × Nat) (x : List Byte) : State :=
  let id := s.taskSeq + 1
  let t : Task := {
    part := p, va := va, pa := pa, leaf := leaf, body := x.take 120, depcnt := fieldNat x 36 2
    state := if fieldNat x 36 2 = 0 then .ready else .wait
    status := 0, retries := 0, dupdec := false, aseq := s.armCtr.toNat, readyAt := s.tb.tns, headAt := none, blocking := false
    vpage := page.1, span := page.2, waited := 0 }
  let s1 := nodesLive { s with taskSeq := id, armCtr := s.armCtr + 1 } (tcbNodes x)
  let s2 := putTask s1 id t
  if (tcbNodes x).any (fun n => (nodeOf s1 n).cxl) then taskEnd s2 id cCANCELLED true none
  else if neverSupplied (tcbBond x) then taskEnd s2 id cOPERAND true none
  else s2

/-- What TSK.ARM does when it issues or is tried again (R316); its read takes two request slots together (R244). A TCB that
the scheduler holds armed raises OPERAND by that copy, whatever has been written over its STATE since, which R316 leaves open (the model's choice,
log 62). -/
def tskArmBody (ra : BitVec 5) (t : State) : Act :=
  let a := regRead t ra
  let u := getUnit t
  let pt := partOf t u.part
  if a.toNat % 128 ≠ 0 then .trap cALIGN a
  else if walkHeld t a then .hold
  else
    match translate t a .write with
    | (.fail c, _) => .trap c a
    | (.ok pa leaf, t1) =>
      if fenceHolds (curCore t1) u 0 || readBlocked (curCore t1) u 0 pa 128 || migratingAt t1 leaf pa || !homeOk t1 pa then .hold
      else if !linesFor (curCore t1) t1.focus.slot 2 then .lack (reqScalar t1.focus.slot)
      else if poisoned t1 pa 128 then .trap cUNCORR a
      else
        let x := recordBytes t1 pa 128
        if tcbBad pt x || (armedAt t1 pa).isSome then .trap cOPERAND 0
        else if tcbPrio x = 7 && u.mode = .u then .trap cPRIV 0
        else if tcbForeign pt x then .trap cWINDOW a
        else if armRoom t1 u.part then .done (armTask (useLines t1 2 (homePkg pa)) u.part a.toNat pa leaf (pageSpan t1 a.toNat) x)
        else .wait

/-- TSK.ARM (R316). -/
def execTskArm (ra : BitVec 5) (s : State) : Host.Outcome State Fault Refusal := scalarWord (.tskArm ra) (tskArmBody ra) s

/-! ## TSK.SIG and TSK.RETRY (R319, R321) -/

/-- The state with a unit's event latch set, if the task of the TCB runs (R319); a pre-empted unit keeps it for its return. -/
def wakeTask (s : State) (pa : Nat) : State :=
  match armedAt s pa with
  | none => s
  | some (id, t) =>
    if t.state ≠ .run then s
    else
      let s1 := { s with aways := s.aways.map (fun a => if a.task = id then { a with unit := latched a.unit } else a) }
      match unitOfTask s1 id with
      | some (core, slot) => setEvl s1 core slot
      | none => s1

/-- What TSK.SIG does when it issues: ra selects the operation (R319). -/
def tskSigBody (ra : BitVec 5) (t : State) : Act :=
  let a := regRead t ra
  let u := getUnit t
  let va := a.toNat / 4 * 4
  if a.toNat % 4 > 1 || wbits a 2 5 ≠ 0 then .trap cOPERAND 0
  else if walkHeld t (BitVec.ofNat 64 va) then .hold
  else
    match translate t (BitVec.ofNat 64 va) .write with
    | (.fail c, _) => .trap c (BitVec.ofNat 64 va)
    | (.ok pa leaf, t1) =>
      if fenceHolds (curCore t1) u 0 then .hold
      else if a.toNat % 4 = 0 then
        let accs := ((curCore t1).accs.filter (fun x => x.uid == u.uid)).map (·.id)
        .done (emitDecrs t1 u.part false t1.focus.core accs none none [(va, pa, leaf, pageSpan t1 va)])
      else .done (wakeTask t1 pa)

/-- TSK.SIG, DEC (R319); ra selects the operation (log 24). -/
def execTskSigDec (ra : BitVec 5) (s : State) : Host.Outcome State Fault Refusal := scalarWord (.tskSigDec ra) (tskSigBody ra) s
/-- TSK.SIG, WAKE (R319); ra selects the operation (log 24). -/
def execTskSigWake (ra : BitVec 5) (s : State) : Host.Outcome State Fault Refusal := scalarWord (.tskSigWake ra) (tskSigBody ra) s

/-- TSK.RETRY (R321). -/
def execTskRetry (ra : BitVec 5) (s : State) : Host.Outcome State Fault Refusal :=
  scalarWord (.tskRetry ra) (fun t =>
    let a := regRead t ra
    if a.toNat % 128 ≠ 0 then .trap cALIGN a
    else if walkHeld t a then .hold
    else
      match translate t a .write with
      | (.fail c, _) => .trap c a
      | (.ok pa _, t1) =>
        match armedAt t1 pa with
        | some (id, k) =>
          if k.state = .held then .done (putTask t1 id { k with state := .ready, readyAt := t1.tb.tns }) else .trap cOPERAND 0
        | none => .trap cOPERAND 0) s

/-! ## HL.CANCEL and HL.READ (R322, R323) -/

/-- Nodes of a level (R312). -/
def levelCount : Nat → Nat
  | 1 => 1024 | 2 => 256 | 3 => 64 | 4 => 16 | _ => 0

/-- The node a selector names, or the cause it traps with (R322). -/
def nodeSel (s : State) (a : Word) : (Nat × Nat) ⊕ BitVec 8 :=
  let n := (wbits a 0 4, wbits a 8 12)
  if above a 20 || wbits a 4 4 ≠ 0 || n.2 ≥ levelCount n.1 then .inr cOPERAND
  else if ownsNode (partOf s (getUnit s).part) n then .inl n
  else .inr cWINDOW

/-- The armed tasks under a node (R312). -/
def tasksUnder (s : State) (n : Nat × Nat) : List Nat := (s.tasks.filter (fun e => (tcbNodes e.2.body).contains n)).map (·.1)

/-- A node cancelled with every task under it (R322). -/
def cancelNode (s : State) (n : Nat × Nat) : State :=
  cancelTasks false (tasksUnder s n) (withNode s n { nodeOf s n with cxl := true })

/-- What HL.CANCEL does: rb selects CANCEL or RESET (R322). -/
def hlCancelBody (ra rb : BitVec 5) (t : State) : Act :=
  let b := regRead t rb
  match nodeSel t (regRead t ra) with
  | .inr c => if above b 1 then .trap cOPERAND 0 else .trap c 0
  | .inl n =>
    if above b 1 then .trap cOPERAND 0
    else if b = 0 then .done (cancelNode t n)
    else if (nodeOf t n).live ≠ 0 then .trap cOPERAND 0
    else .done (withNode t n { nodeOf t n with done := 0, fail := 0, cxl := false })

/-- HL.CANCEL, CANCEL (R322); rb selects the operation (log 24). -/
def execHlCancel (ra rb : BitVec 5) (s : State) : Host.Outcome State Fault Refusal := scalarWord (.hlCancel ra rb) (hlCancelBody ra rb) s
/-- HL.CANCEL, RESET (R322); rb selects the operation (log 24). -/
def execHlCancelReset (ra rb : BitVec 5) (s : State) : Host.Outcome State Fault Refusal :=
  scalarWord (.hlCancelReset ra rb) (hlCancelBody ra rb) s

/-- A field of a node (R323). -/
def nodeField (x : Node) : Nat → Word
  | 0 => x.done.setWidth 64
  | 1 => x.fail.setWidth 64
  | 2 => x.live.setWidth 64
  | _ => if x.cxl then 1 else 0

/-- HL.READ (R323). -/
def execHlRead (rd ra rb : BitVec 5) (s : State) : Host.Outcome State Fault Refusal :=
  scalarWord (.hlRead rd ra rb) (fun t =>
    let b := regRead t rb
    match nodeSel t (regRead t ra) with
    | .inr c => if above b 2 then .trap cOPERAND 0 else .trap c 0
    | .inl n => if above b 2 then .trap cOPERAND 0 else .done (regWriteAfter t rd (nodeField (nodeOf t n) b.toNat) 1)) s

end Sys2Proof.Machine
end

