-- ==== Sys2Proof/Machine/Context.lean ====
section
/-! DEFINITION. Context images: what stops a unit for a pre-emption, the writing of an image and the return from a chain
(R112, R143, R166, R182, R372 to R380). The image's place and the parts that stay with the device are log 17. -/
namespace Sys2Proof.Machine

/-! ## Packing bytes -/

/-- `n` zero bytes. -/
def zeros (n : Nat) : List Byte := List.replicate n 0

/-- A list of bytes cut or filled with zeros to `n`. -/
def fillTo (n : Nat) (bs : List Byte) : List Byte := bs.take n ++ zeros (n - bs.length)

/-- A list of pairs with one placed by its key, after those of the same key. -/
def placeKey {α : Type} (x : Nat × α) : List (Nat × α) → List (Nat × α)
  | [] => [x]
  | y :: ys => if y.1 ≤ x.1 then y :: placeKey x ys else x :: y :: ys

/-- A list in ascending order of its keys. -/
def byKey {α : Type} (xs : List (Nat × α)) : List (Nat × α) := xs.foldl (fun acc x => placeKey x acc) []

/-- CRC-64 of one byte, most significant bit first (R358, R375; log 17). -/
def crcBits : Nat → BitVec 64 → BitVec 64
  | 0, c => c
  | n + 1, c => crcBits n (if c.getLsbD 63 then (c <<< 1) ^^^ 0x42F0E1EBA9EA3693#64 else c <<< 1)

/-- CRC-64 of a list of bytes from a start of zero. -/
def crc64 (bs : List Byte) : BitVec 64 := bs.foldl (fun (c : BitVec 64) (b : Byte) => crcBits 8 (c ^^^ (b.setWidth 64 <<< 56))) 0

/-! ## The sections of an image (R376) -/

/-- Bytes of an entry of a section. -/
def entryBytes : Nat → Nat
  | 1 => 512 | 2 => 64 | 3 => 144 | 4 => 64 | 5 => 64 | 6 => 32 | 7 => 8 | 8 => 32 | 9 => 2112 | 10 => 2240
  | 11 => 128 | 12 => 4160 | 13 => 1024 | 14 => 6720 | 15 => 32 | 16 => 32 | _ => 0

/-- The special registers in number order (R117). -/
def srNumbers : List Nat := [0, 1, 2, 3, 0x10, 0x11, 0x12, 0x13, 0x14, 0x15]

/-- SCALAR. -/
def secScalar (u : Unit) : List (List Byte) :=
  [fillTo 512 (leBytes 8 0 ++ (u.regs.toList.drop 1).flatMap (fun r => leBytes 8 r.toNat) ++ leBytes 8 u.pc.toNat
    ++ srNumbers.flatMap (fun n => leBytes 8 (srValue u n).toNat)
    ++ leBytes 2 (u.pending.foldl (fun a p => a ||| 2 ^ p.stream) 0))]

/-- MODSTATE as bits in ascending order: LEN, II, Tcur, t, EXK, EXS, the counter that takes Tcur, and whether the slot has begun
(log 17). -/
def modBits (m : Option ModState) : Nat :=
  match m with
  | none => 0
  | some x => x.len + x.ii * 2 ^ 7 + x.tcur * 2 ^ 14 + x.t * 2 ^ 31 + x.exk.toNat * 2 ^ 55 + (if x.exs then 2 ^ 59 else 0)
      + (match x.ctr with
         | some c => (4 + c.toNat) * 2 ^ 60
         | none => 0) + (if x.begun then 2 ^ 63 else 0)

/-- STREAMS: the stream of a sub-array the unit does not hold is at reset. -/
def secStreams (k : Core) (u : Unit) : List (List Byte) :=
  (span 0 9).map (fun n =>
    let m := if n = 8 || holds k u.uid n then strmOf k u.uid n else Strm.reset
    let own := n = 8 && vecOwner k = some u.uid
    fillTo 64 ([BitVec.ofNat 8 (modeCode m.mode),
        BitVec.ofNat 8 ((if u.group.getLsbD n && launched k u then 1 else 0) + (if u.mode = .s && m.mode != .idle then 2 else 0))]
      ++ leBytes 2 m.pc.toNat ++ leBytes 2 m.lc0.toNat ++ leBytes 2 m.lc1.toNat ++ leBytes 2 m.lc2.toNat ++ leBytes 2 m.lc3.toNat
      ++ [BitVec.ofNat 8 m.repn.toNat, BitVec.ofNat 8 m.repcnt.toNat, BitVec.ofNat 8 m.rotb.toNat, m.cause]
      ++ leBytes 20 (modBits m.mod) ++ leBytes 5 m.stampoff.toNat
      ++ [BitVec.ofNat 8 (if own then k.vec.rows - 1 else 0), BitVec.ofNat 8 (if own then k.vec.lanes - 1 else 0), 0]
      ++ leBytes 2 u.group.toNat))

/-- The number of a row in PENDW: a window index, or a row of the operand file or the latch as it is numbered. -/
def pendRow (u : Unit) (key : Nat) : Nat := if key < 2048 then key - u.vbase else key

/-- PENDW. -/
def secPendw (k : Core) (u : Unit) : List (List Byte) :=
  if vecOwner k = some u.uid then
    (byKey (k.vec.shadow.map (fun w => (pendRow u w.row, w)))).map (fun w =>
      leBytes 2 w.1 ++ leBytes 2 w.2.off ++ leBytes 4 w.2.lanes.toNat ++ zeros 8 ++ leBytes 128 w.2.value.toNat)
  else []

/-- PORTS. -/
def secPorts (u : Unit) : List (List Byte) :=
  (span 0 5).map (fun e =>
    let p := portOf u e
    fillTo 64 (leBytes 8 p.cw0.toNat ++ leBytes 8 p.cw1.toNat ++ leBytes 8 p.cw2.toNat ++ leBytes 8 p.cw3.toNat
      ++ [BitVec.ofNat 8 p.written.toNat, if p.halted then 1 else 0] ++ leBytes 2 (if e = 0 then p.queue.length else 0)))

/-- HODQ. -/
def secHodq (u : Unit) : List (List Byte) :=
  (portOf u 0).queue.map (fun c =>
    fillTo 64 (leBytes 8 c.quad.cw0.toNat ++ leBytes 8 c.quad.cw1.toNat ++ leBytes 8 c.quad.cw2.toNat ++ leBytes 8 c.quad.cw3.toNat
      ++ leBytes 3 c.seq.toNat ++ [BitVec.ofNat 8 (qKind 0 c.quad)]))

/-- EVQ. -/
def secEvq (u : Unit) : List (List Byte) := u.evq.map recBytes

/-- The token queues a unit owns. -/
def ownedToks (k : Core) (uid : Nat) : List Nat := (span 0 16).filter (fun q => (tokOf k q).owner == some uid)

/-- TOKQ. -/
def secTokq (k : Core) (uid : Nat) : List (List Byte) :=
  (ownedToks k uid).map (fun q => fillTo 8 [BitVec.ofNat 8 q, 0, BitVec.ofNat 8 (tokOf k q).count])

/-- PLACE of a tile (R150, R151). -/
def placeBits (t : Tile) : Nat :=
  if t.acc then t.p0 * 2 ^ 24 + (t.p1 - 1) * 2 ^ 18 + t.p2 * 2 ^ 14 + (t.p3 - 1) * 2 ^ 10
  else t.p0 * 2 ^ 23 + Nat.log2 t.p1 * 2 ^ 20 + t.p2 * 2 ^ 12 + (t.p3 - 1) * 2 ^ 4

/-- A tile-table entry as its 128 bits (R147). -/
def tileEntry (t : Tile) (clk : Nat) : Nat :=
  (if t.valid then 2 ^ 127 else 0) + (if t.share then 2 ^ 126 else 0) + (if t.acc then 2 ^ 125 else 0)
  + (if isFull t clk then 2 ^ 124 else 0) + t.fmt.toNat * 2 ^ 120 + t.pl.toNat * 2 ^ 116 + t.owner.toNat * 2 ^ 114
  + t.sub.toNat * 2 ^ 110 + t.gen.toNat * 2 ^ 102 + t.rowsm1.toNat * 2 ^ 90 + t.colsm1.toNat * 2 ^ 78
  + t.arrival.toNat * 2 ^ 54 + t.target.toNat * 2 ^ 30 + placeBits t

/-- The tiles a unit owns, by handle. -/
def ownedTiles (k : Core) (uid : Nat) : List (Nat × Tile) := (ownedHandles k uid).map (fun h => (h, tileOf k h))

/-- HANDLES. -/
def secHandles (k : Core) (uid clk : Nat) : List (List Byte) :=
  (ownedTiles k uid).map (fun e => fillTo 32 (leBytes 16 (tileEntry e.2 clk) ++ leBytes 2 e.1))

/-- Whether a granule goes into an image: any into a full one, a dirty one into a delta (R378). -/
def granuleIn (k : Core) (full : Bool) (g : Nat × Nat) : Bool := full || k.dirty.contains g

/-- VROWS. -/
def secVrows (k : Core) (u : Unit) (full : Bool) : List (List Byte) :=
  ((span 0 (u.vlen / 16)).filter (fun g => granuleIn k full (9, u.vbase / 16 + g))).map (fun g =>
    leBytes 2 g ++ zeros 62 ++ (span (u.vbase + 16 * g) 16).flatMap (fun r => leBytes 128 (vrow k r).toNat))

/-- OPF. -/
def secOpf (k : Core) (uid : Nat) : List (List Byte) :=
  if vecOwner k = some uid then [zeros 64 ++ (span 2048 17).flatMap (fun r => leBytes 128 (vrow k r).toNat)] else []

/-- TLINES. -/
def secTlines (k : Core) (uid : Nat) (full : Bool) : List (List Byte) :=
  (ownedTiles k uid).flatMap (fun e =>
    if e.2.acc then []
    else ((span 0 (tileLines e.2)).filter (fun l => granuleIn k full (11, tileKey e.2 (16 * l) / 16))).map (fun l =>
      leBytes 2 e.1 ++ zeros 2 ++ leBytes 4 l ++ zeros 56 ++ (span (16 * l) 16).flatMap (fun w => leBytes 4 (tileWord k e.2 w).toNat)))

/-- ACCG. -/
def secAccg (k : Core) (uid : Nat) (full : Bool) : List (List Byte) :=
  (ownedTiles k uid).flatMap (fun e =>
    match e.2.acc, subOf k e.2.sub.toNat with
    | true, some b =>
      ((span 0 e.2.p1).flatMap (fun r => (span 0 e.2.p3).map (fun c => (r, c)))).filterMap (fun x =>
        if granuleIn k full (12, e.2.sub.toNat * 65536 + 16 * (e.2.p0 + x.1) + (e.2.p2 + x.2)) then
          some (leBytes 2 e.1 ++ leBytes 1 x.1 ++ leBytes 1 x.2 ++ zeros 60
            ++ (span 0 1024).flatMap (fun i => leBytes 4 (accElem b (poolKey e.2 (32 * x.1 + i / 32) (32 * x.2 + i % 32))).toNat))
        else none)
    | _, _ => [])

/-- SHAPE of R180 for a kind of sub-array. -/
def shapeCode : SubKind → Nat
  | .loc => 1 | .tall => 2 | .wide => 3 | .square => 4

/-- A brick's tag as 3 bytes (R183). -/
def tagBytes (t : Tag) : List Byte := leBytes 3 ((if t.valid then 2 ^ 20 else 0) + t.handle.toNat * 256 + t.gen.toNat)

/-- The brick at place `i` of a sub-array, row major (R376). -/
def brickAt (b : Sub) (i : Nat) : Nat := brickKey (i / b.w) (i % b.w)

/-- The tags of a physical set: those of the ACTIVE set are ATAG (R183). -/
def physTags (b : Sub) (z : Bool) : List (Nat × Tag) := if z == b.actsel then b.atag else b.stag

/-- The blocks of a sub-array's pool, row block major (R376; log 17). -/
def invBit (b : Sub) (i : Nat) : Nat := i / b.w * 16 + i % b.w

/-- SUBA. -/
def secSuba (k : Core) (uid : Nat) : List (List Byte) :=
  ((span 0 8).filter (holds k uid)).filterMap (fun n => (subOf k n).map (fun b =>
    let tags := fun z => (span 0 128).flatMap (fun i => if i < b.h * b.w then tagBytes (mapGet noTag (physTags b z) (brickAt b i)) else zeros 3)
    fillTo 1024 ([BitVec.ofNat 8 n, BitVec.ofNat 8 (shapeCode b.kind), BitVec.ofNat 8 ((b.h - 1) * 16 + (b.w - 1)),
        BitVec.ofNat 8 (b.afmt.toNat + 16 * b.sfmt.toNat)] ++ leBytes 4 b.mcnt.toNat ++ leBytes 2 b.erow.toNat
      ++ [if b.actsel then 1 else 0] ++ zeros 5
      ++ leBytes 128 ((span 0 (8 * b.h * b.w)).foldl (fun a i => if b.inv.contains (invBit b i) then a + 2 ^ i else a) 0)
      ++ tags false ++ tags true)))

/-- The bytes of one brick's weights: 36 planes, then heads (R149, R376). -/
def brickBytes (set : List (Nat × BitVec 52)) (r c : Nat) : List Byte :=
  let cell := fun k n => (mapGet 0 set (cellKey (32 * r + k) (32 * c + n))).toNat
  (span 0 36).flatMap (fun q => (span 0 128).map (fun y =>
    BitVec.ofNat 8 ((span 0 8).foldl (fun a i => a + cell (y / 4) (8 * (y % 4) + i) / 2 ^ (3 * (11 - q / 3) + q % 3) % 2 * 2 ^ i) 0)))
  ++ (span 0 1024).flatMap (fun i => leBytes 2 (cell (i / 32) (i % 32) / 2 ^ 36))

/-- WSET. -/
def secWset (k : Core) (uid : Nat) (full : Bool) : List (List Byte) :=
  ((span 0 8).filter (holds k uid)).flatMap (fun n =>
    match subOf k n with
    | none => []
    | some b => (span 0 2).flatMap (fun z => (span 0 (b.h * b.w)).filterMap (fun i =>
        if granuleIn k full (14, (2 * n + z) * 128 + brickAt b i) then
          some (leBytes 1 n ++ leBytes 1 z ++ leBytes 1 i ++ zeros 61
            ++ brickBytes (if z = 0 then b.set0 else b.set1) (i / b.w) (i % b.w))
        else none)))

/-- The image set of a unit (R377). -/
def imageSetOf (k : Core) (uid : Nat) : ImageSet :=
  (k.images.find? (fun i => i.uid == uid)).getD { uid := uid, vwords := [], mwords := [], shapes := [] }

/-- A list of numbers in ascending order. -/
def ascending (xs : List Nat) : List Nat := (byKey (xs.map (fun x => (x, x)))).map (·.1)

/-- IMW. -/
def secImw (k : Core) (i : ImageSet) : List (List Byte) :=
  (ascending i.vwords).map (fun w => fillTo 32 (zeros 2 ++ leBytes 2 w ++ zeros 4 ++ leBytes 12 (mapGet 0 k.imemV w).toNat))
  ++ (ascending i.mwords).map (fun w => fillTo 32 ([1, 0] ++ leBytes 2 w ++ zeros 4 ++ leBytes 24 (mapGet 0 k.imemM w).toNat))

/-- The 16 bytes of a shape record (R163). -/
def shapeBytes (sh : Shape) : List Byte :=
  leBytes 2 sh.rowoff ++ leBytes 2 sh.coloff ++ leBytes 2 (BitVec.ofInt 16 sh.rowstr).toNat
  ++ leBytes 2 (BitVec.ofInt 16 sh.colstr).toNat ++ leBytes 2 sh.rows ++ leBytes 2 sh.cols ++ [if sh.trans then 1 else 0, 0, 0, 0]

/-- SHREC. -/
def secShrec (k : Core) (i : ImageSet) : List (List Byte) :=
  (ascending i.shapes).map (fun n => [BitVec.ofNat 8 n] ++ zeros 15 ++ shapeBytes (shapeOf k n))

/-- The sections of an image: 1 to 8, 13, 15 and 16 always, the others when they hold an entry (R376). -/
def sectionsOf (k : Core) (u : Unit) (clk : Nat) (full : Bool) : List (Nat × List (List Byte)) :=
  let i := imageSetOf k u.uid
  let all := [(1, secScalar u), (2, secStreams k u), (3, secPendw k u), (4, secPorts u), (5, secHodq u), (6, secEvq u),
    (7, secTokq k u.uid), (8, secHandles k u.uid clk), (9, secVrows k u full), (10, secOpf k u.uid), (11, secTlines k u.uid full),
    (12, secAccg k u.uid full), (13, secSuba k u.uid), (14, secWset k u.uid full), (15, secImw k i), (16, secShrec k i)]
  all.filter (fun s => !([9, 10, 11, 12, 14].contains s.1) || !s.2.isEmpty)

/-! ## The bytes of an image (R375) -/

/-- `n` rounded up to 64. -/
def up64 (n : Nat) : Nat := 64 * ceilDiv n 64

/-- The directory and the sections laid out from an offset. -/
def layOut : Nat → List (Nat × List (List Byte)) → List Byte × List Byte
  | _, [] => ([], [])
  | off, (t, es) :: more =>
    let body := es.flatMap id
    let rest := layOut (off + up64 body.length) more
    (leBytes 2 t ++ zeros 2 ++ leBytes 4 es.length ++ leBytes 8 off ++ rest.1, fillTo (up64 body.length) body ++ rest.2)

/-- The image of a list of sections: header, directory and sections, with its digest. -/
def imageOf (depth aseq tns prev : Nat) (secs : List (Nat × List (List Byte))) : List Byte :=
  let start := up64 (64 + 16 * secs.length)
  let lo := layOut start secs
  let body := fillTo (start - 64) lo.1 ++ lo.2
  let head := leBytes 2 1 ++ [if depth = 0 then 0 else 1, BitVec.ofNat 8 depth] ++ leBytes 4 aseq ++ leBytes 8 tns ++ leBytes 8 prev
    ++ leBytes 8 (64 + body.length) ++ leBytes 2 secs.length ++ zeros 6
  let digest := crc64 (head ++ zeros 24 ++ body)
  head ++ leBytes 8 digest.toNat ++ zeros 16 ++ body

/-- The state with a byte of a wider write: the pieces of one are performed on their own, later ones while the schedule keeps them back,
and none before an earlier one of its bytes (R259, R263). -/
def putPiece (s : State) (pa : Nat) (b : Byte) : State :=
  if s.slow || s.heldw.any (fun w => w.pa == pa && w.trace.isNone) then
    { s with heldw := s.heldw ++ [{ pa := pa, bytes := [b], trace := none }] }
  else writeBytes s pa [b]

/-- The state with bytes written behind pins, one by one. -/
def putVia (pins : List Pin) : List Byte → Nat → State → State
  | [], _, s => s
  | b :: bs, va, s =>
    putVia pins bs (va + 1) (match pinPa pins va with
      | some (pa, _) => putPiece s pa b
      | none => s)

/-- The state with the aligned piece at an address performed that had still to be written (R263). -/
def performPiece (s : State) (pa : Nat) : State :=
  let mine := fun (w : Held) => w.pa / 4 == pa / 4 && w.trace.isNone && !onMigrating s w.pa
  (s.heldw.filter mine).foldl (fun t w => writeBytes t w.pa w.bytes) { s with heldw := s.heldw.filter (fun w => !mine w) }

/-! ## When a unit has stopped (R372, R373) -/

/-- Whether the matrix words of a sub-array have retired, but for a remote MEPI stopped between rows (R199, R372). -/
def subStopped (b : Sub) : Bool :=
  b.flights.all (fun f => match f.effect with
    | .epiRemote _ (_ :: _) => f.unacked == 0
    | _ => false)

/-- Whether the vector words of a unit have landed, or its group's latency shadow has been taken. -/
def vecStopped (s : State) (core : Nat) (k : Core) (uid : Nat) : Bool :=
  vecOwner k != some uid || (k.vec.flights.isEmpty && s.deps.all (fun d => match d.src with
    | .vec c _ => c != core
    | _ => true))

/-- Whether the group of a slot is bound and has not stopped (R373). -/
def groupRuns (s : State) (core slot : Nat) : Bool :=
  let k := getCore s core
  let u := unitOf k slot
  launched k u && (strmOf k u.uid 8).mode = .bound && u.mode = .u && u.away.isNone

/-- Whether a sub-array has deposits that have not been counted. -/
def hasMat (s : State) (core n : Nat) : Bool := s.deps.any (fun d => match d.src with
  | .mat c m _ => c == core && m == n
  | _ => false)

/-- Whether everything R372 waits for is over. -/
def unitStopped (s : State) (core slot : Nat) : Bool :=
  let k := getCore s core
  let u := unitOf k slot
  !scalarBusy k u.uid && u.compare.isNone && !u.stepped && vecStopped s core k u.uid
  && (span 0 8).all (fun n => !holds k u.uid n || (match subOf k n with
      | some b => subStopped b && !hasMat s core n && !subReplays k s.clk n
      | none => true))
  && !s.cmds.any (fun r => r.cmd.uid == u.uid && r.cmd.eng == 0)
  && (ownedTiles k u.uid).all (fun e => e.2.clearing.isNone)
  && !groupRuns s core slot

/-- The next thing the vector unit of a core does: the write of a latency shadow, the landing of a row or the check of a source row,
whichever comes first; in one clock they come in that order (R63, R91, R373). -/
inductive VecEvent where
  | shadow (w : PendWrite)
  | landing (f : VFlight)
  | check (f : VFlight)

/-- The clock of a vector event; writes of a shadow count from the clock `base` of the first course after the return. -/
def VecEvent.clock (base : Nat) : VecEvent → Nat
  | .shadow w => base + w.off
  | .landing f => f.issue + landOff f.op f.rows f.next
  | .check f => f.issue + f.checked

/-- The earlier of two vector events. -/
def earlierEvent (base : Nat) (a : Option VecEvent) (b : VecEvent) : Option VecEvent :=
  match a with
  | none => some b
  | some x => if b.clock base < x.clock base then some b else some x

/-- The next vector event of a core, however far ahead. -/
def nextEvent (k : Core) : Option VecEvent :=
  let base := k.vec.base.getD 0
  let ws := if k.vec.base.isSome then k.vec.shadow.map VecEvent.shadow else []
  let checks := k.vec.flights.filter (fun f => readsT2 f && f.checked < f.last)
  (ws ++ (nextLanding k (k.vec.flights.foldl (fun m f => max m (f.issue + 4096)) 0)).toList.map VecEvent.landing ++ checks.map VecEvent.check).foldl
    (earlierEvent base) none

/-- The lanes a word writes in its destination row (R204, R217, R223). -/
def writtenLanes (f : VFlight) : BitVec 32 :=
  let n := fmtBits f.typ
  let lanes := match f.op with
    | .cvt => ceilDiv (32 * f.lanes / max n (fmtBits (f.src.getD .f32)) * n) 32
    | .trn => min f.lanes (ceilDiv (f.rows * n) 32)
    | _ => f.lanes
  BitVec.ofNat 32 (2 ^ lanes - 1)

/-- The state after a vector event, with the row it writes and the lanes if it writes one. -/
def runEvent (s : State) (core : Nat) : VecEvent → State × Option (Nat × BitVec 32)
  | .shadow w => (setCore s core (landShadowed (getCore s core) w), some (w.row, w.lanes))
  | .landing f => (landOne s core f, if vopWrites f.op then (rowKey f.dst f.next).map (fun key => (key, writtenLanes f)) else none)
  | .check f => (checkRow s core f, none)

/-- Everything the vector unit of a core has under way run ahead, each value formed as it will be; the row writes behind a boundary at
`b` are collected, with the value the row held (R373). -/
def landShadow (core b : Nat) : Nat → State → List PendWrite → List (Nat × Row) → State × List PendWrite × List (Nat × Row)
  | 0, s, out, olds => (s, out, olds)
  | n + 1, s, out, olds =>
    let k := getCore s core
    match nextEvent k with
    | none => (s, out, olds)
    | some e =>
      let clk := e.clock (k.vec.base.getD 0)
      match runEvent s core e with
      | (t, some (key, lanes)) =>
        if b < clk then
          landShadow core b n t (out ++ [{ row := key, off := clk - b, lanes := lanes, value := vrow (getCore t core) key }])
            (if olds.any (fun e => e.1 == key) then olds else olds ++ [(key, vrow k key)])
        else landShadow core b n t out olds
      | (t, none) => landShadow core b n t out olds

/-- The core with rows given back their old values. -/
def restoreRows : List (Nat × Row) → Core → Core
  | [], k => k
  | (key, v) :: more, k => restoreRows more { k with vrows := if v = 0 then mapErase k.vrows key else mapSet k.vrows key v }

/-- The latency shadow of a stopped bound group taken: the words in flight finish, and their writes after the boundary are held
back (R373). -/
def takeShadow (s : State) (core : Nat) : State :=
  let k0 := getCore s core
  let n := k0.vec.flights.foldl (fun a f => a + 2 * f.last) 0 + k0.vec.shadow.length
  let r := landShadow core s.clk n s [] []
  let k := restoreRows r.2.2 (getCore r.1 core)
  finishVector (setCore r.1 core { k with vec := { k.vec with shadow := k.vec.shadow ++ r.2.1, base := none }, rowLog := [] }) core

/-- Whether the group of a slot has reached the boundary it stops at: the next course would issue in this clock (R373). -/
def atBoundary (s : State) (core slot : Nat) : Bool :=
  let k := getCore s core
  let u := unitOf k slot
  launched k u && (strmOf k u.uid 8).mode = .bound && u.mode = .u && u.away.isNone && courseStops s core slot
  && (maskStreams u.group).all (fun n => (strmOf k u.uid n).issueAt ≤ s.clk)

/-- The group of a slot stopped: its latency shadow is taken, and the clock is noted from which STAMPOFF counts (R109, R373). -/
def stopGroup (s : State) (core slot : Nat) : State :=
  let t := takeShadow s core
  setUnitAt t core slot { unitAt t core slot with away := some s.clk }

/-! ## Saving (R372, R375 to R379, R384) -/

/-- The chain of a task's images, oldest first (R375). -/
def chainOf (s : State) (task : Nat) : List Image := mapGet [] s.chains task

/-- The lowest place of a context area, aligned to 64, that no image of the partition's tasks meets (log 17). -/
def imagePlace (s : State) (p len : Nat) : Option Nat :=
  let pt := partOf s p
  let used := ((s.tasks.filter (fun e => e.2.part == p)).flatMap (fun e => chainOf s e.1)).map (fun i => (i.va, up64 i.len))
  let lo := up64 pt.ctxva
  (lo :: used.map (fun u => up64 (u.1 + u.2))).foldl (fun best a =>
    if lo ≤ a && a + len ≤ pt.ctxva + pt.ctxlen && used.all (fun u => !runsMeet a len u.1 u.2) then
      match best with
      | some x => some (min a x)
      | none => some a
    else best) none

/-- Whether a unit's saved state holds uncorrectable data: a row, a tile word, or a word of its image set (R367, R384). -/
def contextBad (k : Core) (u : Unit) : Bool :=
  k.badRows.any (fun r => (u.vbase ≤ r && r < u.vbase + u.vlen) || (2048 ≤ r && vecOwner k == some u.uid))
  || (ownedTiles k u.uid).any (fun e => !e.2.acc && spoilt k e.2 (span 0 (tileSize e.2 / 4)))
  || (imageSetOf k u.uid).vwords.any k.badWords.contains || (imageSetOf k u.uid).mwords.any (fun w => k.badWords.contains (8192 + w))

/-- The granules of what a unit holds (R378). -/
def unitGranules (k : Core) (u : Unit) (g : Nat × Nat) : Bool :=
  match g.1 with
  | 9 => u.vbase ≤ 16 * g.2 && 16 * g.2 < u.vbase + u.vlen
  | 11 => (ownedTiles k u.uid).any (fun e => !e.2.acc && runsMeet (g.2 / 256) 1 e.2.p0 e.2.p1 && runsMeet (g.2 % 256) 1 e.2.p2 e.2.p3)
  | 12 => holds k u.uid (g.2 / 65536)
  | _ => holds k u.uid (g.2 / 256)

/-- The core with the storage of a list of handles out of it (R166). -/
def storageOut (k : Core) : List Nat → Core
  | [] => k
  | h :: hs => storageOut (withTile k h { tileOf k h with p0 := 0, p1 := 0, p2 := 0, p3 := 0 }) hs

/-- The core with what a pre-empted unit holds released; its handles stay allocated with their storage out (R166, R372). -/
def releaseAway (k : Core) (u : Unit) : Core :=
  let mine := ownedHandles k u.uid
  let k1 := { k with dirty := k.dirty.filter (fun g => !unitGranules k u g) }
  let keep := mine.map (fun h => (h, { tileOf k1 h with p0 := 0, p1 := 0, p2 := 0, p3 := 0 }))
  let k2 := releaseUnit { k1 with tiles := k1.tiles.filter (fun e => !mine.contains e.1) } u.uid
  keep.foldl (fun c e => withTile c e.1 e.2) k2

/-- What a pre-empted unit leaves with the device (log 17); the clock from which its bound group stands still is the one in which the next
course would have issued (R109). -/
def awayOf (s : State) (core slot : Nat) : Away :=
  let k := getCore s core
  let u := unitOf k slot
  let held := (span 0 8).filterMap (fun n => if holds k u.uid n then (subOf k n).map (fun b => (n, b)) else none)
  { task := u.task
    unit := { withPort u 0 { portOf u 0 with queue := [] } with
      wait := none, bond := [], fences := [], ready := [], evq := [], snap := none, away := u.away.map (fun b => max b (groupFree k u)) }
    core := core, slot := slot
    subs := held.map (fun e => (e.1, e.2.kind, e.2.h, e.2.w)), written := held.map (fun e => (e.1, e.2.touched)), toks := ownedToks k u.uid, vec := vecOwner k == some u.uid
    set := imageSetOf k u.uid, hod := (portOf u 0).queue
    flights := held.flatMap (fun e => e.2.flights.map (fun f => (e.1, f))), recs := [], stopped := s.clk }

/-- Whether the next image of a task is full (R379). -/
def nextFull (s : State) (task : Nat) : Bool := (chainOf s task).isEmpty || 9 ≤ (chainOf s task).length

/-- The image of the unit in a slot as it would be written now (R375, R379). -/
def imageNow (s : State) (core slot : Nat) : List Byte :=
  let k := getCore s core
  let u := unitOf k slot
  let full := nextFull s u.task
  let chain := chainOf s u.task
  imageOf (if full then 0 else chain.length) (((taskOf s u.task).map (·.aseq)).getD 0) s.tb.tns
    (if full then 0 else ((chain.getLast?).map (·.va)).getD 0) (sectionsOf k u s.clk full)

/-- The unit of a slot with a context error raised (R366, R384): the image is discarded and the request dropped. The spec gives no STREAM
and no EVAL for it where it is taken as a trap: they are 8 and 0 (log 51). -/
def contextError (s : State) (core slot : Nat) : State :=
  let u := unitAt s core slot
  let t := { s with preempts := s.preempts.filter (fun e => e.1 != 4 * core + slot) }
  setUnitAt t core slot (trapUnit t u 8 cUNCORR 0 u.pc)

/-- A stopped unit saved and away (R372 step 7): not done while its image has no place in the context area (log 17). -/
def saveUnit (s : State) (core slot : Nat) : State :=
  let k := getCore s core
  let u := unitOf k slot
  let bs := imageNow s core slot
  if contextBad k u then contextError s core slot
  else
    match imagePlace s u.part bs.length with
    | none => s
    | some va =>
      match hubPins s u.part .write 0 (va + bs.length - 1) (bs.length / 65536 + 2) va [] with
      | .inr _ => s
      | .inl pins =>
        let a := awayOf s core slot
        let t := putVia pins bs va s
        let chain := (if nextFull s u.task then [] else chainOf s u.task) ++ [{ va := va, len := bs.length, pins := pins }]
        let t1 := setCore t core (withUnit (releaseAway k u) slot Unit.reset)
        let t2 := { t1 with
          aways := t1.aways ++ [a], chains := mapSet t1.chains u.task chain
          preempts := t1.preempts.filter (fun e => e.1 != 4 * core + slot) }
        match taskOf t2 u.task with
        | some x => { t2 with tasks := mapSet t2.tasks u.task { x with readyAt := s.tb.tns, headAt := none, blocking := false } }
        | none => t2

/-! ## Reading a chain (R380) -/

/-- The bytes of an image read back; none where a line is uncorrectable or the header does not match. -/
def readImage (s : State) (i : Image) : Option (List Byte) :=
  let r := pinBytes s i.pins i.va i.len
  let bs := r.1
  let zeroed := bs.take 40 ++ zeros 8 ++ bs.drop 48
  if r.2 || fieldNat bs 24 8 != i.len || fieldNat bs 0 2 != 1 || fieldNat bs 40 8 != (crc64 zeroed).toNat then none else some bs

/-- The images of a chain read in order, or the first that fails. -/
def readChain (s : State) : List Image → List (List Byte) ⊕ Nat
  | [] => .inl []
  | i :: is =>
    match readImage s i, readChain s is with
    | none, _ => .inr i.va
    | some _, .inr va => .inr va
    | some bs, .inl more => .inl (bs :: more)

/-- The entries of a section of an image. -/
def entriesOf (img : List Byte) (typ : Nat) : List (List Byte) :=
  (span 0 (fieldNat img 32 2)).flatMap (fun j =>
    let d := 64 + 16 * j
    if fieldNat img d 2 = typ then
      (span 0 (fieldNat img (d + 4) 4)).map (fun i => (img.drop (fieldNat img (d + 8) 8 + i * entryBytes typ)).take (entryBytes typ))
    else [])

/-- The entries of a section of every image of a chain in chain order. -/
def chainEntries (imgs : List (List Byte)) (typ : Nat) : List (List Byte) := imgs.flatMap (fun i => entriesOf i typ)

/-- The entries of the chain's last image, which holds every section marked Always. -/
def lastEntries (imgs : List (List Byte)) (typ : Nat) : List (List Byte) := ((imgs.getLast?).map (fun i => entriesOf i typ)).getD []

/-! ## Where a unit may return (R182, R377) -/

/-- The lowest free VBASE for a window of `n` rows on a core (R143). -/
def windowPlace (k : Core) (n : Nat) : Option Nat :=
  if n = 0 then some 0
  else
    (firstIn (fun g => k.units.all (fun e => !(e.2.live && runsMeet (16 * g) n e.2.vbase e.2.vlen))) 0 ((2048 - n) / 16 + 1)).map (16 * ·)

/-- The bricks of a core in use by its own sub-arrays. -/
def bricksUsed (k : Core) : List Nat := k.subs.flatMap (fun e => subBricks e.2)

/-- The places of a rectangle of h × w bricks on a core, by row and column, lowest column first. -/
def rectSpots (h w : Nat) : List (Nat × Nat) := (span 0 (9 - w)).flatMap (fun c => (span 0 (5 - h)).map (fun r => (r, c)))

/-- Places for a list of local sub-arrays, by number, height and width, beside the bricks in use: the first arrangement that holds them
all, if there is one (R182). -/
def placeSubs : List (Nat × Nat × Nat) → List Nat → Option (List (Nat × Nat × Nat))
  | [], _ => some []
  | (n, h, w) :: more, used =>
    (rectSpots h w).findSome? (fun p =>
      if bricksMeet (rectBricks p.1 h p.2 w) used then none
      else (placeSubs more (used ++ rectBricks p.1 h p.2 w)).map (fun xs => (n, p.1, p.2) :: xs))

/-- Whether the bricks of every member core of a shape are free (R181). -/
def crossFree (s : State) (core : Nat) (kind : SubKind) : Bool :=
  mayLead core kind && (membersOf core kind).all (fun c => (getCore s c).subs.isEmpty && (lentTo s c).isNone)

/-- Where a pre-empted unit's sub-arrays go on a core, if they can all be installed with their numbers (R182). -/
def subsPlace (s : State) (a : Away) (core : Nat) : Option (List (Nat × Nat × Nat)) :=
  match a.subs.find? (fun x => x.2.1 != .loc) with
  | some x => if crossFree s core x.2.1 then some [(x.1, 0, 0)] else none
  | none =>
    if a.subs.isEmpty then some []
    else if (lentTo s core).isSome || a.subs.any (fun x => (subOf (getCore s core) x.1).isSome) then none
    else placeSubs (a.subs.map (fun x => (x.1, x.2.2.1, x.2.2.2))) (bricksUsed (getCore s core))

/-- Whether the words and records of two image sets have one in common (R377). -/
def setsMeet (a b : ImageSet) : Bool :=
  bricksMeet a.vwords b.vwords || bricksMeet a.mwords b.mwords || bricksMeet a.shapes b.shapes

/-- The core with a list of SCRATCH tiles placed at their handles in turn, if each has a place (R150). -/
def placeTiles (k : Core) : List (Nat × Tile) → Option Core
  | [] => some k
  | (h, t) :: more =>
    if t.acc then placeTiles (withTile k h t) more
    else
      match placeTile k t with
      | some t' => placeTiles (withTile k h t') more
      | none => none

/-- The tiles a pre-empted unit owns, on the core it left. -/
def awayTiles (s : State) (a : Away) : List (Nat × Tile) := ownedTiles (getCore s a.core) a.unit.uid

/-- Whether the core's other resources suit a return: token queues, vector sequencer, image set, handles and storage (R166, R182,
R374, R377). -/
def coreSuits (s : State) (a : Away) (core : Nat) : Bool :=
  let k := getCore s core
  let tiles := awayTiles s a
  a.toks.all (fun q => (tokOf k q).owner.isNone) && (!a.vec || (vecOwner k).isNone)
  && k.images.all (fun i => !setsMeet i a.set)
  && (core == a.core || tiles.all (fun e => !(tileOf k e.1).valid))
  && (placeTiles k tiles).isSome

/-! ## Restoring (R112, R182, R372, R373, R376, R380) -/

/-- MODE by its code. -/
def modeOfCode : Nat → StreamMode
  | 1 => .armed | 2 => .forked | 3 => .bound | 4 => .stopping | 5 => .faulted | _ => .idle

/-- MODSTATE from its bits, its loop buffer refilled from the core's instruction memory (R112). -/
def modOfBits (k : Core) (n pc v : Nat) : Option ModState :=
  let len := v % 2 ^ 7
  if len = 0 then none
  else some { len := len, ii := v / 2 ^ 7 % 2 ^ 7, tcur := v / 2 ^ 14 % 2 ^ 17, t := v / 2 ^ 31 % 2 ^ 24, exk := BitVec.ofNat 4 (v / 2 ^ 55)
              exs := v / 2 ^ 59 % 2 == 1, ctr := if v / 2 ^ 62 % 2 = 1 then some (BitVec.ofNat 2 (v / 2 ^ 60)) else none
              begun := v / 2 ^ 63 % 2 == 1, body := loopBody k n pc len }

/-- A stream from its entry of STREAMS; what the image leaves out starts free. -/
def strmOfEntry (k : Core) (n clk : Nat) (e : List Byte) : Strm :=
  { mode := modeOfCode (fieldNat e 0 1), pc := BitVec.ofNat 14 (fieldNat e 2 2), lc0 := BitVec.ofNat 16 (fieldNat e 4 2)
    lc1 := BitVec.ofNat 16 (fieldNat e 6 2), lc2 := BitVec.ofNat 16 (fieldNat e 8 2), lc3 := BitVec.ofNat 16 (fieldNat e 10 2)
    repn := BitVec.ofNat 7 (fieldNat e 12 1), repcnt := BitVec.ofNat 7 (fieldNat e 13 1)
    mod := modOfBits k n (fieldNat e 2 2) (fieldNat e 16 20), rotb := BitVec.ofNat 4 (fieldNat e 14 1)
    stampoff := BitVec.ofNat 40 (fieldNat e 36 5), cause := BitVec.ofNat 8 (fieldNat e 15 1), issueAt := clk, passed := false }

/-- A record from its 32 bytes (R284). -/
def recOfBytes (e : List Byte) : Rec :=
  { entered := 0, status := BitVec.ofNat 8 (fieldNat e 0 1), sub := BitVec.ofNat 8 (fieldNat e 1 1), engine := BitVec.ofNat 8 (fieldNat e 2 1)
    flags := BitVec.ofNat 8 (fieldNat e 3 1), tagq := BitVec.ofNat 32 (fieldNat e 4 4), sig := BitVec.ofNat 32 (fieldNat e 8 4)
    detail := BitVec.ofNat 32 (fieldNat e 12 4), tns := BitVec.ofNat 64 (fieldNat e 16 8), count := BitVec.ofNat 64 (fieldNat e 24 8) }

/-- The core with a granule of rows restored at a window base. -/
def restoreVrows (vbase : Nat) (k : Core) (e : List Byte) : Core :=
  restoreRows ((span 0 16).map (fun i => (vbase + 16 * fieldNat e 0 2 + i, BitVec.ofNat 1024 (fieldNat e (64 + 128 * i) 128)))) k

/-- The core with the operand file and the latch restored. -/
def restoreOpf (k : Core) (e : List Byte) : Core :=
  restoreRows ((span 0 17).map (fun i => (2048 + i, BitVec.ofNat 1024 (fieldNat e (64 + 128 * i) 128)))) k

/-- The core with a line of a tile restored. -/
def restoreLine (mine : List Nat) (k : Core) (e : List Byte) : Core :=
  let t := tileOf k (fieldNat e 0 2)
  if mine.contains (fieldNat e 0 2) && !t.acc && fieldNat e 4 4 < tileLines t then
    { k with scratch := (span 0 16).foldl (fun m i =>
        scratchSet m (tileKey t (16 * fieldNat e 4 4 + i)) (BitVec.ofNat 32 (fieldNat e (64 + 4 * i) 4))) k.scratch }
  else k

/-- The core with a block of an ACC tile restored. -/
def restoreBlock (mine : List Nat) (k : Core) (e : List Byte) : Core :=
  let t := tileOf k (fieldNat e 0 2)
  let n := t.sub.toNat
  match subOf k n with
  | some b =>
    if mine.contains (fieldNat e 0 2) && t.acc && fieldNat e 2 1 < t.p1 && fieldNat e 3 1 < t.p3 then
      { k with subs := mapSet k.subs n { b with acc := (span 0 1024).foldl (fun m i =>
          accSet m (poolKey t (32 * fieldNat e 2 1 + i / 32) (32 * fieldNat e 3 1 + i % 32)) (BitVec.ofNat 32 (fieldNat e (64 + 4 * i) 4))) b.acc } }
    else k
  | none => k

/-- A tag from its 3 bytes. -/
def tagOfBytes (v : Nat) : Tag := { valid := v / 2 ^ 20 % 2 == 1, handle := BitVec.ofNat 12 (v / 256), gen := BitVec.ofNat 8 v }

/-- The tags of one physical set of an entry of SUBA. -/
def tagsOfEntry (b : Sub) (e : List Byte) (lo : Nat) : List (Nat × Tag) :=
  (span 0 (b.h * b.w)).filterMap (fun i =>
    let t := tagOfBytes (fieldNat e (lo + 3 * i) 3)
    if t = noTag then none else some (brickAt b i, t))

/-- A sub-array with its state from an entry of SUBA, its window empty and its marker age spent (R203, R376). -/
def subOfEntry (b : Sub) (e : List Byte) : Sub :=
  let act := fieldNat e 10 1 == 1
  let t0 := tagsOfEntry b e 144
  let t1 := tagsOfEntry b e 528
  { b with
    afmt := BitVec.ofNat 4 (fieldNat e 3 1), sfmt := BitVec.ofNat 4 (fieldNat e 3 1 / 16), mcnt := BitVec.ofNat 32 (fieldNat e 4 4)
    erow := BitVec.ofNat 12 (fieldNat e 8 2), actsel := act, atag := if act then t1 else t0, stag := if act then t0 else t1
    inv := ((span 0 (8 * b.h * b.w)).filter (fun i => fieldNat e 16 128 / 2 ^ i % 2 == 1)).map (invBit b), win := [], age := 127 }

/-- The core with the weights of a brick restored. -/
def restoreBrick (k : Core) (e : List Byte) : Core :=
  match subOf k (fieldNat e 0 1) with
  | none => k
  | some b =>
    let i := fieldNat e 2 1
    let r := i / b.w
    let c := i % b.w
    let cell := fun x y => (span 0 36).foldl (fun a q =>
      a + fieldNat e (64 + 128 * q + 4 * x + y / 8) 1 / 2 ^ (y % 8) % 2 * 2 ^ (3 * (11 - q / 3) + q % 3)) 0
      + fieldNat e (64 + 4608 + 2 * (32 * x + y)) 2 * 2 ^ 36
    let put := fun (m : List (Nat × BitVec 52)) => (span 0 1024).foldl (fun m j =>
      let v : BitVec 52 := BitVec.ofNat 52 (cell (j / 32) (j % 32))
      let key := cellKey (32 * r + j / 32) (32 * c + j % 32)
      if v = 0 then mapErase m key else mapSet m key v) m
    if i < b.h * b.w then
      { k with subs := mapSet k.subs (fieldNat e 0 1) (if fieldNat e 1 1 = 0 then { b with set0 := put b.set0 } else { b with set1 := put b.set1 }) }
    else k

/-- The core with the unit's image set written; a word written is correct again (R367, R377). -/
def restoreSet (k : Core) (uid : Nat) (imw shrec : List (List Byte)) : Core :=
  let vw := (imw.filter (fun e => fieldNat e 0 1 == 0)).map (fun e => (fieldNat e 2 2, BitVec.ofNat 96 (fieldNat e 8 12)))
  let mw := (imw.filter (fun e => fieldNat e 0 1 == 1)).map (fun e => (fieldNat e 2 2, BitVec.ofNat 192 (fieldNat e 8 24)))
  let sh := shrec.filterMap (fun e => (shapeOfBytes ((e.drop 16).take 16)).map (fun x => (fieldNat e 0 1, x)))
  { k with
    imemV := vw.foldl (fun m e => mapSet m e.1 e.2) k.imemV, imemM := mw.foldl (fun m e => mapSet m e.1 e.2) k.imemM
    shapes := sh.foldl (fun m e => mapSet m e.1 e.2) k.shapes
    badWords := k.badWords.filter (fun x => !vw.any (fun e => e.1 == x) && !mw.any (fun e => e.1 + 8192 == x))
    images := k.images ++ [{ uid := uid, vwords := vw.map (·.1), mwords := mw.map (·.1), shapes := sh.map (·.1) }] }

/-- The core with a list of sub-arrays formed for a returning unit, without a mark on their granules (R182). -/
def formSubs (uid slot clk : Nat) (dims : List (Nat × SubKind × Nat × Nat)) : List (Nat × Nat × Nat) → Core → Core
  | [], k => k
  | (n, r, c) :: more, k =>
    match dims.find? (fun d => d.1 == n) with
    | some d => formSubs uid slot clk dims more { k with subs := mapSet k.subs n (newSub uid slot d.2.1 r d.2.2.1 c d.2.2.2 clk) }
    | none => formSubs uid slot clk dims more k

/-- The unit with its scalar state from SCALAR; TVEC to USCRATCH as they were saved, UNITID of its new place (R119). -/
def unitOfScalar (u : Unit) (e : List Byte) (core slot : Nat) : Unit :=
  let w := fun o => BitVec.ofNat 64 (fieldNat e o 8)
  let st := fieldNat e 264 8
  { u with
    regs := Vector.ofFn (fun i : Fin 32 => if i.val = 0 then 0 else w (8 * i.val)), pc := w 256
    mode := if st % 2 = 1 then .s else .u, sstep := st / 4 % 2 == 1, evl := u.evl || st / 8 % 2 == 1
    unitid := BitVec.ofNat 64 (u.part * 2 ^ 16 + core * 4 + slot), argp := w 280, tcbp := w 288, tvec := w 296, epc := w 304
    ecause := w 312, eval := w 320, sscratch := w 328, uscratch := w 336
    pending := u.pending.filter (fun p => fieldNat e 344 2 / 2 ^ p.stream % 2 == 1 || p.stream == 10) }

/-- The unit with its ports from PORTS and its hod queue; hub engines' queues and halts stayed with the device. -/
def unitOfPorts (hod : List Cmd) (u : Unit) (es : List (List Byte)) : Unit :=
  (span 0 5).foldl (fun v i =>
    let e := (nth es i).getD []
    let p := portOf v i
    withPort v i { cw0 := BitVec.ofNat 64 (fieldNat e 0 8), cw1 := BitVec.ofNat 64 (fieldNat e 8 8), cw2 := BitVec.ofNat 64 (fieldNat e 16 8)
                   cw3 := BitVec.ofNat 64 (fieldNat e 24 8), written := BitVec.ofNat 4 (fieldNat e 32 1)
                   halted := p.halted || fieldNat e 33 1 == 1, haltAt := p.haltAt, queue := if i = 0 then hod else p.queue }) u

/-- A command with its poster in a new place. -/
def cmdMoved (uid core slot : Nat) (c : Cmd) : Cmd := if c.uid = uid then { c with core := core, slot := slot } else c

/-- The state with everything that names a returning unit's place moved to its new one: started commands, collectives and deposits
to its handles, and the entries, ranks and held contributions of its handles themselves. -/
def moveUnit (s : State) (a : Away) (core slot : Nat) : State :=
  let uid := a.unit.uid
  let mine := (awayTiles s a).map (·.1)
  let old := getCore s a.core
  let here := fun (h : BitVec 12) => mine.contains h.toNat
  let s1 := { s with
    cmds := s.cmds.map (fun r => { r with cmd := cmdMoved uid core slot r.cmd })
    colls := s.colls.map (fun c => { c with cmd := cmdMoved uid core slot c.cmd })
    deps := s.deps.map (fun d => if d.core = a.core && here d.handle then { d with core := core } else d) }
  if core = a.core then s1
  else
    let t := setCore s1 a.core (freeTiles old mine)
    let k := getCore t core
    setCore t core { mine.foldl (fun c h => withTile c h { tileOf old h with gen := (tileOf old h).gen }) k with
      ranks := k.ranks ++ old.ranks.filter (fun r => here r.handle), parked := k.parked ++ old.parked.filter (fun p => here p.handle) }

/-- The remote words of a returning unit, in the core and slot they go on from; the next row comes through the drain path as the first
row of the clock `clk` its streams go on in, and the later ones at their pace (R186, R199). -/
def flightMoved (core slot clk : Nat) (f : MFlight) : MFlight :=
  match f.effect with
  | .epiRemote ha (r :: rs) =>
    let issue := clk - (8 + r.srcRow * ceilDiv r.elems.length 128)
    { f with
      slot := slot, issue := issue, due := issue + (f.due - f.issue), late := 0
      effect := .epiRemote ha ((r :: rs).map (fun r => { r with srcCore := core, srcSlot := slot })) }
  | _ => { f with slot := slot }

/-- The core of a returning unit with its storages, streams, tokens and vector sequencer as its chain holds them. -/
def restoreCore (k : Core) (a : Away) (slot vbase clk : Nat) (imgs : List (List Byte)) (places : List (Nat × Nat × Nat)) : Core :=
  let uid := a.unit.uid
  let hs := lastEntries imgs 8
  let owned := ownedTiles k uid
  let withPlace := owned.map (fun e =>
    let pl := ((hs.find? (fun x => fieldNat x 16 2 == e.1)).map (fun x => fieldNat x 0 16 % 2 ^ 30)).getD 0
    (e.1, { e.2 with
      owner := BitVec.ofNat 2 slot
      p0 := if e.2.acc then pl / 2 ^ 24 % 64 else 0, p1 := if e.2.acc then pl / 2 ^ 18 % 64 + 1 else 0
      p2 := if e.2.acc then pl / 2 ^ 14 % 16 else 0, p3 := if e.2.acc then pl / 2 ^ 10 % 16 + 1 else 0 }))
  let k1 := restoreSet k uid (lastEntries imgs 15) (lastEntries imgs 16)
  let k2 := formSubs uid slot clk a.subs places k1
  let k3 := { k2 with subs := k2.subs.map (fun e => match (lastEntries imgs 13).find? (fun x => fieldNat x 0 1 == e.1) with
    | some x =>
      let back := (a.flights.filter (fun f => f.1 == e.1)).map (fun f => flightMoved a.core slot clk f.2)
      if e.2.holder = uid then (e.1, { subOfEntry e.2 x with
        touched := ((a.written.find? (fun w => w.1 == e.1)).map (·.2)).getD [], flights := back, nextId := back.foldl (fun m f => max m (f.id + 1)) 0 }) else e
    | none => e) }
  let k4 := (placeTiles k3 withPlace).getD k3
  let mine := owned.map (·.1)
  let clear := (withPlace.map (·.1)).foldl (fun c h => { clearStorage c (tileOf c h) with dirty := c.dirty }) k4
  let inv4 := { clear with subs := clear.subs.map (fun e => match subOf k4 e.1 with
    | some b => (e.1, { e.2 with inv := b.inv })
    | none => e) }
  let k5 := (chainEntries imgs 11).foldl (restoreLine mine) inv4
  let k6 := (chainEntries imgs 12).foldl (restoreBlock mine) k5
  let k7 := ((chainEntries imgs 14).filter (fun e => holds k6 uid (fieldNat e 0 1))).foldl restoreBrick k6
  let zeroed := { k7 with
    vrows := k7.vrows.filter (fun e => !(vbase ≤ e.1 && e.1 < vbase + a.unit.vlen))
    badRows := k7.badRows.filter (fun r => !((vbase ≤ r && r < vbase + a.unit.vlen) || (a.vec && 2048 ≤ r))) }
  let k8 := ((chainEntries imgs 9).filter (fun e => fieldNat e 0 2 < a.unit.vlen / 16)).foldl (restoreVrows vbase) zeroed
  let k9 := (lastEntries imgs 7).foldl (fun c e =>
    withTok c (fieldNat e 0 1 % 16) {
      owner := some uid, count := fieldNat e 2 1
      rsv := (a.flights.filter (fun f => f.2.give != 0xF && f.2.give.toNat == fieldNat e 0 1 % 16)).length }) k8
  let es := lastEntries imgs 2
  let strm := fun n => strmOfEntry k9 n clk ((nth es n).getD [])
  let k10 := { k9 with mats := (a.subs.map (·.1)).foldl (fun m n => mapSet m n (strm n)) k9.mats }
  if a.vec then
    let e := (nth es 8).getD []
    let k11 := (lastEntries imgs 10).foldl restoreOpf k10
    { k11 with
      rowLog := []
      vec := { k11.vec with
        owner := some uid, released := false, strm := strm 8, rows := fieldNat e 41 1 + 1, lanes := fieldNat e 42 1 + 1, pipeA := clk
        pipeB := clk, flights := [], base := none
        shadow := (lastEntries imgs 3).map (fun w =>
          let r := fieldNat w 0 2
          { row := if r < 2048 then vbase + r else r, off := fieldNat w 2 2, lanes := BitVec.ofNat 32 (fieldNat w 4 4)
            value := BitVec.ofNat 1024 (fieldNat w 16 128) }) } }
  else k10

/-- A pre-empted unit back in a slot of a core with its chain's content (R380): its streams issue from the next clock, and the
clocks a bound group was away join STAMPOFF (R109, R373); in S mode it goes on standing still from that clock until ERET. -/
def restoreUnit (s : State) (a : Away) (core slot vbase : Nat) (imgs : List (List Byte)) (places : List (Nat × Nat × Nat)) : State :=
  let t := moveUnit { s with aways := s.aways.filter (fun b => b.unit.uid != a.unit.uid) } a core slot
  let es := lastEntries imgs 2
  let k := restoreCore (getCore t core) { a with core := core } slot vbase (s.clk + 1) imgs places
  let u1 := unitOfScalar a.unit ((nth (lastEntries imgs 1) 0).getD []) core slot
  let u2 := unitOfPorts (a.hod.map (cmdMoved a.unit.uid core slot)) u1 (lastEntries imgs 4)
  let u3 := { u2 with
    vbase := vbase, group := BitVec.ofNat 9 (((nth es 8).map (fun e => fieldNat e 44 2)).getD 0), engineAt := s.clk + 1
    evq := (lastEntries imgs 6).map recOfBytes ++ a.recs }
  let u4 := { u3 with ports := u3.ports.map (fun p => (p.1, { p.2 with queue := p.2.queue.map (cmdMoved a.unit.uid core slot) })) }
  let t1 := marksChanged (setCore t core (withUnit k slot u4))
  match a.unit.away with
  | some b =>
    setUnitAt (if launched k u4 then addStampoff t1 core slot (s.clk + 1 - b) else t1) core slot { u4 with
      away := if u4.mode = .u then none else some (s.clk + 1) }
  | none => t1

/-- A return that failed (R380): the task ends with RESTORE_LOST, and its partition receives a trace record and vector 1. -/
def restoreLost (s : State) (a : Away) (va : Nat) : State :=
  let aseq := ((taskOf s a.task).map (·.aseq)).getD 0
  let p := a.unit.part
  let s1 := endAway s a cRESTORELOST
  signalVf (traceWrite s1 p noEngine a.core (traceRec 5 (zeros 3 ++ leBytes 4 aseq ++ leBytes 8 va) s1.tb.tns [])) p 1

/-- A pre-empted unit returned to a place the scheduler chose (R380). -/
def returnUnit (s : State) (a : Away) (core slot vbase : Nat) (places : List (Nat × Nat × Nat)) : State :=
  match readChain s (chainOf s a.task) with
  | .inr va => restoreLost s a va
  | .inl imgs => restoreUnit s a core slot vbase imgs places

end Sys2Proof.Machine
end

