-- ==== Sys2Proof/Machine/Work.lean ====
section
/-! DEFINITION. The work scheduler and the request gatherer: ready queues, dispatch, blocking, pre-emption and return, inlets,
batches, GAT.OPEN and GAT.CLOSE (R10, R143, R181, R182, R324 to R333, R372, R377, R381). -/
namespace Sys2Proof.Machine

/-! ## Ready queues (R324) -/

/-- What stands in a partition's queue: a READY task, or a pre-empted unit that is to return, by its place among them. -/
inductive Waiter where
  | task (id : Nat)
  | away (k : Nat)
  deriving DecidableEq, Repr

/-- The task of a waiter. -/
def waiterTask (s : State) : Waiter → Nat
  | .task id => id
  | .away k => ((nth s.aways k).map (·.task)).getD 0

/-- Effective priority (R324). -/
def effPrio (t : Task) (tns : Nat) : Nat :=
  if tcbPrio t.body = 7 then 7 else min 6 (tcbPrio t.body + (tns - t.readyAt) / 1000000)

/-- The waiters of a partition in arming order. A pre-empted unit that is to return stands among them by its task, and its return uses the
partition's turn and credit, on which R324 is silent (the model's choice, log 62). -/
def waiters (s : State) (p : Nat) : List Waiter :=
  (s.tasks.filter (fun e => e.2.part == p)).filterMap (fun e =>
    match e.2.state with
    | .ready => some (.task e.1)
    | .run => (firstIn (fun k => ((nth s.aways k).map (·.task)) == some e.1) 0 s.aways.length).map .away
    | _ => none)

/-- The ready queue of a partition: highest effective priority first, then the earlier arming (R324). -/
def readyQueue (s : State) (p : Nat) : List Waiter :=
  (byKey ((waiters s p).map (fun w => (7 - ((taskOf s (waiterTask s w)).map (fun t => effPrio t s.tb.tns)).getD 0, w)))).map (·.2)

/-! ## Placement (R10, R181, R182, R325, R326) -/

/-- A quad as the scheduler sees it (R381). -/
def quadAt (s : State) (q : Nat) : Quadrant := mapGet { serving := true, stopping := false, test := none, passed := 0, failed := [] } s.quads q

/-- The state with a quad replaced. -/
def withQuad (s : State) (q : Nat) (x : Quadrant) : State := { s with quads := mapSet s.quads q x }

/-- Whether the scheduler dispatches to a quad: it is in service and neither under test nor about to be. -/
def quadOpen (s : State) (q : Nat) : Bool := (quadAt s q).serving && !(quadAt s q).stopping

/-- Where a waiter goes: core, slot, window and, for a return, its sub-arrays. -/
structure Place where
  core : Nat
  slot : Nat
  vbase : Nat
  subs : List (Nat × Nat × Nat)
  deriving DecidableEq, Repr

/-- The lowest free unit slot of a core. -/
def freeSlot (k : Core) : Option Nat := firstIn (fun i => !(unitOf k i).live) 0 4

/-- The cores of quads in ascending order. -/
def coresOf (qs : List Nat) : List Nat := (ascending qs).flatMap (fun q => span (4 * q) 4)

/-- The shape of a cross-core request (R180). -/
def requestKind (w : Nat) : SubKind :=
  match bondShape w with
  | 2 => .tall
  | 3 => .wide
  | 4 => .square
  | _ => .loc

/-- The sub-arrays a bond request takes on a core, by number and rectangle, if the core can supply it now (R181). -/
def bondPlace (s : State) (core w : Nat) : Option (List (Nat × Nat × Nat)) :=
  let k := getCore s core
  match bondShape w with
  | 0 => some []
  | 1 =>
    let nums := (span 0 8).filter (fun n => (subOf k n).isNone)
    if (lentTo s core).isSome || nums.length < bondN w then none
    else (placeRects (bondH w) (bondW w) (bondN w) (bricksUsed k)).map (fun rs => nums.zip rs)
  | _ => if crossFree s core (requestKind w) then some [(0, 0, 0)] else none

/-- Whether every residency entry of a task is resident (R314). -/
def resident (s : State) (b : List Byte) : Bool :=
  (span 0 (min 4 (tcbNres b))).all (fun i => (mapGet [] s.hist (tcbRes b i / 65536 % 64)).contains (tcbRes b i % 65536))

/-- The place of a READY task among some cores (R325). -/
def taskPlace (s : State) (t : Task) (cores : List Nat) : Option Place :=
  if resident s t.body then
    cores.findSome? (fun c =>
      match freeSlot (getCore s c), windowPlace (getCore s c) (tcbRows t.body), bondPlace s c (tcbBond t.body) with
      | some i, some v, some b => some { core := c, slot := i, vbase := v, subs := b }
      | _, _, _ => none)
  else none

/-- The place of a pre-empted unit among some cores (R182). -/
def awayPlace (s : State) (a : Away) (cores : List Nat) : Option Place :=
  cores.findSome? (fun c =>
    if coreSuits s a c then
      match freeSlot (getCore s c), windowPlace (getCore s c) a.unit.vlen, subsPlace s a c with
      | some i, some v, some b => some { core := c, slot := i, vbase := v, subs := b }
      | _, _, _ => none
    else none)

/-- The cores a task may be placed on now, `shut` being the quads a blocking task keeps (R326). -/
def openCores (s : State) (t : Task) (shut : List Nat) : List Nat :=
  coresOf ((taskQuads (partOf s t.part) t.body).filter (fun q =>
    (partOf s t.part).quads.contains q && quadOpen s q && !shut.contains q))

/-- The place of a waiter. -/
def waiterPlace (s : State) (w : Waiter) (shut : List Nat) : Option Place :=
  match taskOf s (waiterTask s w) with
  | none => none
  | some t =>
    match w with
    | .task _ => taskPlace s t (openCores s t shut)
    | .away k => match nth s.aways k with
      | some a => awayPlace s a (openCores s t shut)
      | none => none

/-- The first waiter of a queue that can be placed, blocking tasks before it keeping the quads of their QMASK (R325, R326). -/
def firstPlaced (s : State) : List Waiter → List Nat → Option (Waiter × Place)
  | [], _ => none
  | w :: ws, shut =>
    match waiterPlace s w shut with
    | some x => some (w, x)
    | none =>
      match taskOf s (waiterTask s w) with
      | some t => firstPlaced s ws (if t.blocking then shut ++ taskQuads (partOf s t.part) t.body else shut)
      | none => firstPlaced s ws shut

/-- The partitions in the order of their turns, the present one first while it has dispatches left (R325). -/
def turnOrder (s : State) : List Nat :=
  ((if s.sched.credit = 0 then [] else [s.sched.turn]) ++ (span 1 16).map (fun i => (s.sched.turn + i) % 16)).filter (mapHas s.parts)

/-- The scheduler's next decision: partition, waiter and place (R325). -/
def decision (s : State) : Option (Nat × Waiter × Place) :=
  (turnOrder s).findSome? (fun p => (firstPlaced s (readyQueue s p) []).map (fun x => (p, x.1, x.2)))

/-- The turn after a dispatch of a partition (R325); the next decision is four clocks later at the earliest (R327). -/
def schedAfter (s : State) (p : Nat) : Sched :=
  let c := if s.sched.turn = p && s.sched.credit ≠ 0 then s.sched.credit else (partOf s p).schedw
  { turn := p, credit := c - 1, next := s.clk + 4, before := (s.sched.turn, s.sched.credit, s.sched.next) }

/-! ## DISPATCH, BLOCKING (R115, R117, R119, R143, R181, R326, R327) -/

/-- A unit as it is set up: s1 and ARGP hold the argument block, and its first word issues 64 clocks on (R115, R117, R327). -/
def freshUnit (s : State) (id : Nat) (t : Task) (x : Place) : Unit :=
  let argp := BitVec.ofNat 64 (fieldNat t.body 8 8)
  { Unit.reset with
    live := true, uid := s.uidSeq, part := t.part, task := id
    regs := (Vector.replicate 32 (0 : Word)).set 1 argp, pc := BitVec.ofNat 64 (fieldNat t.body 0 8)
    unitid := BitVec.ofNat 64 (t.part * 2 ^ 16 + x.core * 4 + x.slot), argp := argp, tcbp := BitVec.ofNat 64 t.va
    tvec := (partOf s t.part).tvec, vbase := x.vbase, vlen := tcbRows t.body, ready := [(32, s.clk + 64)] }

/-- The core with a fresh unit: its window reads zero and its bond is installed (R143, R181). -/
def coreDispatched (k : Core) (u : Unit) (w : Nat) (x : Place) (clk : Nat) : Core :=
  let d := shapeDims (requestKind w)
  let dims := if bondShape w = 1 then (bondH w, bondW w) else d
  let k1 := { k with vrows := k.vrows.filter (fun e => !(u.vbase ≤ e.1 && e.1 < u.vbase + u.vlen))
                     badRows := k.badRows.filter (fun r => !(u.vbase ≤ r && r < u.vbase + u.vlen)) }
  let k2 := x.subs.foldl (fun c y => formSub c y.1 (newSub u.uid x.slot (requestKind w) y.2.1 dims.1 y.2.2 dims.2 clk)) k1
  withUnit k2 x.slot u

/-- A READY task dispatched (R327). -/
def dispatchTask (s : State) (p id : Nat) (t : Task) (x : Place) : State :=
  let u := freshUnit s id t x
  let s1 := setCore s x.core (coreDispatched (getCore s x.core) u (tcbBond t.body) x s.clk)
  putTask { (if x.subs.isEmpty then s1 else marksChanged s1) with uidSeq := s1.uidSeq + 1, sched := schedAfter s p } id
    { t with state := .run, headAt := none, blocking := false, waited := s.tb.tns - t.readyAt }

/-- DISPATCH (R327): the scheduler's next decision, if it is a READY task for this slot. -/
def execDispatch (core slot : Nat) (s : State) : Host.Outcome State Fault Refusal :=
  if s.clk < s.sched.next then .next s
  else
    match decision s with
    | some (p, .task id, x) =>
      match taskOf s id with
      | some t => if x.core = core && x.slot = slot then .next (dispatchTask s p id t x) else .next s
      | none => .next s
    | _ => .next s

/-- The state with the ns noted that a task had been READY when its unit goes on, which blocks no more (R324, R326). -/
def noteWaited (s : State) (id : Nat) : State :=
  match taskOf s id with
  | some t => { s with tasks := mapSet s.tasks id { t with headAt := none, blocking := false, waited := s.tb.tns - t.readyAt } }
  | none => s

/-- RESUME (R380): the scheduler's next decision, if it is pre-empted unit `k` for this slot; an image that still waits at home for a
remap is read after it (R237). -/
def execResume (core slot k : Nat) (s : State) : Host.Outcome State Fault Refusal :=
  if s.clk < s.sched.next then .next s
  else
    match decision s with
    | some (p, .away j, x) =>
      match nth s.aways j with
      | some a =>
        if j = k && x.core = core && x.slot = slot && !(chainOf s a.task).any (fun i => heldIn s i.pins) then
          .next (returnUnit { noteWaited s a.task with sched := schedAfter s p } a core slot x.vbase x.subs)
        else .next s
      | none => .next s
    | _ => .next s

/-- What stands at the head of a partition's queue, a READY task or the task of a pre-empted unit, with that task. -/
def headTask (s : State) (p : Nat) : Option (Waiter × Nat × Task) :=
  match readyQueue s p with
  | w :: _ => (taskOf s (waiterTask s w)).map (fun t => (w, waiterTask s w, t))
  | [] => none

/-- Whether a waiter is dispatchable: there is a place it can go to now (R325). -/
def dispatchable (s : State) (w : Waiter) : Bool := (waiterPlace s w []).isSome

/-- The tasks of a partition with the time noted since which its head stands undispatchable (R326). -/
def markHead (s : State) (p : Nat) : State :=
  let head := match headTask s p with
    | some (w, id, _) => if dispatchable s w then none else some id
    | none => none
  { s with tasks := s.tasks.map (fun e =>
      if e.2.part ≠ p || e.2.blocking then e
      else if head = some e.1 then (e.1, { e.2 with headAt := some (e.2.headAt.getD s.tb.tns) })
      else (e.1, { e.2 with headAt := none })) }

/-- The state with the head of a partition's queue blocking once it has stood there for 4 ms without being dispatchable (R326). -/
def blockHead (s : State) (part : Nat) : State :=
  match headTask s part with
  | none => s
  | some (w, id, t) =>
    match t.headAt with
    | none => s
    | some since =>
      if t.blocking || dispatchable s w || s.tb.tns < since + 4000000 then s
      else { s with tasks := mapSet s.tasks id { t with blocking := true } }

/-- BLOCKING (R326): the head of a partition's queue has stood there for 4 ms without being dispatchable. -/
def execBlocking (part : Nat) (s : State) : Host.Outcome State Fault Refusal := .next (blockHead s part)

/-- The scheduler's own clock: the heads of every queue marked, and those that have stood for 4 ms blocking before any decision of the
clock (R326). -/
def schedTick (s : State) : State :=
  if s.tasks.isEmpty then s else s.parts.foldl (fun t e => blockHead (markHead t e.1) e.1) s

/-! ## PREEMPTION (R327, R372) -/

/-- The effective priority a running unit is compared by: that of its task when it was dispatched or went on, since R324 counts the time
it has been READY (R324, R327). -/
def unitPrio (s : State) (u : Unit) : Nat := ((taskOf s u.task).map (fun t => effPrio t (t.readyAt + t.waited))).getD 7

/-- Whether the task of a unit has priority 7, which is not pre-empted (R327). -/
def unitTop (s : State) (u : Unit) : Bool := ((taskOf s u.task).map (fun t => tcbPrio t.body == 7)).getD true

/-- The units of a list of cores by effective priority, then core and slot, those of priority 7 and those that end left out: R327 names
only the unit of lowest effective priority (the model's reading, log 63). -/
def victims (s : State) (cores : List Nat) : List (Nat × Nat) :=
  (byKey (cores.flatMap (fun c => (span 0 4).filterMap (fun i =>
    let u := unitAt s c i
    if u.live && u.ending.isNone && !unitTop s u then some (unitPrio s u, c, i) else none)))).map (·.2)

/-- Whether a task could be placed on a core once the unit in a slot is away (R327). -/
def fitsWithout (s : State) (t : Task) (core slot : Nat) : Bool :=
  let k := getCore s core
  (taskPlace (setCore s core (withUnit (releaseAway k (unitOf k slot)) slot Unit.reset)) t [core]).isSome

/-- The unit the scheduler pre-empts: for a READY priority-7 task of a partition none of whose units is being pre-empted (R327). -/
def victim (s : State) : Option (Nat × Nat) :=
  (turnOrder s).findSome? (fun p =>
    if (coresOf (partOf s p).quads).any (fun c => s.preempts.any (fun e => e.1 / 4 == c)) then none
    else
      (readyQueue s p).findSome? (fun w =>
        match w, taskOf s (waiterTask s w) with
        | .task _, some t =>
          if tcbPrio t.body = 7 && resident s t.body && !dispatchable s w then
            (victims s (openCores s t [])).find? (fun v => fitsWithout s t v.1 v.2)
          else none
        | _, _ => none))

/-- The state with a unit asked to stop for a pre-emption (R372), which is an interrupt that sets its event latch (R81, R136); its group
has 4,096 courses to find a boundary (R373). -/
def askPreempt (s : State) (core slot : Nat) : State :=
  let u := unitAt s core slot
  if u.live && u.ending.isNone && !preempting s core slot then { setEvl s core slot with preempts := s.preempts ++ [(4 * core + slot, 4096)] } else s

/-- PREEMPTION (R372): a unit is asked to stop for the scheduler, its group stops at its boundary, and once everything of it has
stopped its image is written. -/
def execPreemption (core slot : Nat) (s : State) : Host.Outcome State Fault Refusal :=
  let u := unitAt s core slot
  if !u.live || u.ending.isSome then .next s
  else if preempting s core slot then
    if atBoundary s core slot then .next (stopGroup s core slot)
    else if unitStopped s core slot then .next (saveUnit s core slot)
    else .next s
  else if victim s = some (core, slot) then .next (askPreempt s core slot)
  else .next s

/-! ## The gatherer (R328 to R333) -/

/-- The bytes of a line (R328). -/
def lineBytes (l : BitVec 512) : List Byte := leBytes 64 l.toNat

/-- The state of a halted channel with its trace record (R331). -/
def haltChan (s : State) (c : Nat) (cause : BitVec 8) : State :=
  let ch := chanOf s c
  let t := withChan s c { ch with halted := some cause }
  traceWrite t ch.part 3 c (traceRec 6 ([BitVec.ofNat 8 c, cause, 0] ++ leBytes 4 ch.drops ++ leBytes 8 ch.bseq) t.tb.tns [])

/-- Why arming a copy of a template fails, if it does (R316, R331). -/
def armFault (s : State) (ch : Chan) (x : List Byte) (pa : Nat) : Option (BitVec 8) :=
  let pt := partOf s ch.part
  if tcbBad pt x || tcbPrio x = 7 || (armedAt s pa).isSome then some cOPERAND
  else if tcbForeign pt x then some cWINDOW
  else none

/-- The batch record of the open batch (R332). -/
def batchRecord (s : State) (c cause n tfirst : Nat) : List Byte :=
  let ch := chanOf s c
  let i := ch.bseq % ch.nbuf
  leBytes 8 ch.bseq ++ leBytes 2 n ++ [BitVec.ofNat 8 cause, BitVec.ofNat 8 c] ++ leBytes 4 ch.drops ++ leBytes 8 tfirst
  ++ leBytes 8 s.tb.tns ++ leBytes 8 (ch.buf + 64 * ((ch.bm1 + 1) * i)) ++ leBytes 8 (ch.tcba + 128 * i) ++ zeros 16

/-- The TCB of a closed batch armed once its writes are performed and the partition's share of the armed tasks has room (R237, R316, R331);
the next batch comes after. -/
def armBatch (s : State) (c : Nat) : State :=
  let ch := chanOf s c
  let tcbVa := ch.tcba + 128 * (ch.bseq % ch.nbuf)
  match ch.owes, ch.pins.find? (fun p => p.vpage ≤ tcbVa && tcbVa < p.vpage + p.span) with
  | some x, some p =>
    if armRoom s ch.part && !heldIn s ch.pins then
      armTask (withChan s c { ch with bseq := ch.bseq + 1, batch := none, owes := none }) ch.part tcbVa (p.pa + (tcbVa - p.vpage)) p.attr
        (p.vpage, p.span) x
    else s
  | _, _ => s

/-- The open batch of a channel closed (R331): its record and its TCB are written, and the TCB is armed, which waits for room alone; a
failure halts the channel. -/
def closeBatch (s : State) (c cause : Nat) : State :=
  let ch := chanOf s c
  match ch.batch with
  | none => s
  | some (n, tfirst) =>
    let i := ch.bseq % ch.nbuf
    let recVa := ch.breca + 64 * i
    let tcbVa := ch.tcba + 128 * i
    let s1 := withChan (putVia ch.pins (batchRecord s c cause n tfirst) recVa s) c { ch with drops := 0 }
    let tpl := pinBytes s1 ch.pins ch.tpl 128
    let x := tpl.1.take 8 ++ leBytes 8 recVa ++ tpl.1.drop 16
    if tpl.2 then haltChan s1 c cUNCORR
    else
      let s2 := putVia ch.pins x tcbVa s1
      match pinPa ch.pins tcbVa with
      | none => haltChan s2 c cXLATE
      | some (pa, _) =>
        match armFault s2 ch x pa with
        | some f => haltChan s2 c f
        | none => armBatch (withChan s2 c { chanOf s2 c with owes := some x }) c

/-- Requests in the inlet taken into the open batch, which closes by count (R329, R331). -/
def takeIn (c : Nat) : Nat → State → State
  | 0, s => s
  | fuel + 1, s =>
    let ch := chanOf s c
    match ch.batch, ch.inlet with
    | some (n, tfirst), (line, tns) :: rest =>
      if ch.owes.isSome || ch.halted.isSome then s
      else
        let at_ := ch.buf + 64 * ((ch.bm1 + 1) * (ch.bseq % ch.nbuf) + n)
        let s1 := putVia ch.pins ((lineBytes line).take 56 ++ leBytes 8 tns) at_ s
        let s2 := withChan s1 c { ch with inlet := rest, batch := some (n + 1, tfirst) }
        if n + 1 = ch.bm1 + 1 then closeBatch s2 c 0 else takeIn c fuel s2
    | _, _ => s

/-- Whether the partition that a virtual function serves exists and owns a gatherer channel (R393). -/
def ownsChan (s : State) (fn chan : Nat) : Bool := chan < 16 && (mapFind s.parts fn).any (fun p => p.gatmask.getLsbD chan)

/-- REQUEST_ARRIVAL (R328, R331, R393): a write of the host to an inlet through a virtual function; it waits while the inlet is full, and is
discarded where the function's partition does not own the channel. -/
def execRequestArrival (inlet : Inlet) (line : BitVec 512) (s : State) : Host.Outcome State Fault Refusal :=
  if ownsChan s inlet.fn inlet.chan then
    match inletOffer s inlet.chan line with
    | some t => .next (takeIn inlet.chan 64 t)
    | none => .next s
  else .next s

/-- Whether a channel has a request in its inlet, no open batch, and the TCB of the next one free (R331). -/
def batchOpens (s : State) (ch : Chan) : Bool :=
  ch.opened && ch.halted.isNone && ch.batch.isNone && !ch.inlet.isEmpty
  && ([0, 4, 6, 7] : List Nat).contains (pinByte s ch.pins (ch.tcba + 128 * (ch.bseq % ch.nbuf) + 120)).1.toNat

/-- BATCH_OPEN (R331): a batch opens for the first request in the inlet once the TCB of its place is free, in that clock. -/
def execBatchOpen (chan : Nat) (s : State) : Host.Outcome State Fault Refusal :=
  let ch := chanOf s chan
  match ch.inlet with
  | [] => .next s
  | (_, tns) :: _ =>
    if batchOpens s ch then .next (takeIn chan 64 (withChan s chan { ch with batch := some (0, tns) })) else .next s

/-- Whether the open batch of a channel has come to its deadline (R331). -/
def batchLate (s : State) (c : Nat) : Bool :=
  let ch := chanOf s c
  ch.halted.isNone && ch.owes.isNone && ch.deadline ≠ 0 && (match ch.batch with
    | some (_, tfirst) => tfirst + ch.deadline ≤ s.tb.tns
    | none => false)

/-- BATCH_DEADLINE (R331): the open batch closes when its deadline has come; a TCB that waits to be armed is tried again. -/
def execBatchDeadline (chan : Nat) (s : State) : Host.Outcome State Fault Refusal :=
  let ch := chanOf s chan
  if ch.halted.isNone && ch.owes.isSome then .next (armBatch s chan)
  else if batchLate s chan then .next (closeBatch s chan 1)
  else .next s

/-- The state at the end of a clock: batches whose deadline has come close after every request of the clock (R331, R337). -/
def closeLate (s : State) : State :=
  s.chans.foldl (fun t e => if batchLate t e.1 then closeBatch t e.1 1 else t) s

/-- A write of the host to an inlet that is narrower than a line or unaligned: refused and counted, where the function's partition owns the channel
(R328, R393). -/
def hostShort (s : State) (fn chan : Nat) : State :=
  if ownsChan s fn chan then inletRefuse s chan else s

/-- The channel a gatherer command names. -/
def gatChan (q : Quad) : Nat := wbits q.cw0 0 4

/-- Whether a gatherer command may start: none other acts on its channel, and no batch of it waits to be armed, which the gatherer does
first (R331, R338). -/
def gatMay (s : State) (c : Cmd) : Bool :=
  s.cmds.all (fun r => r.cmd.eng != 3 || gatChan r.cmd.quad != gatChan c.quad) && (chanOf s (gatChan c.quad)).owes.isNone

/-- A gatherer command started and ended with a status. -/
def gatEnd (p : Poster) (s : State) (c : Cmd) (status sub : BitVec 8) (detail count : Nat) : State :=
  takeHead s p 3 { runOf c with worked := true, status := status, sub := sub, detail := detail, count := count }

/-- Whether a channel record breaks R330. -/
def chanBad (r : List Byte) : Bool :=
  fieldNat r 39 25 != 0 || fieldNat r 38 1 == 0 || fieldNat r 38 1 > 64 || fieldNat r 36 2 > 4095
  || fieldNat r 0 8 % 64 != 0 || fieldNat r 8 8 % 64 != 0 || fieldNat r 16 8 % 128 != 0 || fieldNat r 24 8 % 128 != 0

/-- The regions of a channel record pinned: request buffer, batch records, template, TCBs (R330). -/
def chanPins (s : State) (p : Nat) (r : List Byte) : List Pin ⊕ BitVec 8 :=
  let n := fieldNat r 38 1
  let add := fun (kind : AccessKind) (va len : Nat) (got : List Pin ⊕ BitVec 8) =>
    match got with
    | .inr c => (Sum.inr c : List Pin ⊕ BitVec 8)
    | .inl pins => if va + len > 2 ^ 55 then .inr cXLATE else hubPins s p kind 0 (va + len - 1) (len / 65536 + 2) va pins
  add .write (fieldNat r 24 8) (128 * n)
    (add .read (fieldNat r 16 8) 128
      (add .write (fieldNat r 8 8) (64 * n) (add .write (fieldNat r 0 8) (64 * (fieldNat r 36 2 + 1) * n) (.inl []))))

/-- A GAT.OPEN started (R330). -/
def gatOpenGo (p : Poster) (s : State) (c : Cmd) : State :=
  let n := gatChan c.quad
  let pt := partOf s c.part
  let got := pinBytes s c.pins c.quad.cw1.toNat 64
  let r := got.1
  if !pt.gatmask.getLsbD n then gatEnd p s c cWINDOW 0 0 0
  else if got.2 then gatEnd p s c cUNCORR 0 0 0
  else if chanBad r || (chanOf s n).opened then gatEnd p s c cOPERAND 0 0 0
  else
    match chanPins s c.part r with
    | .inr cause => gatEnd p s c cause 0 0 0
    | .inl pins =>
      let tpl := pinBytes s pins (fieldNat r 16 8) 128
      if tpl.2 then gatEnd p s c cUNCORR 0 0 0
      else if tcbBad pt tpl.1 || tcbPrio tpl.1 = 7 || tcbForeign pt tpl.1 then gatEnd p s c cOPERAND 0 0 0
      else
        let ch : Chan := { opened := true, halted := none, part := c.part, buf := fieldNat r 0 8, breca := fieldNat r 8 8
                           tpl := fieldNat r 16 8, tcba := fieldNat r 24 8, deadline := fieldNat r 32 4, bm1 := fieldNat r 36 2
                           nbuf := fieldNat r 38 1, pins := pins, inlet := [], bseq := 0, batch := none, owes := none
                           drops := (chanOf s n).drops, closing := none }
        gatEnd p (withChan s n ch) c 0 0 n 0

/-- GAT.OPEN (R330). -/
def execGatOpen (p : Poster) (q : Quad) (s : State) : Host.Outcome State Fault Refusal :=
  startCmd 3 .gatOpen p q gatMay (gatOpenGo p) s

/-- Requests a channel would discard: those of the open batch and those in the inlet. -/
def chanHolds (ch : Chan) : Nat := ((ch.batch.map (·.1)).getD 0) + ch.inlet.length

/-- The state with a channel closed; refusals not yet reported stay counted (R328, R333). -/
def closeChan (s : State) (c : Nat) : State := withChan s c { Chan.reset with drops := (chanOf s c).drops }

/-- A GAT.CLOSE without FLUSH started (R333). -/
def gatCloseGo (p : Poster) (s : State) (c : Cmd) : State :=
  let n := gatChan c.quad
  let ch := chanOf s n
  if !(partOf s c.part).gatmask.getLsbD n then gatEnd p s c cWINDOW 0 0 0
  else if !ch.opened then gatEnd p s c cOPERAND 0 0 0
  else gatEnd p (closeChan s n) c 0 0 (chanHolds ch) ch.bseq

/-- GAT.CLOSE (R333). -/
def execGatClose (p : Poster) (q : Quad) (s : State) : Host.Outcome State Fault Refusal :=
  startCmd 3 .gatClose p q gatMay (gatCloseGo p) s

/-- The work of a started GAT.CLOSE with FLUSH (R333): the inlet's requests are taken in as batches open, then the open batch
closes; a halted channel discards them and reports its fault. -/
def flushWork (s : State) (r : Run) : State :=
  let n := gatChan r.cmd.quad
  let ch := chanOf s n
  match ch.halted with
  | some cause =>
    setRun (closeChan s n) { r with worked := true, status := cause, sub := 2, detail := chanHolds ch, count := ch.bseq }
  | none =>
    if ch.owes.isSome then armBatch s n
    else if !ch.inlet.isEmpty then s
    else if ch.batch.isSome then closeBatch s n 2
    else setRun (closeChan s n) { r with worked := true, count := ch.bseq }

/-- A GAT.CLOSE with FLUSH started (R333): inlet writes after it are refused. -/
def gatFlushGo (p : Poster) (s : State) (c : Cmd) : State :=
  let n := gatChan c.quad
  let ch := chanOf s n
  if !(partOf s c.part).gatmask.getLsbD n then gatEnd p s c cWINDOW 0 0 0
  else if !ch.opened then gatEnd p s c cOPERAND 0 0 0
  else flushWork (takeHead (withChan s n { ch with closing := some ch.inlet.length }) p 3 (runOf c)) (runOf c)

/-- GAT.CLOSE with FLUSH (R333). -/
def execGatCloseFlush (p : Poster) (q : Quad) (s : State) : Host.Outcome State Fault Refusal :=
  startCmd 3 .gatFlush p q gatMay (gatFlushGo p) s

/-- A gatherer command whose CODE is reserved started (R44). -/
def gatRejected (p : Poster) (q : Quad) (s : State) : Host.Outcome State Fault Refusal :=
  startCmd 3 .reserved p q (fun _ _ => true) (startRejected 3 p) s

/-- A TRC command whose CODE is reserved started (R44). -/
def trcRejected (p : Poster) (q : Quad) (s : State) : Host.Outcome State Fault Refusal :=
  startCmd 4 .reserved p q (fun _ _ => true) (startRejected 4 p) s

/-! ## COMMAND_END (R271, R281, R282, R292) -/

/-- What a started command that has not done its work still tries, by engine. -/
def commandWork (s : State) (r : Run) : State :=
  match r.cmd.eng with
  | 0 => hodRun s r
  | 1 => tierWork s r
  | 2 => spliceWork s r
  | 3 => flushWork s r
  | _ => s

/-- Whether a TIER.STOP waits for the run it stops (R305). -/
def runWaits (s : State) (r : Run) : Bool :=
  match r.waits with
  | some id => (runById s id).isSome
  | none => false

/-- The state after lines have gone into inlets: their channels take them in (R331). -/
def takeLines (s : State) : List (Nat × BitVec 512) → State
  | [] => s
  | (c, _) :: more => takeLines (takeIn c 64 s) more

/-- COMMAND_END (R271, R281, R282, R292): what a started command still has to do is tried, and once everything it does is
performed it ends. -/
def execCommandEnd (k : Nat) (s : State) : Host.Outcome State Fault Refusal :=
  match nth s.cmds k with
  | none => .next s
  | some r =>
    match r.more with
    | x :: xs => .next (enterMore s r x xs)
    | [] =>
      if !r.worked then .next (commandWork s r)
      else if !r.lines.isEmpty then
        let x := pushLines s r.lines
        .next (takeLines (setRun x.1 { r with lines := x.2 }) r.lines)
      else if cmdDeps s r.cmd.id || !bobReady s r.cmd || runWaits s r || (r.cmd.eng = 4 && s.heldw.any (fun w => w.trace == some r.cmd.part)) then .next s
      else .next (endCmd s r)

end Sys2Proof.Machine
end

