-- ==== Sys2Proof/Machine/Containment.lean ====
section
/-! DEFINITION. Where faults are taken and contained: trap entry, ERET, scalar waits, soft errors, replay and escalation, the
in-field test and spare cores (R10, R81, R112, R122, R125, R137, R203, R362 to R371, R381 to R384). -/
namespace Sys2Proof.Machine

/-! ## TRAP_ENTRY (R122, R363, R384) -/

/-- Whether a trap of a unit must wait: a result of an earlier word is still under way, or an earlier word is still compared (R122, R141). -/
def trapWaiting (k : Core) (u : Unit) : Bool := resultsOut k u.uid || u.compare.isSome

/-- Whether the vector words of a unit have landed all their rows, what a FULL tile holds back apart: the state a handler finds at a cause
of the vector stream (R365; log 59). -/
def rowsSettled (s : State) (core : Nat) (k : Core) (uid : Nat) : Bool :=
  k.vec.flights.all (fun f => f.uid != uid
    || (f.next ≥ f.last && s.deps.all (fun d => d.src != .vec core f.id || d.held)))

/-- Whether the first pending cause of a unit may be taken: every earlier scalar word has completed (R122), and where the vector stream has
raised it, that stream's words have run out (R365). -/
def causeReady (s : State) (core slot : Nat) : Bool :=
  let k := getCore s core
  let u := unitOf k slot
  !trapWaiting k u && (match u.pending with
    | p :: _ => p.stream != 8 || rowsSettled s core k u.uid
    | [] => true)

/-- The unit in a slot with its first pending cause taken at the word at its PC (R123, R363). -/
def takePending (s : State) (core slot : Nat) : State :=
  let u := unitAt s core slot
  match u.pending with
  | [] => s
  | p :: ps => setUnitAt s core slot (trapUnit s { u with pending := ps } p.stream p.cause p.eval u.pc)

/-- TRAP_ENTRY (R122, R363, R365): every earlier scalar word having completed, a unit in U mode takes the BRK that follows the word it has
just completed under SSTEP (R138), else its first pending cause; a pre-emption goes before that (R384). -/
def execTrapEntry (core slot : Nat) (s : State) : Host.Outcome State Fault Refusal :=
  let u := unitAt s core slot
  if u.live && u.mode = .u && u.ending.isNone && !trapWaiting (getCore s core) u then
    if u.stepped then .next (setUnitAt s core slot (trapTaken u 9 cBRK 0 u.pc s.clk))
    else if preempting s core slot || !causeReady s core slot then .next s
    else .next (takePending s core slot)
  else .next s

/-! ## A word held because it traps, and the checker core's comparison (R122, R141) -/

/-- Whether the unit of a slot has taken a trap, or is about to end for one, between two states. -/
def trapped (s t : State) (core slot : Nat) : Bool :=
  let u := unitAt s core slot
  let v := unitAt t core slot
  u.mode = .u && u.uid == v.uid && (v.mode = .s || (match v.ending with
    | some c => bypasses s u c
    | none => false))

/-- Whether the unit of a slot comes to its end between two states. -/
def ends (s t : State) (core slot : Nat) : Bool := (unitAt s core slot).ending.isNone && (unitAt t core slot).ending.isSome

/-- Whether a word of the unit of a slot is held at issue because it traps in U mode while the results of earlier words are still under
way: a trap is entered once every earlier word has completed (R122). Behind a word that the checker core does not agree to, one that traps
in either mode is held, since that word's CHECK comes first (R141). -/
def trapHeld (s : State) (core slot : Nat) : Host.Outcome State Fault Refusal → Bool
  | .next t =>
    let u := unitAt s core slot
    (resultsOut (getCore s core) u.uid && trapped s t core slot)
    || (u.compare.isSome && (trapped s t core slot || ends s t core slot))
  | _ => false

/-- How the checker core compares a word (R141): not by itself; as an event whose effect waits at the head of its queue, so that a
divergence is found there; or as its instruction and operands. -/
inductive Compared where
  | folded | queued | word
  deriving DecidableEq, Repr

/-- How a word is compared: the table of R141, and HL.CANCEL, which acts outside the core, with the TSK words (log 52). -/
def comparedAs : Instr → Compared
  | .stb _ _ _ _ | .sth _ _ _ _ | .stw _ _ _ _ | .std _ _ _ _ => .queued
  | .amoAdd _ _ _ _ _ _ | .amoAnd _ _ _ _ _ _ | .amoOr _ _ _ _ _ _ | .amoXor _ _ _ _ _ _ => .queued
  | .amoMin _ _ _ _ _ _ | .amoMax _ _ _ _ _ _ | .amoSwap _ _ _ _ _ _ | .cas _ _ _ _ _ _ => .queued
  | .portGo _ _ => .queued
  | .putsr _ _ | .trap _ | .brk | .halt | .eret | .wfe | .sleepuntil _ => .word
  | .engStart _ _ | .engBind _ | .engFork _ | .engStop _ | .engStat _ _ => .word
  | .tskArm _ | .tskSigDec _ | .tskSigWake _ | .tskEnd _ | .tskRetry _ | .hlCancel _ _ | .hlCancelReset _ _ => .word
  | .knotSet _ | .knotClr _ | .knotWait _ => .word
  | .tokGive _ | .tokTake _ | .tokCfgClaim _ _ | .tokCfgRelease _ _ => .word
  | .barArrive _ | .barWait _ | .bobArrive _ | .bobExpect _ _ | .bobWait _ => .word
  | .fabBond _ _ | .fabBondNw _ _ | .fabDrain _ | .fabQuery _ _ => .word
  | _ => .folded

/-- Whether a word that a unit has issued has put something into a queue that leaves the core: an access or a command. -/
def enqueued (s t : State) (core : Nat) : Bool := (getCore s core).accSeq != (getCore t core).accSeq || s.cmdSeq != t.cmdSeq

/-- What a word of the unit of a slot comes to where the checker core disagrees (R141; log 52): one compared as it stands, and one that
one core finds malformed (R23), raises CHECK in place of its effect; one whose event waits at its queue carries the disagreement there for
eight clocks; any other folds it into the digest. `o` is what the word does. -/
def checkedAs (core slot : Nat) (how : Compared) (s : State) (o : Host.Outcome State Fault Refusal) : Host.Outcome State Fault Refusal :=
  let u := unitAt s core slot
  if u.diverged then
    match how, o with
    | .word, .next _ => .next (setUnitAt s core slot (trapUnit s { u with diverged := false } 9 cCHECK 0 u.pc))
    | .queued, .next t =>
      if enqueued s t core then
        .next (setUnitAt t core slot { unitAt t core slot with diverged := false, compare := some (s.clk + 8, u.pc, u.mode == .s) })
      else o
    | _, _ => o
  else o

/-- What a scalar word comes to beside the checker core. -/
def checkedWord (core slot : Nat) (i : Instr) (s : State) (o : Host.Outcome State Fault Refusal) : Host.Outcome State Fault Refusal :=
  checkedAs core slot (comparedAs i) s o

/-- Whether a word is held at issue: it traps and must wait, or it acts outside the core behind a word that the checker core does not
agree to (R122, R141). -/
def checkHeld (core slot : Nat) (how : Compared) (s : State) (o : Host.Outcome State Fault Refusal) : Bool :=
  ((unitAt s core slot).compare.isSome && how == .word) || trapHeld s core slot o

/-- Whether an access stands at the head of its queue, or behind it, when a word that issued at a clock is found to differ (R141). -/
def discarded (uid issue : Nat) (a : Access) : Bool := a.uid == uid && issue ≤ a.issue

/-- The accesses of a core without those that a divergence discards; an add merged into one of these stands by itself again. -/
def dropHeld (uid issue : Nat) (accs : List Access) : List Access :=
  let gone := (accs.filter (discarded uid issue)).map (·.id)
  (accs.filter (fun a => !discarded uid issue a)).map (fun a => match a.join with
    | some j => if gone.contains j then { a with join := none } else a
    | none => a)

/-- The slot of a core whose unit's compared word has had its eight clocks and stands before every result still to come: its CHECK is
raised once earlier words have completed (R122, R141). -/
def compareDue (k : Core) (clk : Nat) : Option Nat :=
  (k.units.find? (fun e => e.2.live && (match e.2.compare with
    | some c => c.1 ≤ clk && !resultsOut { k with accs := dropHeld e.2.uid (c.1 - 8) k.accs } e.2.uid
    | none => false))).map (·.1)

/-- The unit with the commands posted at or after a clock taken back, their queue entries and record reservations free (R141). -/
def dropPosted (issue : Nat) (u : Unit) : Unit :=
  let kept := u.ports.map (fun p => (p.1, { p.2 with queue := p.2.queue.filter (fun c => c.posted < issue) }))
  let taken := ((queuedCmds u).filter (fun c => issue ≤ c.posted && qMode c.quad ≤ 1)).length
  { u with ports := kept, evqRsv := u.evqRsv - taken }

/-- The state with CHECK raised at a compared word that the checker core did not agree to: what it and later words hold in their queues
is discarded, and the trap names it (R141); a word that issued in S mode ends its unit (R125). -/
def raiseCheck (s : State) (core slot : Nat) : State :=
  let k := getCore s core
  let u := unitOf k slot
  match u.compare with
  | none => s
  | some (due, pc, smode) =>
    let t := noteFlags (setCore s core { k with accs := dropHeld u.uid (due - 8) k.accs }) core slot
    let v := { dropPosted (due - 8) (unitAt t core slot) with compare := none }
    if smode && u.ending.isNone then setUnitAt t core slot { v with ending := some cCHECK, wait := none }
    else setUnitAt t core slot (trapUnit s { v with stepped := false } 9 cCHECK 0 pc)

/-! ## ERET (R137, R362, R363) -/

/-- A modulo loop with its buffer refilled from the words after its PC (R112). -/
def refill (k : Core) (n : Nat) (pc : BitVec 14) (x : ModState) : ModState := { x with body := loopBody k n pc.toNat x.len }

/-- A held stream released: one that is FAULTED clears CAUSE and goes back to its mode (R362), and a loop's buffer is refilled. -/
def releasedStrm (k : Core) (u : Unit) (n : Nat) (m : Strm) : Strm :=
  let m1 := if m.mode = .faulted then { m with cause := 0, mode := if u.group.getLsbD n then .bound else .forked } else m
  { m1 with mod := m1.mod.map (refill k n m1.pc) }

/-- The core with a list of streams of a unit released; one whose cause is still pending stays FAULTED, and a remote row that mismatched
goes to egress once more. -/
def releaseStreams (u : Unit) : List Nat → Core → Core
  | [], k => k
  | n :: ns, k =>
    releaseStreams u ns (if u.pending.any (fun p => p.stream == n) then k else unstick (withStrm k n (releasedStrm k u n (strmOf k u.uid n))) n)

/-- The state with the clocks a launched group was away added to STAMPOFF (R109). -/
def groupBack (s : State) : State :=
  let u := getUnit s
  let k := curCore s
  match u.away with
  | none => s
  | some b =>
    let m := groupFree k u
    let t := if launched k u then addStampoff s s.focus.core s.focus.slot (max (s.clk + 1) m - max b m) else s
    setUnit t { getUnit t with away := none }

/-- What ERET does (R137, R362): one pending cause is taken at once, every earlier word having completed (R122, R365), else the unit goes on in
U mode. -/
def eretBody (t : State) : Act :=
  let u := getUnit t
  let k := curCore t
  if u.mode = .u then .trap cPRIV 0
  else if !u.pending.isEmpty && !causeReady t t.focus.core t.focus.slot then .hold
  else
    let k1 := releaseStreams u (unitStreams k u.uid) k
    let t1 := setUnit (setCur t k1) { trapReturned u with engineAt := t.clk + 1 }
    match u.pending with
    | [] => .jump (groupBack t1) u.epc
    | _ :: _ => .leave (takePending t1 t1.focus.core t1.focus.slot)

/-- ERET (R137). -/
def execEret (s : State) : Host.Outcome State Fault Refusal := scalarWord .nop eretBody s

/-! ## SCALAR_WAIT_RESUME (R80, R81) -/

/-- A waiting word tried again from its start. -/
def retryWait (i : Instr) (s : State) : Host.Outcome State Fault Refusal :=
  match i with
  | .wfe => execWfe s
  | .knotWait num => execKnotWait num s
  | .tokGive num => execTokGive num s
  | .tokTake num => execTokTake num s
  | .tokCfgClaim ra rb => execTokCfgClaim ra rb s
  | .tokCfgRelease ra rb => execTokCfgRelease ra rb s
  | .talloc rd ra => execTalloc rd ra s
  | .tfree ra => execTfree ra s
  | .tsetfEmpty ra rb => execTsetfEmpty ra rb s
  | .tsetfFull ra rb => execTsetfFull ra rb s
  | .tsetfTarget ra rb => execTsetfTarget ra rb s
  | .twait ra rb => execTwait ra rb s
  | .engStart ra rb => execEngStart ra rb s
  | .fabBond rd ra => execFabBond rd ra s
  | .fabBondNw rd ra => execFabBondNw rd ra s
  | .fabDrain ra => execFabDrain ra s
  | .barArrive num => execBarArrive num s
  | .barWait num => execBarWait num s
  | .bobWait ra => execBobWait ra s
  | .portGo rd eng => execPortGo rd eng s
  | .evqWait => execEvqWait s
  | .sleepuntil ra => execSleepuntil ra s
  | .tskArm ra => execTskArm ra s
  | .halt => execHalt s
  | .tskEnd ra => execTskEnd ra s
  | _ => .next s

/-- The outcome with another agent back in focus. -/
def withFocus (f : Focus) : Host.Outcome State Fault Refusal → Host.Outcome State Fault Refusal
  | .next t => .next { t with focus := f }
  | o => o

/-- Whether an interrupt of the unit of a slot is pending, which it takes at the word it waits at (R81). -/
def interrupted (u : Unit) : Bool := u.mode = .u && !u.pending.isEmpty

/-- SCALAR_WAIT_RESUME (R80, R81): the word a unit waits at is tried again, unless the unit has an interrupt to take there. -/
def execScalarWaitResume (core slot : Nat) (s : State) : Host.Outcome State Fault Refusal :=
  let u := unitAt s core slot
  match u.wait with
  | none => .next s
  | some i =>
    if interrupted u then .next s
    else
      let o := retryWait i (focusOn s core slot 0)
      if checkHeld core slot (comparedAs i) s o then .next s else withFocus s.focus (checkedWord core slot i (focusOn s core slot 0) o)

/-! ## SUB_ARRAY_REPLAY (R203, R370, R371) -/

/-- The words issued since MCNT last advanced (R203). -/
def sinceMark (b : Sub) : List WinWord := b.win.drop (b.win.length - b.age)

/-- Whether every block a list of words writes is first written by an MMAC with ACCDIS = 1 (R203). -/
def firstByAccdis : List WinWord → List Nat → Bool
  | [], _ => true
  | w :: ws, seen => (w.accdis || w.blocks.all seen.contains) && firstByAccdis ws (seen ++ w.blocks)

/-- Whether a word is an MLDW. -/
def isLoad : Instr → Bool
  | .mldw _ _ _ _ _ _ => true
  | _ => false

/-- Whether a word is an MSWAP. -/
def isSwap : Instr → Bool
  | .mswap _ => true
  | _ => false

/-- Whether an MLDW of a list of words follows an MSWAP of it (R203). -/
def loadAfterSwap : List WinWord → Bool
  | [] => false
  | w :: ws => (isSwap w.word && ws.any (fun x => isLoad x.word)) || loadAfterSwap ws

/-- Whether an MEPI of the window has deposited a word or handed over a row (R203). -/
def epiDeposited (s : State) (core n : Nat) (b : Sub) (w : WinWord) : Bool :=
  w.mepi && (match b.flights.find? (fun f => f.id == w.id) with
    | none => true
    | some f => match f.effect with
      | .epiRemote _ rows => rows.length < w.out
      | _ => f.retired || (s.deps.filter (fun d => d.src == .mat core n w.id)).length < w.out)

/-- The conditions of R203 for replay. -/
def mayReplay (s : State) (core n : Nat) (b : Sub) : Bool :=
  b.age ≤ 64 && b.age ≤ b.win.length && firstByAccdis (sinceMark b) [] && !(sinceMark b).any (epiDeposited s core n b)
  && !loadAfterSwap (sinceMark b)

/-- The INV marks after some blocks, and the block an error was found in, have been discarded (R201, R203). -/
def discardBlocks (inv : List Nat) (blocks : List Nat) (block : Option Nat) : List Nat := markInv inv (blocks ++ block.toList) []

/-- The INV marks after some words have been issued again (R193, R197, R201). -/
def reissueInv (inv : List Nat) (ws : List WinWord) : List Nat :=
  ws.foldl (fun m w => markInv m w.sets w.clears) inv

/-- The word numbers at which a replay would start. -/
def replayPc (k : Core) (n : Nat) (b : Sub) : BitVec 14 :=
  match sinceMark b with
  | w :: _ => w.pc
  | [] => (matOf k n).pc

/-- The state with what some words of a sub-array were still to deposit or hand over suppressed (R203 step 1; log 45). -/
def suppress (s : State) (core n : Nat) (ids : List Nat) : State :=
  let k := getCore s core
  let t := { s with deps := s.deps.filter (fun d => match d.src with
    | .mat c j id => !(c = core && j = n && ids.contains id)
    | _ => true) }
  setCore t core { k with subs := k.subs.map (fun e => if e.1 = n then
    (n, { e.2 with flights := e.2.flights.map (fun f => match f.effect with
      | .epiRemote ha _ => if ids.contains f.id then { f with effect := .epiRemote ha [] } else f
      | _ => f) }) else e) }

/-- A fault that replay does not repair (R371): the words issued since the advance deposit nothing more, the blocks written since it and
the one in error are INV, and the stream is FAULTED at the oldest word replay would have issued again; PC goes on naming the loop
word of a loop under way (R112). -/
def escalate (s0 : State) (core slot n : Nat) (b0 : Sub) (block : Option Nat) (cause : BitVec 8) : State :=
  let s := suppress s0 core n ((sinceMark b0).map (·.id))
  let k := getCore s core
  let b := (subOf k n).getD b0
  let pc := replayPc k n b
  let m := matOf k n
  let k1 := { k with subs := mapSet k.subs n { b with inv := discardBlocks b.inv b.touched block } }
  streamFault (setCore s core (withMat k1 n (if m.mod.isSome then m else { m with pc := pc }))) core slot n cause (pcEval pc)

/-- A word in flight that is issued again `d` clocks later. -/
def flightAgain (ids : List Nat) (d : Nat) (f : MFlight) : MFlight :=
  if ids.contains f.id && !f.retired then
    { f with due := f.due + d, issue := match f.effect with
      | .epiRemote _ _ => f.issue + d
      | _ => f.issue }
  else f

/-- A word that had retired, in flight once more `d` clocks later; its token has been given (R203). -/
def secondFlight (b : Sub) (d : Nat) (w : WinWord) : MFlight :=
  { id := w.id, uid := b.holder, slot := b.slot, issue := w.issue + d, due := w.due + d, mark := w.mark, give := 0xF, pc := w.pc
    handles := w.handles, effect := w.effect, retired := false, unacked := 0, stuck := false, late := 0 }

/-- A sub-array whose words since the advance are issued again `d` clocks later, its sequencer free at `free` (R203); an error in a
block that none of them writes is not repaired by that, and the block is INV (R201). -/
def subAgain (b : Sub) (d free : Nat) (block : Option Nat) : Sub :=
  let ws := sinceMark b
  let ids := ws.map (·.id)
  let left := block.filter (fun x => !ws.any (fun w => w.blocks.contains x))
  { b with
    flights := b.flights.map (flightAgain ids d)
      ++ (ws.filter (fun w => !b.flights.any (fun f => f.id == w.id))).map (secondFlight b d)
    inv := markInv (reissueInv (discardBlocks b.inv b.touched none) ws) left.toList []
    win := b.win.map (fun w => if ids.contains w.id then { w with issue := w.issue + d, due := w.due + d } else w)
    loadFree := if ws.any (fun w => isLoad w.word) then b.loadFree + d else b.loadFree
    arrayFree := if ws.any (fun w => !w.mepi && !w.blocks.isEmpty) then b.arrayFree + d else b.arrayFree
    drainFree := if ws.any (·.mepi) then b.drainFree + d else b.drainFree
    replayTo := free }

/-- The REPLAY record of a replay (R405). -/
def replayRec (core n : Nat) (b : Sub) (cause : BitVec 8) (pc : BitVec 14) (tns : Nat) : List Byte :=
  traceRec 4 ([BitVec.ofNat 8 n] ++ leBytes 2 core ++ [cause, BitVec.ofNat 8 (sinceMark b).length]) tns
    (leBytes 4 b.mcnt.toNat ++ leBytes 4 pc.toNat)

/-- What a replay of some words `d` clocks later consumes again: the operands the window keeps of a word that read uncorrectable ones
(R203). -/
def upsetAgain (n d : Nat) (ws : List WinWord) : List SubUpset :=
  (ws.filter (·.bad)).map (fun w => { sub := n, due := w.issue + d, block := none, cause := cUNCORR })

/-- The state after a replay: once the words in flight have retired, those since the advance issue again in their order and at
their distances, and a launched group's STAMPOFF takes the clocks, with those it has already stood still for a trap (R109, R203, R370). A word whose retained operands are
uncorrectable brings the second fault of R371 in the clock it issues again. -/
def replaySub (s : State) (core slot n : Nat) (b : Sub) (block : Option Nat) (cause : BitVec 8) : State :=
  let k := getCore s core
  let u := unitOf k slot
  let m := matOf k n
  let ws := sinceMark b
  let start := b.flights.foldl (fun x f => if f.retired then x else max x f.due) (s.clk + 1)
  let d := match ws with
    | w :: _ => start - w.issue
    | [] => 0
  let ids := ws.map (·.id)
  let free := m.issueAt + d
  let before := max (u.away.getD s.clk) (groupFree k u)
  let s1 := { s with deps := s.deps.map (fun x => match x.src with
    | .mat c j id => if c = core && j = n && ids.contains id then { x with due := x.due + d } else x
    | _ => x) }
  let s2 := setCore s1 core (withMat { k with
    subs := mapSet k.subs n (subAgain b d free block), upset := k.upset ++ upsetAgain n d ws } n { m with issueAt := free })
  let s3 := if launched k u && u.group.getLsbD n then
      let t := addStampoff s2 core slot (max free before - before)
      setUnitAt t core slot { unitAt t core slot with away := u.away.map (fun _ => max free before) }
    else s2
  traceWrite s3 u.part noEngine core (replayRec core n b cause (replayPc k n b) s.tb.tns)

/-- The state with a sub-array's replay over, what it was still to consume again dropped with it (R371). -/
def endReplay (s : State) (core n : Nat) : State :=
  let k := getCore s core
  setCore s core { k with
    upset := k.upset.filter (fun e => e.sub != n || e.due ≤ s.clk)
    subs := k.subs.map (fun e => if e.1 = n then (n, { e.2 with replayTo := min e.2.replayTo s.clk }) else e) }

/-- SUB_ARRAY_REPLAY (R203, R370, R371): a sub-array that has consumed uncorrectable data, or whose word mismatched, replays, or
the fault escalates. -/
def execSubArrayReplay (core sub : Nat) (s : State) : Host.Outcome State Fault Refusal :=
  let k := getCore s core
  match k.upset.find? (fun e => e.sub == sub && e.due ≤ s.clk) with
  | none => .next s
  | some e =>
    let t := setCore s core { k with upset := k.upset.erase e }
    match subOf k sub, (subOf k sub).bind (fun b => slotOfUid k b.holder) with
    | some b, some slot =>
      if s.clk < b.replayTo || !mayReplay s core sub b then .next (endReplay (escalate t core slot sub b e.block e.cause) core sub)
      else .next (replaySub t core slot sub b e.block e.cause)
    | _, _ => .next t

/-! ## Soft errors and mismatches (R141, R366, R367, R369) -/

/-- The state with the control core and the checker core of a unit disagreeing: CHECK comes at the next word that is compared (R141). -/
def checkScalar (s : State) (core slot : Nat) : State :=
  let u := unitAt s core slot
  if u.live && u.ending.isNone && u.compare.isNone then setUnitAt s core slot { u with diverged := true } else s

/-- The state with a remote row of a sub-array mismatched: the row stays, and CHECK is raised in the stream (R369). -/
def checkEgress (s : State) (core n : Nat) : State :=
  let k := getCore s core
  match (subOf k n).bind (fun b => b.flights.find? (fun f => match f.effect with
      | .epiRemote _ (_ :: _) => true
      | _ => false)) with
  | none => s
  | some f =>
    if (unitOf k f.slot).live then
      streamFault (setCore s core { k with subs := k.subs.map (fun e => if e.1 = n then
        (n, { e.2 with flights := e.2.flights.map (fun g => if g.id = f.id then { g with stuck := true } else g) }) else e) })
        core f.slot n cCHECK (pcEval f.pc)
    else s

/-- A list of numbers with one more, once. -/
def addNat (m : List Nat) (x : Nat) : List Nat := if m.contains x then m else m ++ [x]

/-- The state after a soft error or a mismatch (log 21). -/
def applyUpset (s : State) : Upset → State
  | .line l => { s with poison := addNat s.poison l }
  | .word core key => setCore s core { getCore s core with spoil := addNat (getCore s core).spoil key }
  | .row core row => setCore s core { getCore s core with badRows := addNat (getCore s core).badRows row }
  | .imem core word => setCore s core { getCore s core with badWords := addNat (getCore s core).badWords word }
  | .icache core line =>
    setCore s core { getCore s core with icache := (getCore s core).icache.map (fun e => if e.1 = line then (line, true) else e) }
  | .sub core sub check block =>
    setCore s core { getCore s core with
      upset := (getCore s core).upset ++ [{ sub := sub, due := s.clk, block := block, cause := if check then cCHECK else cUNCORR }] }
  | .vector core => setCore s core { getCore s core with mismatch := true }
  | .egress core sub => checkEgress s core sub
  | .scalar core slot => checkScalar s core slot
  | .context core slot =>
    let u := unitAt s core slot
    if u.live then setUnitAt s core slot { u with ending := some (u.ending.getD cUNCORR), wait := none } else s

/-! ## The in-field test (R381 to R383) -/

/-- The cores of a quad (R9). -/
def quadCores (q : Nat) : List Nat := span (4 * q) 4

/-- Whether a quad holds a unit. -/
def quadBusy (s : State) (q : Nat) : Bool := (quadCores q).any (fun c => (getCore s c).units.any (fun e => e.2.live))

/-- The state with every unit of a list of cores asked to stop (R372). -/
def askCores : List Nat → State → State
  | [], s => s
  | c :: cs, s => askCores cs ((span 0 4).foldl (fun t i => askPreempt t c i) s)

/-- QUAD_TEST (R381): dispatch to the quad stops and its units are pre-empted; once it is empty the test begins. -/
def execQuadTest (quad : Nat) (s : State) : Host.Outcome State Fault Refusal :=
  let x := quadAt s quad
  if quad ≥ 128 || x.test.isSome || !x.failed.isEmpty then .next s
  else if quadBusy s quad then .next (askCores (quadCores quad) (withQuad s quad { x with stopping := true }))
  else .next (withQuad s quad { x with stopping := true, test := some s.tb.tns })

/-- Whether the test of a quad has lasted its 2 ms. -/
def testOver (s : State) (q : Nat) : Bool :=
  match (quadAt s q).test with
  | some t => t + 2000000 ≤ s.tb.tns
  | none => false

/-- The state with the journals of a list of cores cleared (R382). -/
def clearJournals : List Nat → State → State
  | [], s => s
  | c :: cs, s => clearJournals cs (setCore s c { getCore s c with journal := [] })

/-- The state with a vector of the physical function signalled (R386). -/
def signalPf (s : State) (v : Nat) : State := { s with pfEv := s.pfEv ||| (1#64 <<< v) }

/-- QUAD_TEST_PASS (R381, R382): the quad is back in service with its journals cleared; one that rejoins signals vector 3. -/
def execQuadTestPass (quad : Nat) (s : State) : Host.Outcome State Fault Refusal :=
  let x := quadAt s quad
  if testOver s quad then
    let t := withQuad (clearJournals (quadCores quad) s) quad { x with serving := true, stopping := false, test := none, passed := s.tb.tns }
    .next (if x.serving then t else signalPf t 3)
  else .next s

/-- The journal entries of a quad (R382). -/
def quadJournal (s : State) (q : Nat) : List Egress := (quadCores q).flatMap (fun c => (getCore s c).journal)

/-- The suspect notice of a quad to a partition (R383). -/
def suspectNotice (s : State) (q cores p : Nat) : List Byte :=
  let mine := (quadJournal s q).filter (fun e => e.part == p)
  let first := mine.foldl (fun m e => min m e.first) s.tb.tns
  [1, BitVec.ofNat 8 cores] ++ leBytes 2 q ++ leBytes 2 ownPkg ++ leBytes 2 (distinct (mine.map (fun e => e.pkg.getD ownPkg))).length
  ++ leBytes 8 (quadAt s q).passed ++ leBytes 8 s.tb.tns ++ leBytes 8 first

/-- The state with the notices of a quad written, each to its partition's trace buffer with vector 1 (R383, R394). -/
def sendNotices (q cores : Nat) : List Nat → State → State
  | [], s => s
  | p :: ps, s => sendNotices q cores ps (signalVf (traceWrite s p noEngine (4 * q) (suspectNotice s q cores p)) p 1)

/-- QUAD_TEST_FAIL (R383): one notice for each destination partition of the journals, and the quad leaves service; which of its
cores failed is open (log 5). -/
def execQuadTestFail (quad : Nat) (s : State) : Host.Outcome State Fault Refusal :=
  if testOver s quad then
    let r := freeWord s
    let cores := r.1.toNat % 15 + 1
    let dests := (distinct ((quadJournal s quad).map (·.part))).filter (mapHas s.parts)
    let t := sendNotices quad cores (ascending dests) r.2
    let x := quadAt s quad
    .next (signalPf (withQuad t quad { x with
      serving := false, stopping := false, test := none, failed := (span 0 4).filter (fun i => cores / 2 ^ i % 2 == 1) }) 3)
  else .next s

/-- The spares of a die that have been brought in (R10), by die and spare number. -/
def sparesUsed (s : State) (die : Nat) : Nat := (s.spares.filter (fun e => e.1 / 4 == die)).length

/-- SPARE_SUBSTITUTION (R10): a spare of its die takes over a failed core's number while that holds no unit and lends no brick. -/
def execSpareSubstitution (core : Nat) (s : State) : Host.Outcome State Fault Refusal :=
  let q := core / 4
  let die := core / 128
  let x := quadAt s q
  if core < 512 && x.failed.contains (core % 4) && sparesUsed s die < 4 && !(getCore s core).units.any (fun e => e.2.live)
      && (lentTo s core).isNone then
    .next (withQuad { s with spares := mapSet s.spares (4 * die + sparesUsed s die) core } q
      { x with failed := x.failed.filter (fun i => i != core % 4) })
  else .next s

end Sys2Proof.Machine
end

