-- ==== Sys2Proof/Machine/Partitions.lean ====
section
/-! DEFINITION. Partitions and the host: mappings withdrawn and moved, the mailboxes of the physical function, descriptors, creation,
resizing and removal, deep retention, recovery and resets (R237, R242, R274, R295, R310, R311, R385 to R397). -/
namespace Sys2Proof.Machine

/-! ## Translations in use (R240 to R242) -/

/-- The commands that stand posted or started. -/
def allCmds (s : State) : List Cmd :=
  s.cores.flatMap (fun e => e.2.units.flatMap (fun u => u.2.ports.flatMap (fun p => p.2.queue)))
  ++ s.cmds.map (·.cmd) ++ s.aways.flatMap (fun a => a.hod ++ a.unit.ports.flatMap (fun p => p.2.queue))

/-- The partition of an armed task. -/
def taskPart (s : State) (id : Nat) : Nat := ((taskOf s id).map (·.part)).getD 16

/-- Whether a physical address lies on the old copy of a page under migration. -/
def onOld (m : Mig) (pa : Nat) : Bool := m.old ≤ pa && pa < m.old + m.span

/-- The translation that a write which waits at its home uses (R237, R242): that of the page under migration, and of the trace buffer for
the trace writer. -/
def heldUse (s : State) (w : Held) : List (Nat × Nat × Nat × Nat) :=
  (s.migs.filter (fun m => onOld m w.pa)).map (fun m => (m.part, m.va, m.span, m.old))
  ++ (match w.trace with
      | some p => [(p, (partOf s p).trva, (partOf s p).trlen, w.pa)]
      | none => [])

/-- The translations that commands use: partition, first virtual address, span and physical address of the page. -/
def cmdUse (cs : List Cmd) : List (Nat × Nat × Nat × Nat) := cs.flatMap (fun c => c.pins.map (fun p => (c.part, p.vpage, p.span, p.pa)))

/-- The translations that the partition's own runs of the tier engine and channels use, which go with those (R389). -/
def runUse (s : State) : List (Nat × Nat × Nat × Nat) :=
  cmdUse ((allCmds s).filter (fun c => c.eng == 1))
  ++ s.itins.flatMap (fun e => e.2.steps.flatMap (fun x => x.2.pins.map (fun p => (e.2.part, p.vpage, p.span, p.pa))))
  ++ s.chans.flatMap (fun e => e.2.pins.map (fun p => (e.2.part, p.vpage, p.span, p.pa)))

/-- The translations that units, their other commands, tasks and writes use. -/
def unitUse (s : State) : List (Nat × Nat × Nat × Nat) :=
  cmdUse ((allCmds s).filter (fun c => c.eng != 1))
  ++ s.chains.flatMap (fun e => e.2.flatMap (fun i => i.pins.map (fun p => (taskPart s e.1, p.vpage, p.span, p.pa))))
  ++ s.tasks.map (fun e => (e.2.part, e.2.vpage, e.2.span, e.2.pa - (e.2.va - e.2.vpage)))
  ++ s.decrs.map (fun d => (d.part, d.vpage, d.span, d.pa - (d.va - d.vpage)))
  ++ s.cores.flatMap (fun e => e.2.accs.map (fun a => (a.part, a.vpage, a.span, a.pa - (a.va - a.vpage))))
  ++ s.heldw.flatMap (heldUse s)

/-- Translations in use: partition, first virtual address, span and physical address of the page. -/
def inUse (s : State) : List (Nat × Nat × Nat × Nat) := runUse s ++ unitUse s

/-- Whether a partition uses a translation of a virtual range. -/
def usesRange (s : State) (p lo hi : Nat) : Bool := (inUse s).any (fun x => x.1 == p && x.2.1 < hi && lo < x.2.1 + x.2.2.1)

/-- Whether anything uses a physical address that passes a test. -/
def usesPhysical (s : State) (f : Nat → Nat → Bool) : Bool := (inUse s).any (fun x => f x.2.2.2 x.2.2.1)

/-- The state without the cached translations that pass a test (R239, R242). -/
def dropTlb (f : TlbEntry → Bool) (s : State) : State :=
  { s with cores := s.cores.map (fun e => (e.1, { e.2 with tlb := e.2.tlb.filter (fun x => !f x) })) }

/-! ## INVALIDATION (R242, R393) -/

/-- INVALIDATION (R242): a record's address written to a function's doorbell; cached translations in its range are dropped. A function
whose partition does not exist is not enabled (R393). -/
def execInvalidation (part : Nat) (addr : Word) (s : State) : Host.Outcome State Fault Refusal :=
  let a := addr.toNat
  let r := memBytes s.mem a 16
  let lo := fieldNat r 0 8
  if !mapHas s.parts part then .next s
  else if a % 16 ≠ 0 || lo % 65536 ≠ 0 || 2 ^ 55 ≤ lo || fieldNat r 13 3 ≠ 0 then .next (writeBytes s (a + 12) [2])
  else
    let n := fieldNat r 8 4
    let x : Inval := if n = 0 then { part := part, addr := a, lo := 0, hi := 2 ^ 55 } else { part := part, addr := a, lo := lo, hi := lo + 65536 * n }
    .next { dropTlb (fun e => e.part == part && e.vpage < x.hi && x.lo < e.vpage + e.span) s with invals := s.invals ++ [x] }

/-- A list without its first element that passes a test. -/
def dropFirst {α : Type} (f : α → Bool) : List α → List α
  | [] => []
  | x :: xs => if f x then xs else x :: dropFirst f xs

/-- Whether an invalidation has nothing left to wait for. -/
def invalDone (s : State) (x : Inval) : Bool := !usesRange s x.part x.lo x.hi

/-- INVALIDATION_DONE (R242): once no translation of the range is in use the record's STATUS becomes 1. -/
def execInvalidationDone (part : Nat) (s : State) : Host.Outcome State Fault Refusal :=
  match s.invals.find? (fun x => x.part == part && invalDone s x) with
  | none => .next s
  | some x => .next (writeBytes { s with invals := dropFirst (fun y => y == x) s.invals } (x.addr + 12) [1])

/-! ## Migration (R233, R237, R274) -/

/-- The place of the leaf entry of an address and the bits of its page offset, as the walk of R232 finds it. -/
def leafPlace (m : List Host.Cell) (va : Nat) : List (Nat × Nat × Bool × Bool) → Nat → Option (Nat × Nat)
  | [], _ => none
  | (shift, width, leafAllowed, tableAllowed) :: more, frame =>
    let a := frame + 8 * (va / 2 ^ shift % 2 ^ width)
    let e : Word := .ofNat 64 (memNat m a 8)
    if pteBits e 36 1 = 0 then none
    else if pteBits e 37 1 = 1 then (if leafAllowed && leafOk e shift then some (a, shift) else none)
    else if tableAllowed && pteBits e 38 26 == 0 then leafPlace m va more (65536 * pteBits e 0 36)
    else none

/-- A leaf with MIG set or cleared. -/
def withMig (e : Word) (b : Bool) : Word := if b then e ||| (1#64 <<< 38) else e &&& ~~~(1#64 <<< 38)

/-- A leaf with its frame replaced. -/
def withFrame (e : Word) (frame : Nat) : Word := (e &&& ~~~(0xFFFFFFFFF#64)) ||| BitVec.ofNat 64 (frame % 2 ^ 36)

/-- Whether two runs of numbers have one in common. -/
def runsShare (a n b m : Nat) : Bool := n != 0 && m != 0 && a < b + m && b < a + n

/-- The ranges of the layer groups of a mask of a stack (R310). -/
def groupRanges (d : Nat) (mask : BitVec 4) : List (Nat × Nat) :=
  ((span 0 4).filter (fun g => mask.getLsbD g)).map (fun g => (d * 0x800000000 + g * 0x180000000, 0x180000000))

/-- The ranges of the groups of a stack that a pending RETAIN takes into retention: OP, stack, mask and direction stand in the record's
first two words (R310, R311). -/
def retentionRanges (s : State) : List (Nat × Nat) :=
  match (mapFind s.boxes 1).bind (·.cmd) with
  | some m => if wbits m.w0 0 8 = 3 && wbits m.w1 8 8 = 1 && wbits m.w0 8 8 < 4 then groupRanges (wbits m.w0 8 8) (m.w1.setWidth 4) else []
  | none => []

/-- Whether a physical run lies on one of some ranges in part. -/
def runOver (rs : List (Nat × Nat)) (pa n : Nat) : Bool := rs.any (fun r => runsShare pa n r.1 r.2)

/-- PAGE_MIGRATION (R237): device firmware sets MIG on a page and begins to copy it to a frame of the partition's windows, one in LPDDR-6
where the page leaves groups that go into retention (R310). -/
def execPageMigration (part : Nat) (va : Word) (frame : Nat) (s : State) : Host.Outcome State Fault Refusal :=
  let pt := partOf s part
  match leafPlace s.mem va.toNat walkLevels pt.root with
  | none => .next s
  | some (a, shift) =>
    let e : Word := .ofNat 64 (memNat s.mem a 8)
    let span := 2 ^ shift
    let new := 65536 * frame
    if mapHas s.parts part && va.toNat < 2 ^ 55 && !leafMig e && new % span = 0
        && (inWindows pt new && inWindows pt (new + span - 1))
        && (!runOver (retentionRanges s) (65536 * pteBits e 0 36) span || pageTier new = 2) then
      .next { s with
        mem := memSetNat s.mem a 8 (withMig e true).toNat
        migs := s.migs ++ [{ part := part, va := va.toNat / span * span, span := span, old := 65536 * pteBits e 0 36, new := new }] }
    else .next s

/-- A physical address after a remap. -/
def movePa (m : Mig) (pa : Nat) : Nat := if m.old ≤ pa && pa < m.old + m.span then m.new + (pa - m.old) else pa

/-- A leaf after a remap, for a translation of the page. -/
def moveLeaf (m : Mig) (e : Word) : Word :=
  let f := 65536 * pteBits e 0 36
  if onOld m f then withMig (withFrame e (movePa m f / 65536)) false else e

/-- A pin after a remap. -/
def movePin (m : Mig) (p : Pin) : Pin := { p with pa := movePa m p.pa, attr := moveLeaf m p.attr }

/-- A command after a remap. -/
def moveCmd (m : Mig) (c : Cmd) : Cmd := { c with pins := c.pins.map (movePin m) }

/-- A unit after a remap. -/
def moveUnitPins (m : Mig) (u : Unit) : Unit :=
  { u with ports := u.ports.map (fun p => (p.1, { p.2 with queue := p.2.queue.map (moveCmd m) })) }

/-- A core after a remap. -/
def moveCorePins (m : Mig) (k : Core) : Core :=
  { k with
    units := k.units.map (fun u => (u.1, moveUnitPins m u.2))
    accs := k.accs.map (fun a => { a with pa := movePa m a.pa, leaf := moveLeaf m a.leaf })
    tlb := k.tlb.map (fun e => if e.part = m.part then { e with leaf := moveLeaf m e.leaf } else e) }

/-- The state with every translation in use moved to the new copy in one instant (R274). -/
def moveTranslations (m : Mig) (s : State) : State :=
  { s with
    cores := s.cores.map (fun e => (e.1, moveCorePins m e.2))
    cmds := s.cmds.map (fun r => { r with cmd := moveCmd m r.cmd })
    colls := s.colls.map (fun c => { c with cmd := moveCmd m c.cmd })
    aways := s.aways.map (fun a => { a with hod := a.hod.map (moveCmd m), unit := moveUnitPins m a.unit })
    itins := s.itins.map (fun e => (e.1, { e.2 with steps := e.2.steps.map (fun x => (x.1, { x.2 with pins := x.2.pins.map (movePin m) })) }))
    chans := s.chans.map (fun e => (e.1, { e.2 with pins := e.2.pins.map (movePin m) }))
    chains := s.chains.map (fun e => (e.1, e.2.map (fun i => { i with pins := i.pins.map (movePin m) })))
    tasks := s.tasks.map (fun e => (e.1, { e.2 with pa := movePa m e.2.pa, leaf := moveLeaf m e.2.leaf }))
    decrs := s.decrs.map (fun d => { d with pa := movePa m d.pa, leaf := moveLeaf m d.leaf })
    invals := s.invals.map (fun x => { x with addr := movePa m x.addr }) }

/-- Memory with a page's bytes copied to its new frame. -/
def copyPage (m : Mig) (mem : List Host.Cell) : List Host.Cell :=
  (mem.filter (fun c => onOld m c.1)).foldl (fun acc c => memSetByte acc (movePa m c.1) c.2)
    (mem.filter (fun c => !(m.new ≤ c.1 && c.1 < m.new + m.span)))

/-- Lines that hold uncorrectable data, copied with their page. -/
def copyPoison (m : Mig) (ls : List Nat) : List Nat :=
  ls.filter (fun l => !(m.new ≤ 64 * l && 64 * l < m.new + m.span))
  ++ (ls.filter (fun l => onOld m (64 * l))).map (fun l => movePa m (64 * l) / 64)

/-- The entries of a table that hold a byte memory lists, each once; any other reads zero and is not valid (R233). -/
def tableEntries (m : List Host.Cell) (frame width : Nat) : List Nat :=
  ((m.filter (fun c => frame ≤ c.1 && c.1 < frame + 8 * 2 ^ width)).map (fun c => (c.1 - frame) / 8)).foldl
    (fun acc i => if acc.getLast? = some i then acc else acc ++ [i]) []

/-- The pages a table entry chain maps: first virtual address, span, leaf (R232). -/
def pagesFrom (m : List Host.Cell) : List (Nat × Nat × Bool × Bool) → Nat → Nat → List (Nat × Nat × Word)
  | [], _, _ => []
  | (shift, width, leafAllowed, tableAllowed) :: more, frame, va =>
    (tableEntries m frame width).flatMap (fun i =>
      let e : Word := .ofNat 64 (memNat m (frame + 8 * i) 8)
      let at_ := va + i * 2 ^ shift
      if pteBits e 36 1 = 0 then []
      else if pteBits e 37 1 = 1 then (if leafAllowed && leafOk e shift then [(at_, 2 ^ shift, e)] else [])
      else if tableAllowed && pteBits e 38 26 == 0 then pagesFrom m more (65536 * pteBits e 0 36) at_
      else [])

/-- The pages of a partition that lie in a test's physical range. -/
def pagesIn (s : State) (pt : Part) (f : Nat → Bool) : List (Nat × Nat × Word) :=
  (pagesFrom s.mem walkLevels pt.root 0).filter (fun x => f (65536 * pteBits x.2.2 0 36))

/-- The pages of a partition, within its windows, that lie on some physical ranges in part (R310). -/
def pagesOver (s : State) (pt : Part) (rs : List (Nat × Nat)) : List (Nat × Nat × Word) :=
  (pagesFrom s.mem walkLevels pt.root 0).filter (fun x =>
    runOver rs (65536 * pteBits x.2.2 0 36) x.2.1 && runOver (pt.wins.map (fun w => (w.base, w.len))) (65536 * pteBits x.2.2 0 36) x.2.1)

/-- Memory with the leaf of an address remapped. -/
def remapAt (m : Mig) (root : Nat) (mem : List Host.Cell) (va : Nat) : List Host.Cell :=
  match leafPlace mem va walkLevels root with
  | some (a, _) => memSetNat mem a 8 (moveLeaf m (.ofNat 64 (memNat mem a 8))).toNat
  | none => mem

/-- Memory with every leaf of the partition that maps the migrated page remapped (R274). -/
def remapLeaf (s : State) (m : Mig) : List Host.Cell :=
  let pt := partOf s m.part
  (pagesIn s pt (onOld m)).foldl (fun mem x => remapAt m pt.root mem x.1) s.mem

/-- MIGRATION_REMAP (R274): the copy of a migrating page is whole, and in one instant every agent reads and writes the new one; the
writes that waited at home are made there in their order (R237). -/
def execMigrationRemap (k : Nat) (s : State) : Host.Outcome State Fault Refusal :=
  match nth s.migs k with
  | none => .next s
  | some m =>
    let s1 := { s with migs := dropAt s.migs k, mem := copyPage m s.mem, poison := copyPoison m s.poison, heldw := [] }
    let s2 := moveTranslations m { s1 with mem := remapLeaf s1 m }
    .next (s.heldw.foldl (fun t w => homeWrite t w.trace (movePa m w.pa) w.bytes) s2)

/-! ## Mailboxes (R385, R386) -/

/-- The 64 bytes of a window. -/
def windowBytes (m : Window) : List Byte :=
  [m.w0, m.w1, m.w2, m.w3, m.w4, m.w5, m.w6, m.w7].flatMap (fun w => leBytes 8 w.toNat)

/-- A window of 64 bytes. -/
def windowOf (bs : List Byte) : Window :=
  let w := fun i => BitVec.ofNat 64 (fieldNat bs (8 * i) 8)
  { w0 := w 0, w1 := w 1, w2 := w 2, w3 := w 3, w4 := w 4, w5 := w 5, w6 := w 6, w7 := w 7 }

/-- A mailbox at reset. -/
def Mailbox.reset : Mailbox := { window := windowOf [], cmd := none, resize := none, freeing := false }

/-- A mailbox: 0 management, 1 stack management, 2 recovery. -/
def boxOf (s : State) (n : Nat) : Mailbox := mapGet Mailbox.reset s.boxes n

/-- The state with a mailbox replaced. -/
def withBox (s : State) (n : Nat) (b : Mailbox) : State := { s with boxes := mapSet s.boxes n b }

/-- A list of bytes with some replaced from a place on. -/
def patch (bs : List Byte) (at_ : Nat) (xs : List Byte) : List Byte := bs.take at_ ++ xs ++ bs.drop (at_ + xs.length)

/-- A mailbox's command ended: STATUS and a payload from byte 8 are written into the window and its vector is signalled (R386). -/
def endBox (s : State) (n : Nat) (status : BitVec 8) (payload : List Byte) : State :=
  let b := boxOf s n
  let w := windowOf (patch (patch (windowBytes b.window) 4 [status]) 8 payload)
  signalPf (withBox s n { b with window := w, cmd := none, resize := none, freeing := false }) n

/-- A record with STATUS 0, pending (R311, R385, R386). -/
def pendingRec (m : Window) : Window := windowOf (patch (windowBytes m) 4 [0])

/-- A doorbell written over a window's record (R386): one that meets a pending command is discarded and sets bit 0 of PFERR; STATUS of one
that is taken is pending; a mailbox other than recovery is served only with verified firmware. -/
def ringBox (n : Nat) (m : Window) (go : State → State) (s : State) : State :=
  let b := boxOf s n
  if n ≠ 2 && !s.fw.verified then s
  else if b.cmd.isSome then { withBox s n { b with window := m } with pfErr := s.pfErr ||| 1 }
  else go (withBox s n { b with window := pendingRec m, cmd := some m })

/-- The doorbell of a mailbox whose record names operation `op` of those up to `last`; a record that names none ends with STATUS 2,
and one that names another is that operation's event, not this (R311, R385, R386). -/
def ringOp (n op last : Nat) (m : Window) (go : State → State) (s : State) : Host.Outcome State Fault Refusal :=
  let o := fieldNat (windowBytes m) 0 1
  if o = op then .next (ringBox n m go s)
  else if o = 0 || last < o then .next (ringBox n m (fun t => endBox t n 2 []) s)
  else .next s

/-! ## The partition descriptor (R387, R388) -/

/-- A window of a descriptor. -/
def winOfBytes (b : List Byte) : Option Win :=
  if fieldNat b 12 1 = 0 then none else some { base := fieldNat b 0 8, len := 0x20000000 * fieldNat b 8 4, tier := fieldNat b 12 1 }

/-- A descriptor's fields from its 256 bytes. -/
def partOfBytes (b : List Byte) : Part :=
  let f := fieldNat b
  { schedw := f 1 1, armmax := f 2 2, keybase := f 4 2, keycnt := f 6 2, tblkey := f 8 2, ctxkey := f 10 2
    quads := (span 0 128).filter (fun q => f 16 16 / 2 ^ q % 2 == 1), quadsOut := [], root := f 32 8, ltbase := f 40 8, ltlen := f 48 4
    tvec := BitVec.ofNat 64 (f 56 8), ctxva := f 64 8, ctxlen := f 72 8, trva := f 80 8, trlen := f 88 4, fablo := f 96 2, fabhi := f 98 2
    itbase := f 100 1, itcnt := f 101 1, gatmask := BitVec.ofNat 16 (f 102 2), barmask := BitVec.ofNat 8 (f 104 1), lnbase := f 106 2
    lncnt := f 108 2, grbase := f 110 2, grcnt := f 112 2, phbase := f 114 1, phcnt := f 115 1, jbbase := f 116 1, jbcnt := f 117 1
    wins := (span 0 8).filterMap (fun i => winOfBytes ((b.drop (128 + 16 * i)).take 16)), raw := b }

/-- Whether a window lies in its tier's range, on a granule (R295). -/
def winInTier (w : Win) : Bool :=
  w.base % 0x20000000 == 0 && (match w.tier with
    | 1 => (span 0 4).any (fun d => d * 0x800000000 ≤ w.base && w.base + w.len ≤ d * 0x800000000 + 0x600000000)
    | 2 => 0x10000000000 ≤ w.base && w.base + w.len ≤ 0x28000000000
    | 3 => 0x100000000000 ≤ w.base && w.base + w.len ≤ 0x500000000000
    | _ => false)

/-- Whether a descriptor breaks what R388 lists under STATUS 2, the sum of the armed tasks apart. -/
def partBad (b : List Byte) (part : Nat) : Bool :=
  let p := partOfBytes b
  fieldNat b 0 1 != part || p.schedw == 0 || fieldNat b 12 4 != 0 || fieldNat b 52 4 != 0 || fieldNat b 92 4 != 0
  || fieldNat b 105 1 != 0 || fieldNat b 118 10 != 0 || (span 0 8).any (fun i => fieldNat b (141 + 16 * i) 3 != 0)
  || p.root % 65536 != 0 || p.ltbase % 64 != 0 || p.ltlen > 65536
  || p.keybase + p.keycnt > 2048 || p.itbase + p.itcnt > 64 || p.armmax > 16384
  || p.lnbase + p.lncnt > 1024 || p.grbase + p.grcnt > 256 || p.phbase + p.phcnt > 64 || p.jbbase + p.jbcnt > 16
  || p.wins.any (fun w => !winInTier w) || !ownsKey p p.tblkey || !ownsKey p p.ctxkey
  || !(p.trlen == 0 || (p.trlen % 32 == 0 && 96 ≤ p.trlen))

/-- Whether the armed tasks of a descriptor and of every other partition run past their total. -/
def armsBad (s : State) (part : Nat) (p : Part) : Bool :=
  (s.parts.filter (fun e => e.1 != part)).foldl (fun a e => a + e.2.armmax) p.armmax > 16384

/-- Whether two partitions share a resource (R388). -/
def partsShare (p q : Part) : Bool :=
  runsShare p.keybase p.keycnt q.keybase q.keycnt || p.quads.any (fun x => q.quads.contains x || q.quadsOut.contains x)
  || runsShare p.itbase p.itcnt q.itbase q.itcnt || (p.gatmask &&& q.gatmask) != 0 || (p.barmask &&& q.barmask) != 0
  || runsShare p.lnbase p.lncnt q.lnbase q.lncnt || runsShare p.grbase p.grcnt q.grbase q.grcnt
  || runsShare p.phbase p.phcnt q.phbase q.phcnt || runsShare p.jbbase p.jbcnt q.jbbase q.jbcnt
  || p.wins.any (fun w => q.wins.any (fun v => runsShare w.base w.len v.base v.len))

/-- A stack's management state (R310, R311). -/
def stackOf (s : State) (d : Nat) : Stack := mapGet { scrub := Config.scrubDefault.toNat, retained := 0, leaving := 0 } s.hbm d

/-- The state with a stack's management state replaced. -/
def withStack (s : State) (d : Nat) (x : Stack) : State := { s with hbm := mapSet s.hbm d x }

/-- The ranges of groups that are in retention or on their way into it. -/
def retainedRanges (s : State) : List (Nat × Nat) := (span 0 4).flatMap (fun d => groupRanges d ((stackOf s d).retained ||| (stackOf s d).leaving))

/-- Whether a descriptor asks for what another partition, the firmware or retention holds, or for a quad out of service (R388,
R392). -/
def partRefused (s : State) (part : Nat) (p : Part) : Bool :=
  s.parts.any (fun e => e.1 != part && partsShare p e.2) || p.quads.any (fun q => !(quadAt s q).serving)
  || (p.keybase == 0 && p.keycnt != 0)
  || p.wins.any (fun w => (retainedRanges s).any (fun r => runsShare w.base w.len r.1 r.2))

/-! ## Granting and withdrawing (R388 to R390) -/

/-- The state with the barriers of a descriptor granted that a partition did not have. -/
def grantBars (s : State) (old new : Part) : State :=
  { s with bars := (span 0 8).foldl (fun m b =>
      if new.barmask.getLsbD b && !old.barmask.getLsbD b then mapSet m b { Bar.reset with quads := new.quads } else m) s.bars }

/-- Whether a unit of the machine, present or away, holds ARR = 1 on a barrier. -/
def barHeld (s : State) (b : Nat) : Bool :=
  s.cores.any (fun e => e.2.units.any (fun u => u.2.live && (barReg u.2 b).arr)) || s.aways.any (fun a => (barReg a.unit b).arr)

/-- The nodes of a partition, by level and number (R312). -/
def partNodes (p : Part) : List (Nat × Nat) :=
  (span p.lnbase p.lncnt).map (fun n => (1, n)) ++ (span p.grbase p.grcnt).map (fun n => (2, n))
  ++ (span p.phbase p.phcnt).map (fun n => (3, n)) ++ (span p.jbbase p.jbcnt).map (fun n => (4, n))

/-- The nodes one partition has and another does not. -/
def nodesLost (old new : Part) : List (Nat × Nat) := (partNodes old).filter (fun n => !ownsNode new n)

/-- The barriers one partition has and another does not. -/
def barsLost (old new : Part) : List Nat := (span 0 8).filter (fun b => old.barmask.getLsbD b && !new.barmask.getLsbD b)

/-- The itinerary slots one partition has and another does not. -/
def slotsLost (old new : Part) : List Nat := (span old.itbase old.itcnt).filter (fun i => !(new.itbase ≤ i && i < new.itbase + new.itcnt))

/-- The gatherer channels one partition has and another does not. -/
def chansLost (old new : Part) : List Nat := (span 0 16).filter (fun c => old.gatmask.getLsbD c && !new.gatmask.getLsbD c)

/-- Whether a physical address lies in a list of windows. -/
def inWins (ws : List Win) (pa : Nat) : Bool := ws.any (fun w => w.base ≤ pa && pa < w.base + w.len)

/-- Whether a page's run of addresses meets what is withdrawn between two lists of windows. -/
def winsLost (old new : List Win) (pa len : Nat) : Bool :=
  inWins old pa && (!inWins new pa || !inWins new (pa + len - 1))

/-- The state with the runs of a list of slots stopped without DRAIN (R389). -/
def stopSlots (slots : List Nat) (s : State) : State :=
  { s with itins := s.itins.map (fun e => if slots.contains e.1 then (e.1, stopItin e.2 false) else e) }

/-- The state with a list of channels closed without FLUSH, but for those that owe a closed batch its arming, which comes first (R338,
R389). -/
def closeChans (cs : List Nat) (s : State) : State :=
  (cs.filter (fun c => (chanOf s c).opened && (chanOf s c).owes.isNone)).foldl closeChan s

/-- Whether every channel of a list is closed. -/
def chansShut (cs : List Nat) (s : State) : Bool := cs.all (fun c => !(chanOf s c).opened)

/-- The key ids one partition has and another does not. -/
def keysLost (old new : Part) : List Nat := (span old.keybase old.keycnt).filter (fun k => !ownsKey new k)

/-- The state with a key pair generated for every key id of a partition that has none (R392). -/
def grantKeys (p : Part) (s : State) : State :=
  let ks := (span p.keybase p.keycnt).filter (fun k => !mapHas s.keys k)
  { s with
    keys := (ks.zip (span s.fresh ks.length)).foldl (fun m e => mapSet m e.1 e.2) s.keys
    fresh := s.fresh + ks.length }

/-- The lines of a page that memory lists. -/
def linesListed (m : List Host.Cell) (pa n : Nat) : List Nat :=
  distinct ((m.filter (fun c => pa ≤ c.1 && c.1 < pa + n)).map (fun c => c.1 / 64))

/-- The state with some key ids erased: what a partition has mapped under them can no longer be read, its lines deciphering to what is
open (R389, R392; log 18). -/
def eraseKeys (pt : Part) (ks : List Nat) (s : State) : State :=
  let pages := (pagesFrom s.mem walkLevels pt.root 0).filter (fun x => ks.contains (leafKey x.2.2))
  { s with
    mem := pages.foldl (fun m x => (linesListed m (65536 * pteBits x.2.2 0 36) x.2.1).foldl (fun m l =>
      if inWins pt.wins (64 * l) then memSetBytes m (64 * l) (leBytes 64 (Config.unkeyed (mapGet 0 s.keys (leafKey x.2.2)) l).toNat) else m) m) s.mem
    keys := ks.foldl mapErase s.keys }

/-- The state with what collectives left at cores that a partition gives up gone: announcements that wait there, and those still to come
that have no more use (R339, R343). -/
def forgetCores (cores : List Nat) (s : State) : State :=
  { s with
    anns := s.anns.filter (fun f => match f.body with
      | .announce a => !cores.contains a.core
      | _ => true)
    spent := s.spent.filter (fun x => !cores.contains x.2.1) }

/-- The state with the resources of `old` that `new` lacks on their way out: dispatch to quads stops and their units are asked to
stop, cached translations go, runs are stopped, channels, barriers and nodes go at once (R389). -/
def beginWithdraw (part : Nat) (old new : Part) (s : State) : State :=
  let quads := old.quads.filter (fun q => !new.quads.contains q)
  let s1 := askCores (coresOf quads) s
  let s2 := dropTlb (fun e => e.part == part && winsLost old.wins new.wins (65536 * pteBits e.leaf 0 36) e.span) s1
  let s3 := closeChans (chansLost old new) (stopSlots (slotsLost old new) s2)
  { s3 with
    bars := s3.bars.filter (fun e => !(barsLost old new).contains e.1)
    nodes := s3.nodes.filter (fun e => !((nodesLost old new).map nodeKey).contains e.1) }

/-- Whether the resources `old` has and `new` lacks are free (R389). -/
def withdrawn (s : State) (part : Nat) (old new : Part) : Bool :=
  (coresOf (old.quads.filter (fun q => !new.quads.contains q))).all (fun c =>
    (getCore s c).units.all (fun e => !(e.2.live && e.2.part == part)))
  && !usesPhysical s (winsLost old.wins new.wins) && (slotsLost old new).all (fun i => !mapHas s.itins i) && chansShut (chansLost old new) s

/-- Memory and poison with a withdrawn range zeroed (R389). -/
def zeroLost (old new : List Win) (s : State) : State :=
  { s with
    mem := s.mem.filter (fun c => !(inWins old c.1 && !inWins new c.1))
    poison := s.poison.filter (fun l => !(inWins old (64 * l) && !inWins new (64 * l))) }

/-- A list of windows without a range. -/
def cutWins (lo len : Nat) (ws : List Win) : List Win :=
  ws.flatMap (fun w =>
    if runsShare w.base w.len lo len then
      (if w.base < lo then [{ w with len := lo - w.base }] else [])
      ++ (if lo + len < w.base + w.len then [{ w with base := lo + len, len := w.base + w.len - (lo + len) }] else [])
    else [w])

/-! ## CREATE, RESIZE, DESTROY (R388 to R390) -/

/-- Whether a management record breaks its layout; ARG is checked against its bits (R385). -/
def mgmtBad (r : List Byte) (argMax : Nat) (aligned : Bool) : Bool :=
  fieldNat r 1 1 > 15 || fieldNat r 5 3 != 0 || fieldNat r 24 40 != 0 || fieldNat r 16 8 ≥ argMax || (aligned && fieldNat r 8 8 % 256 != 0)

/-- The partition a management record names. -/
def boxPart (r : List Byte) : Nat := fieldNat r 1 1

/-- A core given to a partition (R96, R165): its knots are clear, every shape record is natural, and every handle is freed but those of
pre-empted units of that partition itself. -/
def passCore (n : Nat) (s : State) (c : Nat) : State :=
  let mine := (s.aways.filter (fun a => a.unit.part == n)).map (fun a => a.unit.uid)
  let lost := ((getCore s c).tiles.filter (fun e => e.2.valid && !mine.contains e.2.ownerUid)).map (·.1)
  let t := unpark s c lost
  setCore t c { freeTiles (getCore t c) lost with knots := 0, knotw := [], shapes := [] }

/-- The state with quads that a partition is given (R96, R165). -/
def passQuads (n : Nat) (quads : List Nat) (s : State) : State :=
  (coresOf quads).foldl (fun t c => if mapHas t.cores c then passCore n t c else t) s

/-- CREATE carried out (R388). -/
def createGo (m : Window) (s : State) : State :=
  let r := windowBytes m
  let n := boxPart r
  let b := memBytes s.mem (fieldNat r 8 8) 256
  let p := partOfBytes b
  if mgmtBad r 1 true || partBad b n || armsBad s n p then endBox s 0 2 []
  else if mapHas s.parts n || partRefused s n p then endBox s 0 3 []
  else
    let t := grantBars { s with parts := mapSet s.parts n p, traces := mapErase s.traces n, vfEv := mapErase s.vfEv n } Part.none p
    endBox (grantKeys p (passQuads n p.quads t)) 0 1 []

/-- CREATE (R388). -/
def execCreate (m : Window) (s : State) : Host.Outcome State Fault Refusal := ringOp 0 1 6 m (createGo m) s

/-- Whether a descriptor changes a field fixed at CREATE (R387). -/
def fixedChanged (a b : List Byte) : Bool :=
  ([(0, 1), (8, 2), (10, 2), (32, 8), (64, 8), (72, 8)] : List (Nat × Nat)).any (fun f => fieldNat a f.1 f.2 != fieldNat b f.1 f.2)

/-- RESIZE carried out as far as its withdrawals (R389): what it grants is added first. -/
def resizeGo (m : Window) (s : State) : State :=
  let r := windowBytes m
  let n := boxPart r
  let b := memBytes s.mem (fieldNat r 8 8) 256
  let new := partOfBytes b
  let old := partOf s n
  if mgmtBad r 1 true || partBad b n || armsBad s n new || (mapHas s.parts n && fixedChanged old.raw b) then endBox s 0 2 []
  else if !mapHas s.parts n || partRefused s n new || (barsLost old new).any (barHeld s) || (nodesLost old new).any (fun x => (nodeOf s x).live != 0) then
    endBox s 0 3 []
  else
    let both := { new with
      wins := new.wins ++ old.wins, quadsOut := old.quads.filter (fun q => !new.quads.contains q) }
    let t := passQuads n (new.quads.filter (fun q => !old.quads.contains q)) (grantKeys new (grantBars { s with parts := mapSet s.parts n both } old new))
    beginWithdraw n old new (withBox t 0 { boxOf t 0 with resize := some (old, new) })

/-- RESIZE (R389). -/
def execResize (m : Window) (s : State) : Host.Outcome State Fault Refusal := ringOp 0 2 6 m (resizeGo m) s

/-- The state with every node of a partition cancelled (R322, R390, R394). -/
def cancelNodes : List (Nat × Nat) → State → State
  | [], s => s
  | n :: ns, s => cancelNodes ns (cancelNode s n)

/-- DESTROY carried out as far as its waits (R390). -/
def destroyGo (m : Window) (s : State) : State :=
  let r := windowBytes m
  let n := boxPart r
  let p := partOf s n
  if mgmtBad r 1 false then endBox s 0 2 []
  else if !mapHas s.parts n then endBox s 0 3 []
  else cancelNodes (partNodes p) s

/-- DESTROY (R390). -/
def execDestroy (m : Window) (s : State) : Host.Outcome State Fault Refusal := ringOp 0 3 6 m (destroyGo m) s

/-- Whether every unit of a partition has ended and no pin is held on its pages but by its runs and channels, which it frees next (R390;
log 48). -/
def unitsOver (s : State) (n : Nat) : Bool :=
  !s.cores.any (fun e => e.2.units.any (fun u => u.2.live && u.2.part == n)) && !(unitUse s).any (fun x => x.1 == n)
  && !s.cmds.any (fun r => r.cmd.part == n && r.cmd.eng != 1)
  && !s.heldw.any (fun w => inWins (partOf s n).wins w.pa && !onMigrating s w.pa)

/-- Whether nothing of a partition is left: no unit, task, pin, run or open channel (R390). -/
def partQuiet (s : State) (n : Nat) : Bool :=
  unitsOver s n && !(runUse s).any (fun x => x.1 == n) && !s.itins.any (fun e => e.2.part == n) && !s.cmds.any (fun r => r.cmd.part == n)
  && chansShut (chansLost (partOf s n) Part.none) s

/-- The state with the runs of a partition stopped and its channels closed, once its units are over (R390). -/
def freeRuns (s : State) (n : Nat) : State :=
  closeChans (chansLost (partOf s n) Part.none) (stopSlots (slotsLost (partOf s n) Part.none) s)

/-- The state with a partition and everything it owns gone, its keys erased and its memory zeroed (R389, R390). -/
def freePart (s : State) (n : Nat) : State :=
  let p := partOf s n
  let t := forgetCores (coresOf p.quads) (zeroLost p.wins [] (eraseKeys p (keysLost p Part.none) (dropTlb (fun e => e.part == n) s)))
  { t with
    parts := mapErase t.parts n, traces := mapErase t.traces n, vfEv := mapErase t.vfEv n
    bars := t.bars.filter (fun e => !(barsLost p Part.none).contains e.1)
    nodes := t.nodes.filter (fun e => !((partNodes p).map nodeKey).contains e.1)
    hist := t.hist.filter (fun e => !(slotsLost p Part.none).contains e.1)
    invals := t.invals.filter (fun x => x.part != n), migs := t.migs.filter (fun x => x.part != n)
    heldw := t.heldw.filter (fun w => w.trace != some n && !t.migs.any (fun m => m.part == n && onOld m w.pa)) }

/-- A pending RESIZE whose withdrawals have finished. -/
def resizeDone (s : State) (n : Nat) (old new : Part) : State :=
  let quads := old.quads.filter (fun q => !new.quads.contains q)
  let t := forgetCores (coresOf quads) (zeroLost old.wins new.wins (eraseKeys new (keysLost old new) s))
  let t1 := { t with
    parts := mapSet t.parts n { partOf t n with wins := new.wins, quadsOut := [] }
    hist := t.hist.filter (fun e => !(slotsLost old new).contains e.1) }
  endBox t1 0 1 []

/-- The management mailbox's pending command, once what it waits for is over (R389, R390). -/
def mgmtTick (s : State) : State :=
  let b := boxOf s 0
  match b.cmd with
  | none => s
  | some m =>
    let r := windowBytes m
    let n := boxPart r
    if fieldNat r 0 1 = 2 then
      match b.resize with
      | none => s
      | some (old, new) =>
        let t := closeChans (chansLost old new) s
        if withdrawn t n old new then resizeDone t n old new else t
    else if fieldNat r 0 1 = 3 then
      (if b.freeing then
        let t := closeChans (chansLost (partOf s n) Part.none) s
        if partQuiet t n then endBox (freePart t n) 0 1 [] else t
      else if unitsOver s n then withBox (freeRuns s n) 0 { b with freeing := true }
      else s)
    else s

/-! ## PREEMPT, LINKUP, ATTEST (R385, R395, R397) -/

/-- PREEMPT carried out (R372, R385, R391): a unit of the partition that stands in the slot is asked to stop. -/
def preemptGo (m : Window) (s : State) : State :=
  let r := windowBytes m
  let core := fieldNat r 16 8 % 512
  let slot := fieldNat r 16 8 / 512
  if mgmtBad r 2048 false then endBox s 0 2 []
  else endBox (if (unitAt s core slot).part = boxPart r then askPreempt s core slot else s) 0 1 []

/-- PREEMPT (R385). -/
def execPreempt (m : Window) (s : State) : Host.Outcome State Fault Refusal := ringOp 0 4 6 m (preemptGo m) s

/-- LINKUP carried out (R395): the port trains to its higher rate, which vector 4 reports. -/
def linkupGo (m : Window) (s : State) : State :=
  let r := windowBytes m
  if mgmtBad r 16 false then endBox s 0 2 []
  else signalPf (endBox (withFport s (fieldNat r 16 8) { up := true, fast := true, replays := [] }) 0 1 []) 4

/-- LINKUP (R395). -/
def execLinkup (m : Window) (s : State) : Host.Outcome State Fault Refusal := ringOp 0 5 6 m (linkupGo m) s

/-- The signed part of an attestation report (R397). -/
def reportHead (s : State) (n dpa : Nat) : List Byte :=
  memBytes s.mem dpa 32 ++ leBytes 4 s.fw.running.toNat ++ leBytes 48 (Config.sha384 s.fw.image).toNat
  ++ leBytes 48 (Config.sha384 (partOf s n).raw).toNat ++ leBytes 8 s.tb.tns

/-- ATTEST carried out (R397). -/
def attestGo (m : Window) (s : State) : State :=
  let r := windowBytes m
  let n := boxPart r
  let dpa := fieldNat r 8 8
  if mgmtBad r 1 true then endBox s 0 2 []
  else if !mapHas s.parts n then endBox s 0 3 []
  else
    let h := reportHead s n dpa
    endBox (writeBytes s dpa (h ++ leBytes 384 (Config.rsaSign h).toNat ++ leBytes 16224 (Config.slhSign h).toNat)) 0 1 []

/-- ATTEST (R397). -/
def execAttest (m : Window) (s : State) : Host.Outcome State Fault Refusal := ringOp 0 6 6 m (attestGo m) s

/-! ## Stack management and deep retention (R310, R311) -/

/-- The stack a stack-management record names; a record that names none is malformed. -/
def boxStack (r : List Byte) : Nat := fieldNat r 1 1

/-- TELEMETRY carried out (R311): its readings are open (log 5). -/
def telemetryGo (m : Window) (s : State) : State :=
  let d := boxStack (windowBytes m)
  if d > 3 then endBox s 1 2 []
  else
    let v := fun i => (Config.telemetry s.fresh i).toNat
    endBox { s with fresh := s.fresh + 1 } 1 1
      (leBytes 2 (v 0) ++ leBytes 8 (v 1) ++ leBytes 8 (v 2) ++ leBytes 4 (v 3) ++ leBytes 1 (stackOf s d).retained.toNat)

/-- TELEMETRY (R311). -/
def execTelemetry (m : Window) (s : State) : Host.Outcome State Fault Refusal := ringOp 1 1 4 m (telemetryGo m) s

/-- SCRUB carried out (R311). -/
def scrubGo (m : Window) (s : State) : State :=
  let r := windowBytes m
  let d := boxStack r
  if d > 3 then endBox s 1 2 []
  else
    let n := if fieldNat r 8 4 = 0 then Config.scrubDefault.toNat else fieldNat r 8 4
    endBox (withStack s d { stackOf s d with scrub := n }) 1 1 (leBytes 4 n)

/-- SCRUB (R311). -/
def execScrub (m : Window) (s : State) : Host.Outcome State Fault Refusal := ringOp 1 2 4 m (scrubGo m) s

/-- Whether a physical address lies in a list of ranges. -/
def inRanges (rs : List (Nat × Nat)) (pa : Nat) : Bool := rs.any (fun r => r.1 ≤ pa && pa < r.1 + r.2)

/-- The frames a list of pages stands on, each with its span and once, however many addresses map it. -/
def framesOf (xs : List (Nat × Nat × Word)) : List (Nat × Nat) :=
  xs.foldl (fun acc x => let f := (65536 * pteBits x.2.2 0 36, x.2.1); if acc.contains f then acc else acc ++ [f]) []

/-- A partition's LPDDR-6 windows. -/
def lpddrWins (pt : Part) : List Win := pt.wins.filter (fun w => w.tier == 2)

/-- The frames of a partition's LPDDR-6 windows that a page of it stands on or a migration goes to. -/
def takenFrames (s : State) (pt : Part) : List (Nat × Nat) :=
  framesOf (pagesOver s pt ((lpddrWins pt).map (fun w => (w.base, w.len)))) ++ s.migs.map (fun m => (m.new, m.span))

/-- The lowest frame of a span in some windows that shares nothing with the frames taken. -/
def frameBeside (lp : List Win) (taken : List (Nat × Nat)) (size : Nat) : Option Nat :=
  lp.findSome? (fun w => (firstIn (fun k => (w.base + k * size) % size == 0 && !runOver taken (w.base + k * size) size) 0 (w.len / size)).map
    (fun k => w.base + k * size))

/-- Whether frames of some spans cannot all be placed, one after the other, beside those taken. -/
def cannotPlace (lp : List Win) : List (Nat × Nat) → List Nat → Bool
  | _, [] => false
  | taken, n :: ns =>
    match frameBeside lp taken n with
    | none => true
    | some f => cannotPlace lp ((f, n) :: taken) ns

/-- Whether a partition's LPDDR-6 windows cannot take the pages it has on some ranges, in the order in which they are moved (R310; log 54). -/
def cannotTake (s : State) (pt : Part) (rs : List (Nat × Nat)) : Bool :=
  cannotPlace (lpddrWins pt) (takenFrames s pt) ((framesOf (pagesOver s pt rs)).map (·.2))

/-- A partition without some ranges in its windows (R310). -/
def partWithout (rs : List (Nat × Nat)) (p : Part) : Part := { p with wins := rs.foldl (fun m r => cutWins r.1 r.2 m) p.wins }

/-- The state with some ranges out of every window, those of a RESIZE under way with them, and each affected partition told by vector 2
(R310, R391, R394). -/
def hotRemove (rs : List (Nat × Nat)) (s : State) : State :=
  s.parts.foldl (fun t e =>
    if partWithout rs e.2 = e.2 then t else signalVf { t with parts := mapSet t.parts e.1 (partWithout rs e.2) } e.1 2)
    (withBox (dropTlb (fun x => runOver rs (65536 * pteBits x.leaf 0 36) x.span) s) 0
      { boxOf s 0 with resize := (boxOf s 0).resize.map (fun x => (partWithout rs x.1, partWithout rs x.2)) })

/-- The lowest frame of a span in a partition's LPDDR-6 windows that no page of it stands on and no migration goes to (log 54). -/
def freeFrame (s : State) (pt : Part) (size : Nat) : Option Nat := frameBeside (lpddrWins pt) (takenFrames s pt) size

/-- The next page that device firmware moves to LPDDR-6 for a pending entry into retention: partition, address and frame (R310). -/
def retainNext (s : State) : Option (Nat × Nat × Nat) :=
  s.parts.findSome? (fun e => (pagesOver s e.2 (retentionRanges s)).findSome? (fun x =>
    if onMigrating s (65536 * pteBits x.2.2 0 36) then none
    else (freeFrame s e.2 x.2.1).map (fun f => (e.1, x.1, f / 65536))))

/-- Entry into retention refused, or left pending while firmware moves the groups' pages (R310). -/
def retainEnter (s : State) (rs : List (Nat × Nat)) : State := if s.parts.any (fun e => cannotTake s e.2 rs) then endBox s 1 3 [] else s

/-- RETAIN carried out (R310): leaving returns the groups scrubbed to zero; entering waits for the pages to be moved. -/
def retainGo (m : Window) (s : State) : State :=
  let r := windowBytes m
  let d := boxStack r
  let mask : BitVec 4 := BitVec.ofNat 4 (fieldNat r 8 1)
  if d > 3 || fieldNat r 8 1 > 15 || fieldNat r 9 1 > 1 then endBox s 1 2 []
  else if fieldNat r 9 1 = 1 then
    (if mask = 0 then endBox s 1 1 (leBytes 1 (stackOf s d).retained.toNat) else retainEnter s (groupRanges d mask))
  else
    let x := stackOf s d
    let out := groupRanges d (mask &&& x.retained)
    let t := { s with mem := s.mem.filter (fun c => !inRanges out c.1), poison := s.poison.filter (fun l => !inRanges out (64 * l)) }
    let y := { x with retained := x.retained &&& ~~~mask }
    endBox (withStack t d y) 1 1 (leBytes 1 y.retained.toNat)

/-- RETAIN (R310). -/
def execRetain (m : Window) (s : State) : Host.Outcome State Fault Refusal := ringOp 1 3 4 m (retainGo m) s

/-- A pending entry into retention, once no page is mapped onto its groups: their range leaves every window (R310). -/
def retainTick (s : State) : State :=
  match (boxOf s 1).cmd with
  | none => s
  | some m =>
    let r := windowBytes m
    let d := boxStack r
    let rs := groupRanges d (BitVec.ofNat 4 (fieldNat r 8 1))
    let x := stackOf s d
    if fieldNat r 0 1 = 3 && x.leaving = 0 && s.parts.all (fun e => (pagesOver s e.2 rs).isEmpty) then
      hotRemove rs (withStack s d { x with leaving := BitVec.ofNat 4 (fieldNat r 8 1) })
    else s

/-- RETENTION_POWER_OFF (R310): groups whose range has left every window power off once nothing in flight uses it. -/
def execRetentionPowerOff (stack : Nat) (s : State) : Host.Outcome State Fault Refusal :=
  let x := stackOf s stack
  let rs := groupRanges stack x.leaving
  if stack > 3 || x.leaving = 0 || usesPhysical s (runOver rs) then .next s
  else
    let y := { x with retained := x.retained ||| x.leaving, leaving := 0 }
    .next (endBox (withStack s stack y) 1 1 (leBytes 1 y.retained.toNat))

/-- REPAIRLOG carried out (R311): up to six entries from the first one asked for; what the log holds is open (log 5). -/
def repairlogGo (m : Window) (s : State) : State :=
  let r := windowBytes m
  let d := boxStack r
  let first := fieldNat r 8 2
  if d > 3 then endBox s 1 2 []
  else endBox s 1 1 ((span first (min 6 (Config.repairCount d - first))).flatMap (fun i => leBytes 8 (Config.repairEntry d i).toNat))

/-- REPAIRLOG (R311). -/
def execRepairlog (m : Window) (s : State) : Host.Outcome State Fault Refusal := ringOp 1 4 4 m (repairlogGo m) s

/-! ## Recovery and resets (R386, R394, R396) -/

/-- Whether the security processor accepts a firmware image (R396). -/
def imageGood (s : State) (img : List Byte) : Bool := Config.firmwareVerifies img && s.fw.fused.toNat ≤ (Config.firmwareSeq img).toNat

/-- RECOVER carried out (R386): a good image goes to flash, and the device resets cold 1 ms later, at the length a clock has now: TNS does
not run where no firmware has verified (R396). -/
def recoverGo (m : Window) (s : State) : State :=
  let r := windowBytes m
  let img := Config.hostBytes s.fresh (fieldNat r 16 4)
  let t := { s with fresh := s.fresh + 1 }
  if fieldNat r 1 1 ≠ 0 || fieldNat r 5 3 ≠ 0 || fieldNat r 20 44 ≠ 0 || fieldNat r 8 8 % 4096 ≠ 0 then endBox s 2 2 []
  else if !s.parts.isEmpty || !imageGood s img then endBox t 2 3 []
  else endBox { t with fw := { t.fw with image := img, resetAt := some (s.clk + ceilDiv 21000000000 s.tb.period) } } 2 1 []

/-- RECOVER (R386). -/
def execRecover (m : Window) (s : State) : Host.Outcome State Fault Refusal := ringOp 2 1 1 m (recoverGo m) s

/-- The machine after a cold reset with what flash and fuses hold; what other packages of the domain hold stays (R257), and the schedule and the free
values go on. Firmware that does not verify
trains no link (R396). -/
def coldStart (s : State) : State :=
  { State.reset with
    mem := s.mem.filter (fun c => farAddr c.1), poison := s.poison.filter (fun l => farAddr (64 * l))
    fw := { fused := s.fw.fused, running := Config.firmwareSeq s.fw.image, verified := imageGood s s.fw.image, resetAt := none
            image := s.fw.image, timed := false }
    fports := if imageGood s s.fw.image then [] else (span 0 16).map (fun i => (i, { up := false, fast := true, replays := [] }))
    turns := s.turns, fresh := s.fresh }

/-- COLD_RESET (R396). -/
def execColdReset (s : State) : Host.Outcome State Fault Refusal := .next (coldStart s)

/-- RECOVER_RESET (R386): the reset 1 ms after an accepted RECOVER. -/
def execRecoverReset (s : State) : Host.Outcome State Fault Refusal :=
  match s.fw.resetAt with
  | some t => if t ≤ s.clk then .next (coldStart s) else .next s
  | none => .next s

/-- FUNCTION_LEVEL_RESET (R394): every node of the partition is cancelled; the partition stays. -/
def execFunctionLevelReset (part : Nat) (s : State) : Host.Outcome State Fault Refusal :=
  if mapHas s.parts part then .next (cancelNodes (partNodes (partOf s part)) s) else .next s

/-! ## Registers of the host's functions (R386, R393) -/

/-- PFEVSTAT_CLEAR (R386). -/
def execPfevstatClear (value : Word) (s : State) : Host.Outcome State Fault Refusal := .next { s with pfEv := s.pfEv &&& ~~~value }

/-- PFERR_CLEAR (R386). -/
def execPferrClear (value : Word) (s : State) : Host.Outcome State Fault Refusal := .next { s with pfErr := s.pfErr &&& ~~~value }

/-- EVSTAT_CLEAR (R393); the function of a partition that does not exist is not enabled. -/
def execEvstatClear (part : Nat) (value : Word) (s : State) : Host.Outcome State Fault Refusal :=
  if mapHas s.parts part then .next { s with vfEv := mapSet s.vfEv part (mapGet 0 s.vfEv part &&& ~~~value) } else .next s

/-- REGISTER_WRITE (R386): a mailbox window holds what is written to it, and every other offset ignores a write. -/
def execRegisterWrite (off : Nat) (value : Word) (s : State) : Host.Outcome State Fault Refusal :=
  let n := off / 256
  if off % 8 = 0 && n < 3 && off % 256 < 64 && (n = 2 || s.fw.verified) then
    let b := boxOf s n
    .next (withBox s n { b with window := windowOf (patch (windowBytes b.window) (off % 256) (leBytes 8 value.toNat)) })
  else .next s

/-- The device's own clock: pending commands of the mailboxes go on, a removal for retention before a RESIZE (R310, R389 to R391). -/
def hostTick (s : State) : State := if s.boxes.isEmpty then s else mgmtTick (retainTick s)

end Sys2Proof.Machine
end

