-- ==== Sys2Proof/Machine/Dispatch.lean ====
section
/-! DEFINITION. One arm for each constructor of Instr. -/

namespace Sys2Proof.Machine

def exec (i : Instr) (s : State) : Host.Outcome State Fault Refusal :=
  match i with
  | .trap ra => Sys2Proof.Machine.execTrap ra s
  | .add rd ra rb => Sys2Proof.Machine.execAdd rd ra rb s
  | .sub rd ra rb => Sys2Proof.Machine.execSub rd ra rb s
  | .and rd ra rb => Sys2Proof.Machine.execAnd rd ra rb s
  | .or rd ra rb => Sys2Proof.Machine.execOr rd ra rb s
  | .xor rd ra rb => Sys2Proof.Machine.execXor rd ra rb s
  | .andn rd ra rb => Sys2Proof.Machine.execAndn rd ra rb s
  | .orn rd ra rb => Sys2Proof.Machine.execOrn rd ra rb s
  | .sll rd ra rb => Sys2Proof.Machine.execSll rd ra rb s
  | .srl rd ra rb => Sys2Proof.Machine.execSrl rd ra rb s
  | .sra rd ra rb => Sys2Proof.Machine.execSra rd ra rb s
  | .rol rd ra rb => Sys2Proof.Machine.execRol rd ra rb s
  | .ror rd ra rb => Sys2Proof.Machine.execRor rd ra rb s
  | .mul rd ra rb => Sys2Proof.Machine.execMul rd ra rb s
  | .mulh rd ra rb => Sys2Proof.Machine.execMulh rd ra rb s
  | .mulhu rd ra rb => Sys2Proof.Machine.execMulhu rd ra rb s
  | .div rd ra rb => Sys2Proof.Machine.execDiv rd ra rb s
  | .divu rd ra rb => Sys2Proof.Machine.execDivu rd ra rb s
  | .rem rd ra rb => Sys2Proof.Machine.execRem rd ra rb s
  | .remu rd ra rb => Sys2Proof.Machine.execRemu rd ra rb s
  | .min rd ra rb => Sys2Proof.Machine.execMin rd ra rb s
  | .max rd ra rb => Sys2Proof.Machine.execMax rd ra rb s
  | .minu rd ra rb => Sys2Proof.Machine.execMinu rd ra rb s
  | .maxu rd ra rb => Sys2Proof.Machine.execMaxu rd ra rb s
  | .slt rd ra rb => Sys2Proof.Machine.execSlt rd ra rb s
  | .sltu rd ra rb => Sys2Proof.Machine.execSltu rd ra rb s
  | .clz rd ra => Sys2Proof.Machine.execClz rd ra s
  | .ctz rd ra => Sys2Proof.Machine.execCtz rd ra s
  | .popc rd ra => Sys2Proof.Machine.execPopc rd ra s
  | .brev rd ra => Sys2Proof.Machine.execBrev rd ra s
  | .clmul rd ra rb => Sys2Proof.Machine.execClmul rd ra rb s
  | .clmulh rd ra rb => Sys2Proof.Machine.execClmulh rd ra rb s
  | .sextB rd ra => Sys2Proof.Machine.execSextB rd ra s
  | .sextH rd ra => Sys2Proof.Machine.execSextH rd ra s
  | .sextW rd ra => Sys2Proof.Machine.execSextW rd ra s
  | .zextB rd ra => Sys2Proof.Machine.execZextB rd ra s
  | .zextH rd ra => Sys2Proof.Machine.execZextH rd ra s
  | .zextW rd ra => Sys2Proof.Machine.execZextW rd ra s
  | .addi rd ra imm => Sys2Proof.Machine.execAddi rd ra imm s
  | .andi rd ra imm => Sys2Proof.Machine.execAndi rd ra imm s
  | .ori rd ra imm => Sys2Proof.Machine.execOri rd ra imm s
  | .xori rd ra imm => Sys2Proof.Machine.execXori rd ra imm s
  | .slti rd ra imm => Sys2Proof.Machine.execSlti rd ra imm s
  | .sltiu rd ra imm => Sys2Proof.Machine.execSltiu rd ra imm s
  | .slli rd ra sh => Sys2Proof.Machine.execSlli rd ra sh s
  | .srli rd ra sh => Sys2Proof.Machine.execSrli rd ra sh s
  | .srai rd ra sh => Sys2Proof.Machine.execSrai rd ra sh s
  | .hset rd half imm => Sys2Proof.Machine.execHset rd half imm s
  | .hins rd half imm => Sys2Proof.Machine.execHins rd half imm s
  | .beq ra rb off => Sys2Proof.Machine.execBeq ra rb off s
  | .bne ra rb off => Sys2Proof.Machine.execBne ra rb off s
  | .blt ra rb off => Sys2Proof.Machine.execBlt ra rb off s
  | .bge ra rb off => Sys2Proof.Machine.execBge ra rb off s
  | .bltu ra rb off => Sys2Proof.Machine.execBltu ra rb off s
  | .bgeu ra rb off => Sys2Proof.Machine.execBgeu ra rb off s
  | .jal off => Sys2Proof.Machine.execJal off s
  | .jalr rd ra imm => Sys2Proof.Machine.execJalr rd ra imm s
  | .ldb rd ra cls off => Sys2Proof.Machine.execLdb rd ra cls off s
  | .ldh rd ra cls off => Sys2Proof.Machine.execLdh rd ra cls off s
  | .ldw rd ra cls off => Sys2Proof.Machine.execLdw rd ra cls off s
  | .ldd rd ra cls off => Sys2Proof.Machine.execLdd rd ra cls off s
  | .ldbu rd ra cls off => Sys2Proof.Machine.execLdbu rd ra cls off s
  | .ldhu rd ra cls off => Sys2Proof.Machine.execLdhu rd ra cls off s
  | .ldwu rd ra cls off => Sys2Proof.Machine.execLdwu rd ra cls off s
  | .stb rs ra cls off => Sys2Proof.Machine.execStb rs ra cls off s
  | .sth rs ra cls off => Sys2Proof.Machine.execSth rs ra cls off s
  | .stw rs ra cls off => Sys2Proof.Machine.execStw rs ra cls off s
  | .std rs ra cls off => Sys2Proof.Machine.execStd rs ra cls off s
  | .amoAdd rd ra rb cls use size => Sys2Proof.Machine.execAmoAdd rd ra rb cls use size s
  | .amoAnd rd ra rb cls use size => Sys2Proof.Machine.execAmoAnd rd ra rb cls use size s
  | .amoOr rd ra rb cls use size => Sys2Proof.Machine.execAmoOr rd ra rb cls use size s
  | .amoXor rd ra rb cls use size => Sys2Proof.Machine.execAmoXor rd ra rb cls use size s
  | .amoMin rd ra rb cls use size => Sys2Proof.Machine.execAmoMin rd ra rb cls use size s
  | .amoMax rd ra rb cls use size => Sys2Proof.Machine.execAmoMax rd ra rb cls use size s
  | .amoSwap rd ra rb cls use size => Sys2Proof.Machine.execAmoSwap rd ra rb cls use size s
  | .cas rd ra rb cls use size => Sys2Proof.Machine.execCas rd ra rb cls use size s
  | .fence scope ball aall ra rb => Sys2Proof.Machine.execFence scope ball aall ra rb s
  | .bknotSet k off => Sys2Proof.Machine.execBknotSet k off s
  | .bknotClr k off => Sys2Proof.Machine.execBknotClr k off s
  | .bstatSet eng flag off => Sys2Proof.Machine.execBstatSet eng flag off s
  | .bstatClr eng flag off => Sys2Proof.Machine.execBstatClr eng flag off s
  | .getsr rd sr => Sys2Proof.Machine.execGetsr rd sr s
  | .putsr ra sr => Sys2Proof.Machine.execPutsr ra sr s
  | .rdtime rd => Sys2Proof.Machine.execRdtime rd s
  | .rdcyc rd => Sys2Proof.Machine.execRdcyc rd s
  | .sleepuntil ra => Sys2Proof.Machine.execSleepuntil ra s
  | .talloc rd ra => Sys2Proof.Machine.execTalloc rd ra s
  | .tfree ra => Sys2Proof.Machine.execTfree ra s
  | .tinfo rd ra => Sys2Proof.Machine.execTinfo rd ra s
  | .tsetfEmpty ra rb => Sys2Proof.Machine.execTsetfEmpty ra rb s
  | .tsetfFull ra rb => Sys2Proof.Machine.execTsetfFull ra rb s
  | .tsetfTarget ra rb => Sys2Proof.Machine.execTsetfTarget ra rb s
  | .twait ra rb => Sys2Proof.Machine.execTwait ra rb s
  | .shapeW ra rb => Sys2Proof.Machine.execShapeW ra rb s
  | .portW ra eng word => Sys2Proof.Machine.execPortW ra eng word s
  | .portGo rd eng => Sys2Proof.Machine.execPortGo rd eng s
  | .portCut ra eng => Sys2Proof.Machine.execPortCut ra eng s
  | .evqPop rd ra => Sys2Proof.Machine.execEvqPop rd ra s
  | .tskArm ra => Sys2Proof.Machine.execTskArm ra s
  | .tskSigDec ra => Sys2Proof.Machine.execTskSigDec ra s
  | .tskSigWake ra => Sys2Proof.Machine.execTskSigWake ra s
  | .tskEnd ra => Sys2Proof.Machine.execTskEnd ra s
  | .tskRetry ra => Sys2Proof.Machine.execTskRetry ra s
  | .hlCancel ra rb => Sys2Proof.Machine.execHlCancel ra rb s
  | .hlCancelReset ra rb => Sys2Proof.Machine.execHlCancelReset ra rb s
  | .hlRead rd ra rb => Sys2Proof.Machine.execHlRead rd ra rb s
  | .knotSet num => Sys2Proof.Machine.execKnotSet num s
  | .knotClr num => Sys2Proof.Machine.execKnotClr num s
  | .knotWait num => Sys2Proof.Machine.execKnotWait num s
  | .tokGive num => Sys2Proof.Machine.execTokGive num s
  | .tokTake num => Sys2Proof.Machine.execTokTake num s
  | .barArrive num => Sys2Proof.Machine.execBarArrive num s
  | .barWait num => Sys2Proof.Machine.execBarWait num s
  | .bobArrive ra => Sys2Proof.Machine.execBobArrive ra s
  | .bobExpect ra rb => Sys2Proof.Machine.execBobExpect ra rb s
  | .bobWait ra => Sys2Proof.Machine.execBobWait ra s
  | .fabBond rd ra => Sys2Proof.Machine.execFabBond rd ra s
  | .fabBondNw rd ra => Sys2Proof.Machine.execFabBondNw rd ra s
  | .fabDrain ra => Sys2Proof.Machine.execFabDrain ra s
  | .fabQuery rd ra => Sys2Proof.Machine.execFabQuery rd ra s
  | .engStart ra rb => Sys2Proof.Machine.execEngStart ra rb s
  | .engBind ra => Sys2Proof.Machine.execEngBind ra s
  | .engFork ra => Sys2Proof.Machine.execEngFork ra s
  | .engStop ra => Sys2Proof.Machine.execEngStop ra s
  | .engStat rd ra => Sys2Proof.Machine.execEngStat rd ra s
  | .tokCfgClaim ra rb => Sys2Proof.Machine.execTokCfgClaim ra rb s
  | .tokCfgRelease ra rb => Sys2Proof.Machine.execTokCfgRelease ra rb s
  | .vadd w => Sys2Proof.Machine.execVadd w s
  | .vsub w => Sys2Proof.Machine.execVsub w s
  | .vmul w => Sys2Proof.Machine.execVmul w s
  | .vfma w => Sys2Proof.Machine.execVfma w s
  | .vfms w => Sys2Proof.Machine.execVfms w s
  | .vnfma w => Sys2Proof.Machine.execVnfma w s
  | .vmin w => Sys2Proof.Machine.execVmin w s
  | .vmax w => Sys2Proof.Machine.execVmax w s
  | .vabs w => Sys2Proof.Machine.execVabs w s
  | .vneg w => Sys2Proof.Machine.execVneg w s
  | .vscale w => Sys2Proof.Machine.execVscale w s
  | .vrcp w => Sys2Proof.Machine.execVrcp w s
  | .vrsq w => Sys2Proof.Machine.execVrsq w s
  | .vexp2 w => Sys2Proof.Machine.execVexp2 w s
  | .vlog2 w => Sys2Proof.Machine.execVlog2 w s
  | .vtanh w => Sys2Proof.Machine.execVtanh w s
  | .vsigm w => Sys2Proof.Machine.execVsigm w s
  | .vsinpi w => Sys2Proof.Machine.execVsinpi w s
  | .vcospi w => Sys2Proof.Machine.execVcospi w s
  | .vand w => Sys2Proof.Machine.execVand w s
  | .vor w => Sys2Proof.Machine.execVor w s
  | .vxor w => Sys2Proof.Machine.execVxor w s
  | .vnot w => Sys2Proof.Machine.execVnot w s
  | .vshl w => Sys2Proof.Machine.execVshl w s
  | .vshr w => Sys2Proof.Machine.execVshr w s
  | .vsra w => Sys2Proof.Machine.execVsra w s
  | .vclmul w => Sys2Proof.Machine.execVclmul w s
  | .vclmulh w => Sys2Proof.Machine.execVclmulh w s
  | .vpopc w => Sys2Proof.Machine.execVpopc w s
  | .vcmpeq w => Sys2Proof.Machine.execVcmpeq w s
  | .vcmplt w => Sys2Proof.Machine.execVcmplt w s
  | .vcmple w => Sys2Proof.Machine.execVcmple w s
  | .vsel w => Sys2Proof.Machine.execVsel w s
  | .vclass w => Sys2Proof.Machine.execVclass w s
  | .vcvt src w => Sys2Proof.Machine.execVcvt src w s
  | .vrnd w => Sys2Proof.Machine.execVrnd w s
  | .vrsum w => Sys2Proof.Machine.execVrsum w s
  | .vrmax w => Sys2Proof.Machine.execVrmax w s
  | .vrmin w => Sys2Proof.Machine.execVrmin w s
  | .vrarg w => Sys2Proof.Machine.execVrarg w s
  | .vcsum w => Sys2Proof.Machine.execVcsum w s
  | .vmov w => Sys2Proof.Machine.execVmov w s
  | .vbcastElem w => Sys2Proof.Machine.execVbcastElem w s
  | .vbcastRow0 w => Sys2Proof.Machine.execVbcastRow0 w s
  | .vtrn w => Sys2Proof.Machine.execVtrn w s
  | .vrot w => Sys2Proof.Machine.execVrot w s
  | .vpackCat w => Sys2Proof.Machine.execVpackCat w s
  | .vpackZip w => Sys2Proof.Machine.execVpackZip w s
  | .vunpkLo w => Sys2Proof.Machine.execVunpkLo w s
  | .vunpkHi w => Sys2Proof.Machine.execVunpkHi w s
  | .vunpkEven w => Sys2Proof.Machine.execVunpkEven w s
  | .vunpkOdd w => Sys2Proof.Machine.execVunpkOdd w s
  | .vperm w => Sys2Proof.Machine.execVperm w s
  | .vldt w => Sys2Proof.Machine.execVldt w s
  | .vstt w => Sys2Proof.Machine.execVstt w s
  | .vshape rowsm1 lanesm1 course => Sys2Proof.Machine.execVshape rowsm1 lanesm1 course s
  | .vloop lc src value course => Sys2Proof.Machine.execVloop lc src value course s
  | .vbrAlways target course => Sys2Proof.Machine.execVbrAlways target course s
  | .vbrKset k target course => Sys2Proof.Machine.execVbrKset k target course s
  | .vbrKclr k target course => Sys2Proof.Machine.execVbrKclr k target course s
  | .vbrLoop lc target course => Sys2Proof.Machine.execVbrLoop lc target course s
  | .vbrEnd course => Sys2Proof.Machine.execVbrEnd course s
  | .vmod lenm1 iim1 tsrc trips exk exs course => Sys2Proof.Machine.execVmod lenm1 iim1 tsrc trips exk exs course s
  | .vknotSet k course => Sys2Proof.Machine.execVknotSet k course s
  | .vknotClr k course => Sys2Proof.Machine.execVknotClr k course s
  | .vknotAny k src course => Sys2Proof.Machine.execVknotAny k src course s
  | .vknotAll k src course => Sys2Proof.Machine.execVknotAll k src course s
  | .vwaitSet k course => Sys2Proof.Machine.execVwaitSet k course s
  | .vwaitClr k course => Sys2Proof.Machine.execVwaitClr k course s
  | .vwaitDrain course => Sys2Proof.Machine.execVwaitDrain course s
  | .rep nm1 course => Sys2Proof.Machine.execRep nm1 course s
  | .vnop kpred take give course => Sys2Proof.Machine.execVnop kpred take give course s
  | .mldw f hw dprec clr br0 bc0 => Sys2Proof.Machine.execMldw f hw dprec clr br0 bc0 s
  | .mswap f => Sys2Proof.Machine.execMswap f s
  | .mmac f m => Sys2Proof.Machine.execMmac f m s
  | .mepi f e => Sys2Proof.Machine.execMepi f e s
  | .mepiRemote f e dest => Sys2Proof.Machine.execMepiRemote f e dest s
  | .mmark f => Sys2Proof.Machine.execMmark f s
  | .mnop f => Sys2Proof.Machine.execMnop f s
  | .mloop c lc src value => Sys2Proof.Machine.execMloop c lc src value s
  | .mbrAlways c target => Sys2Proof.Machine.execMbrAlways c target s
  | .mbrKset c k target => Sys2Proof.Machine.execMbrKset c k target s
  | .mbrKclr c k target => Sys2Proof.Machine.execMbrKclr c k target s
  | .mbrLoop c lc target => Sys2Proof.Machine.execMbrLoop c lc target s
  | .mbrEnd c => Sys2Proof.Machine.execMbrEnd c s
  | .mmod c lenm1 iim1 tsrc trips exk exs => Sys2Proof.Machine.execMmod c lenm1 iim1 tsrc trips exk exs s
  | .mwaitSet c k => Sys2Proof.Machine.execMwaitSet c k s
  | .mwaitClr c k => Sys2Proof.Machine.execMwaitClr c k s
  | .mwaitDrain c => Sys2Proof.Machine.execMwaitDrain c s
  | .hodCopyToTile p q => Sys2Proof.Machine.execHodCopyToTile p q s
  | .hodCopyToMemory p q => Sys2Proof.Machine.execHodCopyToMemory p q s
  | .hodCopyMemory p q => Sys2Proof.Machine.execHodCopyMemory p q s
  | .hodFillTile p q => Sys2Proof.Machine.execHodFillTile p q s
  | .hodFillMemory p q => Sys2Proof.Machine.execHodFillMemory p q s
  | .hodImload p q => Sys2Proof.Machine.execHodImload p q s
  | .tierRun p q => Sys2Proof.Machine.execTierRun p q s
  | .tierStop p q => Sys2Proof.Machine.execTierStop p q s
  | .tierStopDrain p q => Sys2Proof.Machine.execTierStopDrain p q s
  | .tierRopeSource p q => Sys2Proof.Machine.execTierRopeSource p q s
  | .tierRopeSubscriber p q => Sys2Proof.Machine.execTierRopeSubscriber p q s
  | .splCollAllReduce p q => Sys2Proof.Machine.execSplCollAllReduce p q s
  | .splCollReduceScatter p q => Sys2Proof.Machine.execSplCollReduceScatter p q s
  | .splCollAllGather p q => Sys2Proof.Machine.execSplCollAllGather p q s
  | .splCollBroadcast p q => Sys2Proof.Machine.execSplCollBroadcast p q s
  | .splCollAllToAll p q => Sys2Proof.Machine.execSplCollAllToAll p q s
  | .splCollTransposingAllToAll p q => Sys2Proof.Machine.execSplCollTransposingAllToAll p q s
  | .splPut p q => Sys2Proof.Machine.execSplPut p q s
  | .splSigSet p q => Sys2Proof.Machine.execSplSigSet p q s
  | .splSigAdd p q => Sys2Proof.Machine.execSplSigAdd p q s
  | .gatOpen p q => Sys2Proof.Machine.execGatOpen p q s
  | .gatClose p q => Sys2Proof.Machine.execGatClose p q s
  | .gatCloseFlush p q => Sys2Proof.Machine.execGatCloseFlush p q s
  | .trcMark p q => Sys2Proof.Machine.execTrcMark p q s
  | .wfe => Sys2Proof.Machine.execWfe s
  | .evqWait => Sys2Proof.Machine.execEvqWait s
  | .halt => Sys2Proof.Machine.execHalt s
  | .nop => Sys2Proof.Machine.execNop s
  | .brk => Sys2Proof.Machine.execBrk s
  | .eret => Sys2Proof.Machine.execEret s
  | .courseIssue core => Sys2Proof.Machine.execCourseIssue core s
  | .repStep core => Sys2Proof.Machine.execRepStep core s
  | .moduloSlot core stream => Sys2Proof.Machine.execModuloSlot core stream s
  | .rowLanding core => Sys2Proof.Machine.execRowLanding core s
  | .wordRetirement core sub => Sys2Proof.Machine.execWordRetirement core sub s
  | .scalarWaitResume core slot => Sys2Proof.Machine.execScalarWaitResume core slot s
  | .loadResponse core k => Sys2Proof.Machine.execLoadResponse core k s
  | .requestSlotGrant core k => Sys2Proof.Machine.execRequestSlotGrant core k s
  | .trapEntry core slot => Sys2Proof.Machine.execTrapEntry core slot s
  | .unitEnd core slot => Sys2Proof.Machine.execUnitEnd core slot s
  | .depcntDecrement k => Sys2Proof.Machine.execDepcntDecrement k s
  | .dispatch core slot => Sys2Proof.Machine.execDispatch core slot s
  | .blocking part => Sys2Proof.Machine.execBlocking part s
  | .preemption core slot => Sys2Proof.Machine.execPreemption core slot s
  | .resume core slot k => Sys2Proof.Machine.execResume core slot k s
  | .deposit k => Sys2Proof.Machine.execDeposit k s
  | .heldDepositRelease k => Sys2Proof.Machine.execHeldDepositRelease k s
  | .tileClearEnd core h => Sys2Proof.Machine.execTileClearEnd core h s
  | .commandEnd k => Sys2Proof.Machine.execCommandEnd k s
  | .hopStart slot hop => Sys2Proof.Machine.execHopStart slot hop s
  | .hopComplete slot hop => Sys2Proof.Machine.execHopComplete slot hop s
  | .latenessRecompute slot => Sys2Proof.Machine.execLatenessRecompute slot s
  | .join k => Sys2Proof.Machine.execJoin k s
  | .ropeSend slot => Sys2Proof.Machine.execRopeSend slot s
  | .consumedReport k => Sys2Proof.Machine.execConsumedReport k s
  | .multicastLanding k => Sys2Proof.Machine.execMulticastLanding k s
  | .subscriberLeave slot pkg => Sys2Proof.Machine.execSubscriberLeave slot pkg s
  | .flitReceive k => Sys2Proof.Machine.execFlitReceive k s
  | .flitReoffer k => Sys2Proof.Machine.execFlitReoffer k s
  | .collectiveAnnounce k => Sys2Proof.Machine.execCollectiveAnnounce k s
  | .memberWithdraw k => Sys2Proof.Machine.execMemberWithdraw k s
  | .remoteRowHandoff core sub => Sys2Proof.Machine.execRemoteRowHandoff core sub s
  | .remoteRowArrival k => Sys2Proof.Machine.execRemoteRowArrival k s
  | .signalApply k => Sys2Proof.Machine.execSignalApply k s
  | .linkReplay port => Sys2Proof.Machine.execLinkReplay port s
  | .linkRetrain port => Sys2Proof.Machine.execLinkRetrain port s
  | .portDown port => Sys2Proof.Machine.execPortDown port s
  | .linkFailure port => Sys2Proof.Machine.execLinkFailure port s
  | .barPhaseAdvance b => Sys2Proof.Machine.execBarPhaseAdvance b s
  | .requestArrival inlet line => Sys2Proof.Machine.execRequestArrival inlet line s
  | .batchOpen chan => Sys2Proof.Machine.execBatchOpen chan s
  | .batchDeadline chan => Sys2Proof.Machine.execBatchDeadline chan s
  | .subArrayReplay core sub => Sys2Proof.Machine.execSubArrayReplay core sub s
  | .quadTest quad => Sys2Proof.Machine.execQuadTest quad s
  | .quadTestPass quad => Sys2Proof.Machine.execQuadTestPass quad s
  | .quadTestFail quad => Sys2Proof.Machine.execQuadTestFail quad s
  | .spareSubstitution core => Sys2Proof.Machine.execSpareSubstitution core s
  | .migrationRemap k => Sys2Proof.Machine.execMigrationRemap k s
  | .invalidation part addr => Sys2Proof.Machine.execInvalidation part addr s
  | .invalidationDone part => Sys2Proof.Machine.execInvalidationDone part s
  | .create m => Sys2Proof.Machine.execCreate m s
  | .resize m => Sys2Proof.Machine.execResize m s
  | .destroy m => Sys2Proof.Machine.execDestroy m s
  | .preempt m => Sys2Proof.Machine.execPreempt m s
  | .linkup m => Sys2Proof.Machine.execLinkup m s
  | .attest m => Sys2Proof.Machine.execAttest m s
  | .telemetry m => Sys2Proof.Machine.execTelemetry m s
  | .scrub m => Sys2Proof.Machine.execScrub m s
  | .retain m => Sys2Proof.Machine.execRetain m s
  | .retentionPowerOff stack => Sys2Proof.Machine.execRetentionPowerOff stack s
  | .repairlog m => Sys2Proof.Machine.execRepairlog m s
  | .recover m => Sys2Proof.Machine.execRecover m s
  | .recoverReset => Sys2Proof.Machine.execRecoverReset s
  | .pfevstatClear value => Sys2Proof.Machine.execPfevstatClear value s
  | .pferrClear value => Sys2Proof.Machine.execPferrClear value s
  | .evstatClear part value => Sys2Proof.Machine.execEvstatClear part value s
  | .registerWrite off value => Sys2Proof.Machine.execRegisterWrite off value s
  | .coldReset => Sys2Proof.Machine.execColdReset s
  | .functionLevelReset part => Sys2Proof.Machine.execFunctionLevelReset part s
  | .ptpSync offset => Sys2Proof.Machine.execPtpSync offset s
  | .ppsEdge => Sys2Proof.Machine.execPpsEdge s
  | .dvfsChange ps => Sys2Proof.Machine.execDvfsChange ps s
  | .illegal st => Sys2Proof.Machine.execIllegal st s
  | .fetch st => Sys2Proof.Machine.execFetch st s
  | .storeAcknowledgement core k => Sys2Proof.Machine.execStoreAcknowledgement core k s
  | .dividerFinish core => Sys2Proof.Machine.execDividerFinish core s
  | .pageMigration part va frame => Sys2Proof.Machine.execPageMigration part va frame s
  | .referenceLost => Sys2Proof.Machine.execReferenceLost s

end Sys2Proof.Machine
end

