-- ==== Sys2Proof/Machine/Schedule.lean ====
section
/-! DEFINITION. Who acts next: fetching a scalar word, which slot issues (R80), what a sequencer or an engine does at its turn, the
steps that fall due by the clock, and what happens when no turn is given (log 1). -/
namespace Sys2Proof.Machine

/-! ## Scalar issue (R19 to R21, R80, R140, R256) -/

/-- The registers a scalar word reads or writes. -/
def regsOf : Instr → List (BitVec 5)
  | .trap ra => [ra]
  | .add rd ra rb => [rd, ra, rb]
  | .sub rd ra rb => [rd, ra, rb]
  | .and rd ra rb => [rd, ra, rb]
  | .or rd ra rb => [rd, ra, rb]
  | .xor rd ra rb => [rd, ra, rb]
  | .andn rd ra rb => [rd, ra, rb]
  | .orn rd ra rb => [rd, ra, rb]
  | .sll rd ra rb => [rd, ra, rb]
  | .srl rd ra rb => [rd, ra, rb]
  | .sra rd ra rb => [rd, ra, rb]
  | .rol rd ra rb => [rd, ra, rb]
  | .ror rd ra rb => [rd, ra, rb]
  | .mul rd ra rb => [rd, ra, rb]
  | .mulh rd ra rb => [rd, ra, rb]
  | .mulhu rd ra rb => [rd, ra, rb]
  | .div rd ra rb => [rd, ra, rb]
  | .divu rd ra rb => [rd, ra, rb]
  | .rem rd ra rb => [rd, ra, rb]
  | .remu rd ra rb => [rd, ra, rb]
  | .min rd ra rb => [rd, ra, rb]
  | .max rd ra rb => [rd, ra, rb]
  | .minu rd ra rb => [rd, ra, rb]
  | .maxu rd ra rb => [rd, ra, rb]
  | .slt rd ra rb => [rd, ra, rb]
  | .sltu rd ra rb => [rd, ra, rb]
  | .clz rd ra => [rd, ra]
  | .ctz rd ra => [rd, ra]
  | .popc rd ra => [rd, ra]
  | .brev rd ra => [rd, ra]
  | .clmul rd ra rb => [rd, ra, rb]
  | .clmulh rd ra rb => [rd, ra, rb]
  | .sextB rd ra => [rd, ra]
  | .sextH rd ra => [rd, ra]
  | .sextW rd ra => [rd, ra]
  | .zextB rd ra => [rd, ra]
  | .zextH rd ra => [rd, ra]
  | .zextW rd ra => [rd, ra]
  | .addi rd ra _ => [rd, ra]
  | .andi rd ra _ => [rd, ra]
  | .ori rd ra _ => [rd, ra]
  | .xori rd ra _ => [rd, ra]
  | .slti rd ra _ => [rd, ra]
  | .sltiu rd ra _ => [rd, ra]
  | .slli rd ra _ => [rd, ra]
  | .srli rd ra _ => [rd, ra]
  | .srai rd ra _ => [rd, ra]
  | .hset rd _ _ => [rd]
  | .hins rd _ _ => [rd]
  | .beq ra rb _ => [ra, rb]
  | .bne ra rb _ => [ra, rb]
  | .blt ra rb _ => [ra, rb]
  | .bge ra rb _ => [ra, rb]
  | .bltu ra rb _ => [ra, rb]
  | .bgeu ra rb _ => [ra, rb]
  | .jal _ => [31]
  | .jalr rd ra _ => [rd, ra]
  | .ldb rd ra _ _ => [rd, ra]
  | .ldh rd ra _ _ => [rd, ra]
  | .ldw rd ra _ _ => [rd, ra]
  | .ldd rd ra _ _ => [rd, ra]
  | .ldbu rd ra _ _ => [rd, ra]
  | .ldhu rd ra _ _ => [rd, ra]
  | .ldwu rd ra _ _ => [rd, ra]
  | .stb rs ra _ _ => [rs, ra]
  | .sth rs ra _ _ => [rs, ra]
  | .stw rs ra _ _ => [rs, ra]
  | .std rs ra _ _ => [rs, ra]
  | .amoAdd rd ra rb _ _ _ => [rd, ra, rb]
  | .amoAnd rd ra rb _ _ _ => [rd, ra, rb]
  | .amoOr rd ra rb _ _ _ => [rd, ra, rb]
  | .amoXor rd ra rb _ _ _ => [rd, ra, rb]
  | .amoMin rd ra rb _ _ _ => [rd, ra, rb]
  | .amoMax rd ra rb _ _ _ => [rd, ra, rb]
  | .amoSwap rd ra rb _ _ _ => [rd, ra, rb]
  | .cas rd ra rb _ _ _ => [rd, ra, rb]
  | .fence _ _ _ ra rb => [ra, rb]
  | .getsr rd _ => [rd]
  | .putsr ra _ => [ra]
  | .rdtime rd => [rd]
  | .rdcyc rd => [rd]
  | .sleepuntil ra => [ra]
  | .talloc rd ra => [rd, ra]
  | .tfree ra => [ra]
  | .tinfo rd ra => [rd, ra]
  | .tsetfEmpty ra rb => [ra, rb]
  | .tsetfFull ra rb => [ra, rb]
  | .tsetfTarget ra rb => [ra, rb]
  | .twait ra rb => [ra, rb]
  | .shapeW ra rb => [ra, rb]
  | .portW ra _ _ => [ra]
  | .portGo rd _ => [rd]
  | .portCut ra _ => [ra]
  | .evqPop rd ra => [rd, ra]
  | .tskArm ra => [ra]
  | .tskSigDec ra => [ra]
  | .tskSigWake ra => [ra]
  | .tskEnd ra => [ra]
  | .tskRetry ra => [ra]
  | .hlCancel ra rb => [ra, rb]
  | .hlCancelReset ra rb => [ra, rb]
  | .hlRead rd ra rb => [rd, ra, rb]
  | .bobArrive ra => [ra]
  | .bobExpect ra rb => [ra, rb]
  | .bobWait ra => [ra]
  | .fabBond rd ra => [rd, ra]
  | .fabBondNw rd ra => [rd, ra]
  | .fabDrain ra => [ra]
  | .fabQuery rd ra => [rd, ra]
  | .engStart ra rb => [ra, rb]
  | .engBind ra => [ra]
  | .engFork ra => [ra]
  | .engStop ra => [ra]
  | .engStat rd ra => [rd, ra]
  | .tokCfgClaim ra rb => [ra, rb]
  | .tokCfgRelease ra rb => [ra, rb]
  | _ => []

/-- Whether a register of a unit is pending: a load, an atomic, a division or a result not yet usable is to write it (R80, R140). -/
def regPending (k : Core) (u : Unit) (clk : Nat) (r : BitVec 5) : Bool :=
  r != 0 && (clk < mapGet 0 u.ready r.toNat
    || (match k.divider with
        | some d => d.uid == u.uid && d.rd == r
        | none => false)
    || k.accs.any (fun a => a.uid == u.uid && responds a && (a.rd == r || (match a.kind with
        | .atom _ use _ _ rb => use == 4 && rb == r
        | _ => false))))

/-- Whether every register of a word is usable (R80; log 8). -/
def regsUsable (k : Core) (u : Unit) (clk : Nat) (i : Instr) : Bool := (regsOf i).all (fun r => !regPending k u clk r)

/-- The cause of a word that breaks a limit of its own fields: PRIV where the mode does not permit it, else OPERAND (R21). -/
def operandFate (u : Unit) : Instr → BitVec 8
  | .eret => if u.mode = .u then cPRIV else cOPERAND
  | .getsr _ sr => if srReadable u.mode sr.toNat then cOPERAND else cPRIV
  | .putsr _ sr => if srWritable u.mode sr.toNat then cOPERAND else cPRIV
  | _ => cOPERAND

/-- Whether a word is one that never holds at issue though it may leave its unit as it was: a branch or a jump. -/
def branches : Instr → Bool
  | .beq _ _ _ | .bne _ _ _ | .blt _ _ _ | .bge _ _ _ | .bltu _ _ _ | .bgeu _ _ _ => true
  | .jal _ | .jalr _ _ _ | .bknotSet _ _ | .bknotClr _ _ | .bstatSet _ _ _ | .bstatClr _ _ _ => true
  | _ => false

/-- Whether an access of a unit waits at issue for a request slot (R245). -/
def slotless (k : Core) (uid : Nat) : Bool := k.accs.any (fun a => a.uid == uid && !a.granted && !a.ride)

/-- Whether the scalar stream of a slot may issue its next word: it is neither waiting, ending, being stopped nor about to take a
trap, no access of its unit waits for a request slot, and its first word's clock has come (R80, R122, R138, R245, R327, R372). -/
def slotMayIssue (s : State) (core slot : Nat) : Bool :=
  let u := unitAt s core slot
  u.live && u.ending.isNone && !preempting s core slot && u.wait.isNone && !(u.mode = .u && !u.pending.isEmpty) && !u.stepped
  && !slotless (getCore s core) u.uid && mapGet 0 u.ready 32 ≤ s.clk

/-- The state with the issue slot of the core in focus taken by the slot in focus in this clock (R80). -/
def takeIssue (s : State) : State := setCur s { curCore s with lastSlot := s.focus.slot, issuedAt := some s.clk }

/-- The core with a line of memory fetched into its instruction cache, 1,024 lines of 64 bytes, the least recently used replaced (R11, R18;
log 56). -/
def touchIcache (k : Core) (line : Nat) : Core := { k with icache := ((line, false) :: k.icache.filter (fun e => e.1 != line)).take 1024 }

/-- The core with a line of its instruction cache dropped. -/
def dropIcache (k : Core) (line : Nat) : Core := { k with icache := k.icache.filter (fun e => e.1 != line) }

/-- The state with a line of the instruction cache used by the unit in focus; one that misses is fetched from outside the core
(R382). -/
def fetchLine (s : State) (line : Nat) : State :=
  let t := setCur s (touchIcache (curCore s) line)
  if (curCore s).icache.any (fun e => e.1 == line) then t else noteEgress t s.focus.core (getUnit s).part (homePkg (64 * line))

/-- What the fetch of the unit in focus brings (R19 to R21, R367): the word and the state after translation, or the fate. -/
inductive ScalarFetch where
  | word (i : Instr) (s : State)
  | fate (o : Host.Outcome State Fault Refusal)
  | hold

/-- The fetch of the unit in focus. The instruction cache is coherent: a fetch sees every store performed before it (log 56, which is the
model's choice); a line of it that is uncorrectable leaves it with the report. -/
def scalarFetch (s : State) : ScalarFetch :=
  let u := getUnit s
  if u.pc.toNat % 4 ≠ 0 then .fate (execFetch .scalar s)
  else if walkHeld s u.pc then .hold
  else
    match translate s u.pc .fetch with
    | (.fail _, t) => .fate (execFetch .scalar t)
    | (.ok pa _, t) =>
      if !homeOk t pa && !(curCore t).icache.any (fun e => e.1 == pa / 64) then .hold
      else if poisoned t pa 4 || (curCore t).icache.contains (pa / 64, true) then
        .fate (scalarDecodeFault cUNCORR 0 (setCur t (dropIcache (curCore t) (pa / 64))))
      else
        let t' := fetchLine t (pa / 64)
        match decodeScalar (memNat t'.mem pa 4) with
        | .illegal => .fate (execIllegal .scalar t')
        | .operand i => .fate (scalarDecodeFault (operandFate u i) 0 t')
        | .instr i => .word i t'

/-- A word that holds at issue leaves its unit as it found it (R80). -/
def heldWord (i : Instr) (s : State) : Host.Outcome State Fault Refusal → Bool
  | .next t => !branches i && getUnit t == getUnit s
  | _ => false

/-- The next word of a slot issued, none where the slot is skipped (R80); a word that traps is held until earlier words have completed
(R122), and the checker core compares what it does (R141). -/
def issueSlot (core slot : Nat) (s : State) : Option (Host.Outcome State Fault Refusal) :=
  if slotMayIssue s core slot then
    match scalarFetch (takeIssue (focusOn s core slot 0)) with
    | .hold => none
    | .fate o =>
      let o' := checkedAs core slot .word s o
      if checkHeld core slot .word s o' then none else some o'
    | .word i t =>
      let o := checkedWord core slot i t (exec i t)
      if regsUsable (getCore s core) (unitAt s core slot) s.clk i && !heldWord i t (exec i t) && !checkHeld core slot (comparedAs i) t o then some o
      else none
  else none

/-- The state with what the word of a skipped slot asks for: it may be held for want of a request slot (R245). -/
def skipSlot (core slot : Nat) (s : State) : State :=
  if slotMayIssue s core slot then
    match scalarFetch (takeIssue (focusOn s core slot 0)) with
    | .hold => s
    | .fate _ => s
    | .word i t =>
      match (if regsUsable (getCore s core) (unitAt s core slot) s.clk i then exec i t else .next s) with
      | .next t' => (getCore t' core).asks.foldl (fun s w => setCore s core (askShared (getCore s core) w)) s
      | _ => s
  else s

/-- The first of some slots that issues a word; none issues where all are skipped. -/
def issueFrom (core : Nat) : List Nat → State → Host.Outcome State Fault Refusal
  | [], s => .next s
  | i :: is, s =>
    match issueSlot core i s with
    | some o => o
    | none => issueFrom core is (skipSlot core i s)

/-- The scalar issue slot of a core at its turn: one word in each clock, from the first slot after the one that issued last (R80). -/
def turnScalar (core : Nat) (s : State) : Host.Outcome State Fault Refusal :=
  let k := getCore s core
  if k.issuedAt = some s.clk then .next s else issueFrom core ((span 1 4).map (fun j => (k.lastSlot + j) % 4)) s

/-! ## Sequencers and engines at their turn (R82, R276) -/

/-- The next word of the forked stream of a slot of the core in focus (R19 to R21). -/
def streamWord (n slot : Nat) (w : Fetched) (s : State) : Host.Outcome State Fault Refusal :=
  if mayIssue s s.focus.core slot n then
    match w with
    | .instr i => exec i s
    | .illegal => execIllegal (if n = 8 then .vector else .matrix) s
    | .past => execFetch (if n = 8 then .vector else .matrix) s
    | .operand => .next (streamDecodeFault n (some slot) cOPERAND s)
    | .bad => .next (streamDecodeFault n (some slot) cUNCORR s)
  else .next s

/-- The vector sequencer of a core at its turn (R102, R105, R111, R113). -/
def turnVector (core : Nat) (s : State) : Host.Outcome State Fault Refusal :=
  let k := getCore s core
  match vecSlot k with
  | none => .next s
  | some slot =>
    let m := k.vec.strm
    match m.mode with
    | .bound => execCourseIssue core s
    | .forked =>
      if m.mod.isSome then execModuloSlot core 8 s
      else if m.repcnt ≠ 0 then execRepStep core s
      else streamWord 8 slot (fetchWord k 8 m.pc.toNat) (focusOn s core slot 0)
    | _ => .next s

/-- A matrix sequencer of a core at its turn; a bound one issues with its course (R105, R111). -/
def turnMatrix (core n : Nat) (s : State) : Host.Outcome State Fault Refusal :=
  let k := getCore s core
  match matSlot k n with
  | none => .next s
  | some slot =>
    let m := matOf k n
    match m.mode with
    | .forked =>
      if m.mod.isSome then execModuloSlot core n s
      else streamWord n slot (fetchWord k n m.pc.toNat) (focusOn s core slot n)
    | _ => .next s

/-- An engine at its turn: the head of a poster's queue starts, or is refused as reserved (R44, R276). -/
def turnEngine (e core slot : Nat) (s : State) : Host.Outcome State Fault Refusal :=
  let p : Poster := { core := core, slot := slot }
  match queueAt s p e with
  | [] => .next s
  | c :: _ =>
    match cmdInstr { c with core := core, slot := slot } with
    | some i => exec i s
    | none =>
      match e with
      | 0 => hodRejected p c.quad s
      | 1 => tierRejected p c.quad s
      | 2 => spliceRejected p c.quad s
      | 3 => gatRejected p c.quad s
      | _ => trcRejected p c.quad s

/-- Whether a row of the table is a step of the part's own or of the host's, which the schedule may name; the fates of a word
arise from its fetch alone. -/
def isStep : Instr → Bool
  | .courseIssue _ => true
  | .repStep _ => true
  | .moduloSlot _ _ => true
  | .rowLanding _ => true
  | .wordRetirement _ _ => true
  | .scalarWaitResume _ _ => true
  | .loadResponse _ _ => true
  | .requestSlotGrant _ _ => true
  | .trapEntry _ _ => true
  | .unitEnd _ _ => true
  | .depcntDecrement _ => true
  | .dispatch _ _ => true
  | .blocking _ => true
  | .preemption _ _ => true
  | .resume _ _ _ => true
  | .deposit _ => true
  | .heldDepositRelease _ => true
  | .tileClearEnd _ _ => true
  | .commandEnd _ => true
  | .hopStart _ _ => true
  | .hopComplete _ _ => true
  | .latenessRecompute _ => true
  | .join _ => true
  | .ropeSend _ => true
  | .consumedReport _ => true
  | .multicastLanding _ => true
  | .subscriberLeave _ _ => true
  | .flitReceive _ => true
  | .flitReoffer _ => true
  | .collectiveAnnounce _ => true
  | .memberWithdraw _ => true
  | .remoteRowHandoff _ _ => true
  | .remoteRowArrival _ => true
  | .signalApply _ => true
  | .linkReplay _ => true
  | .linkRetrain _ => true
  | .portDown _ => true
  | .linkFailure _ => true
  | .barPhaseAdvance _ => true
  | .requestArrival _ _ => true
  | .batchOpen _ => true
  | .batchDeadline _ => true
  | .subArrayReplay _ _ => true
  | .quadTest _ => true
  | .quadTestPass _ => true
  | .quadTestFail _ => true
  | .spareSubstitution _ => true
  | .migrationRemap _ => true
  | .invalidation _ _ => true
  | .invalidationDone _ => true
  | .create _ => true
  | .resize _ => true
  | .destroy _ => true
  | .preempt _ => true
  | .linkup _ => true
  | .attest _ => true
  | .telemetry _ => true
  | .scrub _ => true
  | .retain _ => true
  | .retentionPowerOff _ => true
  | .repairlog _ => true
  | .recover _ => true
  | .recoverReset => true
  | .pfevstatClear _ => true
  | .pferrClear _ => true
  | .evstatClear _ _ => true
  | .registerWrite _ _ => true
  | .coldReset => true
  | .functionLevelReset _ => true
  | .ptpSync _ => true
  | .ppsEdge => true
  | .dvfsChange _ => true
  | .storeAcknowledgement _ _ => true
  | .dividerFinish _ => true
  | .pageMigration _ _ _ => true
  | .referenceLost => true
  | _ => false

/-! ## The clock -/

/-- One clock for the whole machine, batches past their deadline closing and its trace records being placed at its end (R326, R331, R337,
R389, R400, R404). -/
def clockStep (s : State) : State := hostTick (schedTick (tick (flushTrace (closeLate s))))

/-! ## What falls due by the clock (R63, R87, R91, R97, R140, R141, R156, R186, R197, R203, R301, R308, R334) -/

/-- Whether the vector unit of a core has a row to land or to check in this clock, or a word that is over. -/
def vectorDue (s : State) (core : Nat) (k : Core) : Bool :=
  (nextShadow k s.clk).isSome || (nextLanding k s.clk).isSome || (nextCheck k s.clk).isSome
  || k.vec.flights.any (fun f => f.next ≥ f.last && !hasDeps s (.vec core f.id))

/-- The sub-array of a core that has a word to retire in this clock. -/
def retireDue (s : State) (core : Nat) (k : Core) : Option Nat :=
  (k.subs.find? (fun e => e.2.flights.any (mayRetire s core e.1))).map (·.1)

/-- The tile of a core whose clearing ends in this clock. -/
def clearDue (s : State) (k : Core) : Option Nat :=
  (k.tiles.find? (fun e => match e.2.clearing with
    | some due => due ≤ s.clk
    | none => false)).map (·.1)

/-- The slot whose launched group is leaving bound mode and stands at a course boundary (R87). -/
def forkDue (s : State) (k : Core) : Option Nat :=
  (k.units.find? (fun e => e.2.live && e.2.leaving && launched k e.2 && courseOver k e.2 s.clk)).map (·.1)

/-- Where the deposits of a core's own words stand among those of one clock: the vector unit's, then those of the sub-arrays in ascending
order, so that the WRITE of the highest stands (R197); none for other writers, whose turn the schedule gives. -/
def depositRank : DepSrc → Option Nat
  | .vec _ _ => some 0
  | .mat _ n _ => some (n + 1)
  | _ => none

/-- The deposit of a core's own word that lands in this clock before the others (R186, R197). -/
def depositDue (s : State) : Option (Nat × Deposit) :=
  (((span 0 s.deps.length).zip s.deps).foldl (fun best e =>
    match depositRank e.2.src with
    | none => best
    | some r =>
      if depositMoves s e.1 e.2 && best.all (fun (b : Nat × Nat × Deposit) => r < b.1) then some (r, e) else best)
    (none : Option (Nat × Nat × Deposit))).map (·.2)

/-- Whether a waiting word of a unit must not wait longer: it stands at a barrier whose phase has advanced, or TNS reached its time 63 clocks
ago (R334, R402). -/
def waitOver (s : State) (u : Unit) : Bool :=
  match u.wait with
  | some (.sleepuntil _) => u.woken.any (fun w => w + 63 ≤ s.clk)
  | some (.barWait n) => (barOf s n.toNat).phase != (barReg u n.toNat).aph
  | some (.barArrive n) => (barOf s n.toNat).phase != (barReg u n.toNat).aph
  | _ => false

/-- The resumption of a waiting word of a core that must not wait longer, where it can go on. -/
def resumeDue (s : State) (core : Nat) (k : Core) : Option (Host.Outcome State Fault Refusal) :=
  k.units.findSome? (fun e =>
    if waitOver s e.2 then
      match execScalarWaitResume core e.1 s with
      | .next t => if t = s then none else some (.next t)
      | o => some o
    else none)

/-- What falls due on a core. -/
def dueOn (s : State) (core : Nat) (k : Core) : Option (Host.Outcome State Fault Refusal) :=
  if vectorDue s core k then some (execRowLanding core s)
  else
    match retireDue s core k with
    | some n => some (execWordRetirement core n s)
    | none =>
      if k.divider.any (fun d => d.due ≤ s.clk) then some (execDividerFinish core s)
      else
        match clearDue s k with
        | some h => some (execTileClearEnd core h s)
        | none =>
          match compareDue k s.clk, forkDue s k with
          | some i, _ => some (.next (raiseCheck s core i))
          | none, some i => some (.next (setCore s core (dissolveGroup k i s.clk)))
          | none, none =>
            match k.upset.find? (fun e => e.due ≤ s.clk) with
            | some e => some (execSubArrayReplay core e.sub s)
            | none => resumeDue s core k

/-- What falls due in this clock, if anything does; it goes before every turn. -/
def dueNow (s : State) : Option (Host.Outcome State Fault Refusal) :=
  match s.cores.findSome? (fun e => dueOn s e.1 e.2) with
  | some o => some o
  | none =>
    match depositDue s with
    | some (k, d) => some (if d.held then execHeldDepositRelease k s else execDeposit k s)
    | none =>
      match s.bars.find? (fun e => e.2.due.any (fun d => d ≤ s.clk)) with
      | some e => some (execBarPhaseAdvance e.1 s)
      | none =>
        match s.itins.find? (fun e => e.2.dirty.any (fun d => d.2 ≤ s.clk)) with
        | some e => some (execLatenessRecompute e.1 s)
        | none =>
          match leaveDue s, s.chans.find? (fun e => batchOpens s e.2) with
          | some e, _ => some (.next (tellLeave s e.1 e.2))
          | none, some e => some (execBatchOpen e.1 s)
          | none, none => none

/-! ## Order within a clock (R80, R95, R158, R177) -/

/-- Whether an outcome changes something that is seen of the state. -/
def changes {α : Type} [DecidableEq α] (f : State → α) (s : State) : Host.Outcome State Fault Refusal → Bool
  | .next t => f t != f s
  | _ => false

/-- The first of some moves that changes something that is seen of the state. -/
def firstChange {α : Type} [DecidableEq α] (f : State → α) (s : State) :
    List (State → Host.Outcome State Fault Refusal) → Option (Host.Outcome State Fault Refusal)
  | [] => none
  | m :: ms => if changes f s (m s) then some (m s) else firstChange f s ms

/-- The slot that has issued in an outcome, 4 where none has. -/
def issuedSlot (core : Nat) (s : State) : Host.Outcome State Fault Refusal → Nat
  | .next t => if (getCore t core).issuedAt = some t.clk && (getCore s core).issuedAt != some s.clk then (getCore t core).lastSlot else 4
  | _ => 4

/-- The issue of a core where it falls to a slot below one. -/
def turnBelow (core slot : Nat) (s : State) : Host.Outcome State Fault Refusal :=
  if issuedSlot core s (turnScalar core s) < slot then turnScalar core s else .next s

/-- The forked matrix stream whose action on a token queue goes before a course, if one does: it comes before the first stream of the course
that could not issue after it (R95). -/
def beforeCourse (core : Nat) (s : State) : Option (Host.Outcome State Fault Refusal) :=
  (span 0 8).findSome? (fun n =>
    let o := turnMatrix core n s
    match o with
    | .next t =>
      if (getCore t core).tokq != (getCore s core).tokq && (courseBlock core t).any (fun j => n < j && j < 8) then some o else none
    | _ => none)

/-- The vector stream's turn at its place among those that act on a token queue: nothing while a matrix stream goes before its course
(R95). -/
def placedVector (core : Nat) (s : State) : Host.Outcome State Fault Refusal :=
  if (beforeCourse core s).isSome then .next s else turnVector core s

/-- The streams of a core that act on a token queue before the one at a place, the vector stream at 0, matrix streams at 1 to 8, the scalar
streams at 9 to 12 (R95). -/
def streamsBefore (core place : Nat) : List (State → Host.Outcome State Fault Refusal) :=
  (if place = 0 then [] else [placedVector core])
  ++ (span 0 (min 8 (place - 1))).map (fun n => turnMatrix core n)
  ++ (span 0 (place - 9)).map (fun i => execScalarWaitResume core i)
  ++ (if place ≤ 9 then [] else [turnBelow core (place - 9)])

/-- Whether a unit waits at TALLOC. -/
def atTalloc (u : Unit) : Bool :=
  match u.wait with
  | some (.talloc _ _) => true
  | _ => false

/-- Whether a unit waits at FAB.BOND. -/
def atBond (u : Unit) : Bool :=
  match u.wait with
  | some (.fabBond _ _) => true
  | _ => false

/-- The slots of a core before one in the cyclic order of R80. -/
def slotsBefore (k : Core) (slot : Nat) : List Nat := ((span 1 4).map (fun j => (k.lastSlot + j) % 4)).takeWhile (fun i => i != slot)

/-- The sub-arrays of a core as an installation sets them: number, holder, bricks and the clock they are usable from (R177). -/
def bondSeen (core : Nat) (s : State) : List (List Nat) :=
  (getCore s core).subs.map (fun e => [e.1, e.2.holder, e.2.row0, e.2.h, e.2.col0, e.2.w, e.2.usable])

/-- Whether the next word a core issues is FAB.BOND or FAB.BOND.NW. -/
def issuesBond (core : Nat) (s : State) : Bool :=
  match (if issuedSlot core s (turnScalar core s) < 4 then
      scalarFetch (takeIssue (focusOn s core (issuedSlot core s (turnScalar core s)) 0)) else .hold) with
  | .word (.fabBond _ _) _ => true
  | .word (.fabBondNw _ _) _ => true
  | _ => false

/-- What a core's scalar streams could install of a bond in this clock. -/
def bondMoves (s : State) (core : Nat) : List (State → Host.Outcome State Fault Refusal) :=
  ((span 0 4).filter (fun i => atBond (unitAt s core i))).map (fun i => execScalarWaitResume core i)
  ++ (if issuesBond core s then [turnScalar core] else [])

/-- What must go before an outcome of its clock, if anything must: a token queue serves earlier streams first, the scalar TOK.GIVE at its
stream's place and not among the gives that finish (R95; the model's reading, log 63), waiting TALLOCs retry in cyclic slot order (R158), and the lower core of a quad installs its bond first (R177). -/
def rivalOf (core place : Nat) (s : State) (o : Host.Outcome State Fault Refusal) : Option (Host.Outcome State Fault Refusal) :=
  match (if changes (fun t => (getCore t core).tokq) s o then firstChange (fun t => (getCore t core).tokq) s (streamsBefore core place) else none) with
  | some r => some r
  | none =>
    if place = 0 then (if changes (fun t => (getCore t core).tokq) s o then beforeCourse core s else none)
    else if place < 9 then none
    else
      match (if atTalloc (unitAt s core (place - 9)) && changes (fun t => unitAt t core (place - 9)) s o then
          ((slotsBefore (getCore s core) (place - 9)).filter (fun i => atTalloc (unitAt s core i))).findSome? (fun i =>
            firstChange (fun t => unitAt t core i) s [execScalarWaitResume core i])
        else none) with
      | some r => some r
      | none =>
        if (atBond (unitAt s core (place - 9)) || issuesBond core s) && changes (bondSeen core) s o then
          (span (core / 4 * 4) (core % 4)).findSome? (fun c => firstChange (bondSeen c) s (bondMoves s c))
        else none

/-- An outcome in the order of its clock: one that must let another go first is tried again after it, its turns being `back`. -/
def inOrder (back : List Turn) (core place : Nat) (s : State) (o : Host.Outcome State Fault Refusal) : Host.Outcome State Fault Refusal :=
  match rivalOf core place s o with
  | some (.next t) => .next { t with turns := back ++ t.turns }
  | some r => r
  | none => o

/-- The core issue slot's turn in the order of its clock. -/
def orderedScalar (back : List Turn) (core : Nat) (s : State) : Host.Outcome State Fault Refusal :=
  inOrder back core (9 + issuedSlot core s (turnScalar core s)) s (turnScalar core s)

/-- A waiting unit's retry in the order of its clock. -/
def orderedResume (back : List Turn) (core slot : Nat) (s : State) : Host.Outcome State Fault Refusal :=
  inOrder back core (9 + slot) s (execScalarWaitResume core slot s)

/-! ## Turns -/

/-- A batch that has closed armed where room has come (R331). -/
def armOwed (c : Nat) (s : State) : Host.Outcome State Fault Refusal := if (chanOf s c).owes.isSome then execBatchDeadline c s else .next s

/-- A step of the part's own at its turn: those that meet others of the clock go in order, and a batch closes by its deadline at the end of
the clock, after every request of it (R331, R337). -/
def occur (t : Turn) (i : Instr) (s : State) : Host.Outcome State Fault Refusal :=
  match i with
  | .scalarWaitResume core slot => orderedResume [t] core slot s
  | .batchDeadline c => armOwed c s
  | j => exec j s

/-- Whether a scalar word reads a record wider than one access (R263). -/
def readsRecord : Instr → Bool
  | .portGo _ _ => true
  | .fabBond _ _ => true
  | .fabBondNw _ _ => true
  | .shapeW _ _ => true
  | .tskArm _ => true
  | _ => false

/-- The state in which a reader that could read now has read one piece before the others (R263). -/
def readEarly (s : State) (r : Reader) (pa : Nat) : State :=
  match r with
  | .word core slot =>
    let u := unitAt s core slot
    match (if slotMayIssue s core slot && (issueSlot core slot s).isSome then scalarFetch (takeIssue (focusOn s core slot 0)) else .hold) with
    | .word i _ => if readsRecord i then setUnitAt s core slot { u with fore := foreWith s.mem pa u.fore } else s
    | _ => s
  | .share id =>
    match collOf s id with
    | some c => if c.holds && !c.shared && c.fail.isNone then setColl s { c with fore := foreWith s.mem pa c.fore } else s
    | none => s
  | .hop slot i =>
    match mapFind s.itins slot with
    | some it =>
      match mapFind it.steps i with
      | some t =>
        if t.started.contains 2 && !t.moved then withItin s slot (withStep it i { t with fore := foreWith s.mem pa t.fore }) else s
      | none => s
    | none => s

/-- One turn. -/
def turnStep (t : Turn) (s : State) : Host.Outcome State Fault Refusal :=
  match t with
  | .scalar core => if core < 512 then orderedScalar [t] core s else .fault .noAgent
  | .vector core => if core < 512 then inOrder [t] core 0 s (turnVector core s) else .fault .noAgent
  | .matrix core sub => if core < 512 && sub < 8 then inOrder [t] core (1 + sub) s (turnMatrix core sub s) else .fault .noAgent
  | .engine e core slot =>
    if e < 5 && core < 512 && slot < 4 + s.aways.length then turnEngine e core slot s else .fault .noAgent
  | .occur i => if isStep i then occur t i s else .next s
  | .shortWrite fn c => .next (hostShort s fn c)
  | .loadTime n => .next (loadTime s n)
  | .path pkg up => .next (pathReport s pkg up)
  | .early r pa => .next (readEarly s r pa)
  | .slow on => .next { s with slow := on }
  | .perform pa => .next (performPiece s pa)
  | .domain pa op => .next (domainAccess s pa op)
  | .flit f => .next (handOver s f)
  | .upset u => .next (applyUpset s u)
  | .clock 0 => .next s
  | .clock (n + 1) => .next (clockStep { s with turns := if n = 0 then s.turns else .clock n :: s.turns })

/-! ## When no turn is given (log 1) -/

/-- What the units and sequencers of a core could do next, endings and traps first. -/
def coreMoves (s : State) (c : Nat) (k : Core) : List (State → Host.Outcome State Fault Refusal) :=
  let slots := span 0 4
  slots.map (fun i => execUnitEnd c i) ++ slots.map (fun i => execPreemption c i) ++ slots.map (fun i => execTrapEntry c i)
  ++ slots.map (fun i => orderedResume [] c i)
  ++ (span 0 k.accs.length).map (fun j => execRequestSlotGrant c j)
  ++ (span 0 k.accs.length).flatMap (fun j => [execLoadResponse c j, execStoreAcknowledgement c j])
  ++ (k.subs.map (·.1)).map (fun n => execRemoteRowHandoff c n)
  ++ (slots.flatMap (fun i => (span 0 5).filterMap (fun e =>
      if (queueAt s { core := c, slot := i } e).isEmpty then none else some (turnEngine e c i))))
  ++ [fun s => inOrder [] c 0 s (turnVector c s)] ++ (k.subs.map (·.1)).map (fun n s => inOrder [] c (1 + n) s (turnMatrix c n s)) ++ [orderedScalar [] c]

/-- What the parts outside the cores could do next. -/
def partMoves (s : State) : List (State → Host.Outcome State Fault Refusal) :=
  (span 0 s.deps.length).flatMap (fun k => [execDeposit k, execHeldDepositRelease k])
  ++ (span 0 s.cmds.length).map (fun k => execCommandEnd k)
  ++ (span 0 s.aways.length).flatMap (fun a => (span 0 5).map (fun e => turnEngine e 0 (4 + a)))
  ++ (s.itins.map (·.1)).flatMap (fun i => (span 0 3).flatMap (fun h => [execHopStart i h, execHopComplete i h]) ++ [execRopeSend i])
  ++ (span 0 s.net.length).flatMap (fun k => [execFlitReceive k, execRemoteRowArrival k, execSignalApply k, execCollectiveAnnounce k,
      execMemberWithdraw k, execJoin k, execConsumedReport k, execMulticastLanding k])
  ++ (span 0 s.back.length).map (fun k => execFlitReoffer k)
  ++ (span 0 s.joins.length).map (fun k => execJoin k)
  ++ (span 0 s.decrs.length).map (fun k => execDepcntDecrement k)
  ++ (s.chans.map (·.1)).flatMap (fun c => [armOwed c, execBatchOpen c])
  ++ (s.parts.map (·.1)).flatMap (fun p => [execBlocking p, execInvalidationDone p])
  ++ (s.quads.map (·.1)).flatMap (fun q => [execQuadTestPass q] ++ (if (quadAt s q).stopping then [execQuadTest q] else []))
  ++ (s.cores.filter (fun e => 3072 ≤ e.2.journal.length)).map (fun e => execQuadTest (e.1 / 4))
  ++ (s.quads.flatMap (fun e => e.2.failed.map (fun i => execSpareSubstitution (4 * e.1 + i))))
  ++ (span 0 4).map (fun d => execRetentionPowerOff d) ++ [execRecoverReset]
  ++ (match retainNext s with
      | some (p, va, frame) => [execPageMigration p va frame]
      | none => [])
  ++ (span 0 s.migs.length).map (fun k => execMigrationRemap k)
  ++ (match decision s with
      | some (_, .task _, x) => [execDispatch x.core x.slot]
      | some (_, .away k, x) => [execResume x.core x.slot k]
      | none => [])

/-- The first move that changes anything, if one does. -/
def firstMove (s : State) : List (State → Host.Outcome State Fault Refusal) → Option (Host.Outcome State Fault Refusal)
  | [] => none
  | f :: fs =>
    match f s with
    | .next t => if t = s then firstMove s fs else some (.next t)
    | o => some o

/-- The machine without a turn: the first thing that can be done in this clock is done, else a clock goes by. -/
def freeStep (s : State) : Host.Outcome State Fault Refusal :=
  (firstMove s (partMoves s ++ s.cores.flatMap (fun e => coreMoves s e.1 e.2))).getD (.next (clockStep s))

/-! ## The step -/

/-- One step: what falls due by the clock, else the next turn, else whatever can be done. -/
def machineStep (s : State) : Host.Outcome State Fault Refusal :=
  match dueNow s with
  | some o => o
  | none =>
    match s.turns with
    | t :: ts => turnStep t { s with turns := ts }
    | [] => freeStep s

/-! ## Placing an instruction (log 2) -/

/-- The leaf of the page a placed program stands on: frame 0, readable, writable and executable, key 1 (R233). -/
def placedLeaf : Word := BitVec.ofNat 64 (2 ^ 36 + 2 ^ 37 + 2 ^ 47 + 2 ^ 62 + 2 ^ 63)

/-- A partition with one window over the placed page and key 1 (R387). -/
def placedPart : Part :=
  { Part.none with keybase := 1, keycnt := 1, quads := [0], wins := [{ base := 0, len := 0x20000000, tier := 1 }] }

/-- A unit about to issue the word at address 0. -/
def placedUnit : Unit := { Unit.reset with live := true, uid := 1 }

/-- The core with a unit in slot 0, first in turn, and its page in the translation cache. -/
def placedCore (k : Core) : Core :=
  { withUnit k 0 placedUnit with
    lastSlot := 3, issuedAt := none, accs := k.accs.filter (fun a => a.uid != 1), icache := k.icache.filter (fun e => e.1 != 0)
    tlb := [{ part := 0, vpage := 0, span := 65536, leaf := placedLeaf }] }

/-- The state with a scalar word at address 0 of partition 0 and the turn of core 0 next. -/
def placeScalar (s : State) (w : Nat) : State :=
  let t := setCore s 0 (placedCore (getCore s 0))
  { t with
    mem := memSetNat t.mem 0 4 w, poison := t.poison.filter (fun l => l != 0), parts := mapSet t.parts 0 placedPart
    preempts := t.preempts.filter (fun e => e.1 != 0), turns := [.scalar 0] }

/-- A forked stream at word 0. -/
def placedStrm : Strm := { Strm.reset with mode := .forked }

/-- The state with a vector word at word 0 of core 0 and the turn of its vector sequencer next. -/
def placeVector (s : State) (w : Nat) : State :=
  let k := placedCore (getCore s 0)
  let t := setCore s 0 { k with
    imemV := mapSet k.imemV 0 (BitVec.ofNat 96 w), badWords := k.badWords.filter (fun x => x != 0)
    vec := { Vec.reset with owner := some 1, strm := placedStrm } }
  { t with parts := mapSet t.parts 0 placedPart, preempts := t.preempts.filter (fun e => e.1 != 0), turns := [.vector 0] }

/-- The state with a matrix word at word 0 of core 0, a sub-array of one brick, and the turn of its sequencer next. -/
def placeMatrix (s : State) (w : Nat) : State :=
  let k := placedCore (getCore s 0)
  let t := setCore s 0 { k with
    imemM := mapSet k.imemM 0 (BitVec.ofNat 192 w), badWords := k.badWords.filter (fun x => x != 8192)
    subs := mapSet k.subs 0 (newSub 1 0 .loc 0 1 0 1 0), mats := mapSet k.mats 0 placedStrm }
  { t with parts := mapSet t.parts 0 placedPart, preempts := t.preempts.filter (fun e => e.1 != 0), turns := [.matrix 0 0] }

/-- The state with an instruction of some width where the next step fetches it. -/
def placeWord (s : State) (nbits w : Nat) : State :=
  match nbits with
  | 32 => placeScalar s w
  | 96 => placeVector s w
  | 192 => placeMatrix s w
  | _ => s

end Sys2Proof.Machine
end

