-- ==== Sys2Proof/Machine/Step.lean ====
section
/-! DEFINITION. One step of the machine, and an instruction placed where the next step fetches it (log 1, log 2). -/
namespace Sys2Proof.Machine

/-- One step: what falls due by the clock, else the next turn, else whatever can be done. -/
def step (s : State) : Host.Outcome State Fault Refusal := machineStep s

/-- The state with an instruction of `nbits` bits stored where `step` fetches its next instruction (log 2). -/
def State.withFetchWord (s : State) (nbits w : Nat) : State := placeWord s nbits (w % 2 ^ nbits)

end Sys2Proof.Machine
end

