-- ==== Sys2Proof/Safety.lean ====
section
/-! DEFINITION. What the statements call a good state and a good step: the canonical form of memory, where an instruction goes on to
a next state, what it writes there, and what it leaves as it was. -/
namespace Sys2Proof.Safety

open Sys2Proof.Machine

/-- Memory stands in its canonical form: addresses strictly rising, no byte listed that an unlisted address reads as. -/
def MemoryCanonical (s : State) : Prop := Memory.wf s.mem = true

/-- An instruction goes on to a next state of which `P` holds. -/
def Completes (i : Instr) (s : State) (P : State → Prop) : Prop := ∃ t, exec i s = .next t ∧ P t

/-- The scalar stream in focus may issue a word, and no single step follows it (R80, R138). -/
def Runs (s : State) : Prop := scalarRuns s = true ∧ ¬((getUnit s).mode = .u ∧ (getUnit s).sstep = true)

/-- Every byte of physical memory reads as before. -/
def SameBytes (s t : State) : Prop := ∀ a, memByte t.mem a = memByte s.mem a

/-- Every byte of physical memory outside `n` bytes from `pa` reads as before. -/
def SameBytesBut (s t : State) (pa n : Nat) : Prop := ∀ a, a < pa ∨ pa + n ≤ a → memByte t.mem a = memByte s.mem a

/-- From `s` to `t` nothing has changed outside one core. -/
def OnlyCore (s t : State) (c : Nat) : Prop :=
  SameBytes s t ∧ t = { s with cores := t.cores } ∧ ∀ d, d ≠ c → getCore t d = getCore s d

/-- From `s` to `t` nothing has changed outside core `c`; there every unit slot but `i` is as it was, slot `i` holds `u`, and every
field but the unit slots is as in `k`. -/
def BecameAt (s t : State) (c i : Nat) (k : Core) (u : Machine.Unit) : Prop :=
  OnlyCore s t c ∧ (∀ j, j ≠ i → unitAt t c j = unitAt s c j)
  ∧ getCore t c = { k with units := (getCore t c).units } ∧ unitAt t c i = u

/-- `BecameAt` of the core and the unit in focus. -/
def Became (s t : State) (k : Core) (u : Machine.Unit) : Prop := BecameAt s t s.focus.core s.focus.slot k u

/-- Only the program counter of the unit in focus has changed, and it waits for nothing. -/
def Moved (s t : State) (pc : Word) : Prop := Became s t (curCore s) { getUnit s with pc := pc, wait := none, fore := [] }

/-- The unit in focus has changed in a scalar register, in the clock from which that register is usable, and in its program counter,
its core has become `k`, and nothing else has changed: `rd` holds `v` unless it is s0, which reads zero (R115), every other register is
as it was, and the result is usable `n` clocks later (R140). -/
def WroteIn (s t : State) (k : Core) (rd : BitVec 5) (v : Word) (n : Nat) (pc : Word) : Prop :=
  Became s t k
    { getUnit s with regs := (getUnit t).regs, ready := (getUnit t).ready, pc := pc, wait := none, fore := [] }
  ∧ (∀ r, regRead t r = if r = 0 then 0 else if r = rd then v else regRead s r)
  ∧ (getUnit t).ready = (if rd = 0 then (getUnit s).ready else mapSet (getUnit s).ready rd.toNat (s.clk + n))

/-- `WroteIn` of a core that is otherwise as it was. -/
abbrev Wrote (s t : State) (rd : BitVec 5) (v : Word) (n : Nat) (pc : Word) : Prop := WroteIn s t (curCore s) rd v n pc

/-- The unit in focus waits for the instruction `i`, and nothing else has changed. -/
def Waits (s t : State) (i : Instr) : Prop := Became s t (curCore s) { getUnit s with wait := some i, fore := [] }

/-- The unit in focus has taken a trap of the scalar stream (R122): EPC, ECAUSE and EVAL are written, the mode is S, the program
counter is at TVEC, any wait is left; the other four fields are the model's own account of a single step still owed, of a bond record or its pieces
under way and of the clock from which a bound group stands still. -/
def TookTrap (s t : State) (cause : BitVec 8) (eval epc : Word) : Prop :=
  Became s t (curCore s)
    { getUnit s with
      epc := epc &&& 0x007FFFFFFFFFFFFC#64, ecause := 0x9000#64 + cause.setWidth 64, eval := eval, mode := .s
      pc := (getUnit s).tvec, wait := none, stepped := false, bond := [], fore := [], away := some ((getUnit s).away.getD s.clk) }

/-- The unit in focus is about to end with a cause, which UNIT_END completes (R125, R440). -/
def IsEnding (s t : State) (cause : BitVec 8) : Prop :=
  Became s t (curCore s) { getUnit s with ending := some cause, wait := none }

/-- A trap of the scalar stream in its mode: taken in U mode (R122), the end of the unit in S mode (R125). -/
def Raises (s t : State) (cause : BitVec 8) (eval epc : Word) : Prop :=
  match (getUnit s).mode with
  | .u => TookTrap s t cause eval epc
  | .s => IsEnding s t cause

/-- Stream `n` of the unit in slot `slot` of core `c` has faulted (R124, R362): it is FAULTED with its cause, which is pending with
its EVAL behind those of lower streams, and sets the latch; no other stream and no other unit has changed. The last field is the
model's own account of the clock from which a bound group stands still. -/
def StreamFaultedAt (s t : State) (c slot n : Nat) (cause : BitVec 8) (eval : Word) : Prop :=
  let k := getCore s c
  let k' := getCore t c
  let u := unitAt s c slot
  BecameAt s t c slot { k with vec := k'.vec, mats := k'.mats }
    { u with
      pending := addPending { stream := n, cause := cause, eval := eval } u.pending, evl := true
      away := (unitAt t c slot).away }
  ∧ { k'.vec with strm := k.vec.strm } = k.vec
  ∧ strmOf k' u.uid n = { strmOf k u.uid n with mode := .faulted, cause := cause }
  ∧ ∀ j, j ≠ n → strmOf k' u.uid j = strmOf k u.uid j

/-- `StreamFaultedAt` of the core in focus. -/
def StreamFaulted (s t : State) (slot n : Nat) (cause : BitVec 8) (eval : Word) : Prop :=
  StreamFaultedAt s t s.focus.core slot n cause eval

/-- What GETSR reads of each special register (R117 to R120). -/
def specialValue (u : Machine.Unit) (n : Nat) : Option Word :=
  match n with
  | 0 => some ((if u.mode = .s then 1 else 0) + (if u.sstep then 4 else 0) + (if u.evl then 8 else 0))
  | 1 => some u.unitid
  | 2 => some u.argp
  | 3 => some u.tcbp
  | 0x10 => some u.tvec
  | 0x11 => some u.epc
  | 0x12 => some u.ecause
  | 0x13 => some u.eval
  | 0x14 => some u.sscratch
  | 0x15 => some u.uscratch
  | _ => none

/-- The scalar stream in focus has asked for a shared request slot, and nothing else has changed (R245). -/
def AsksForSlot (s t : State) : Prop :=
  let k := curCore s
  Became s t { k with asks := if k.asks.contains (1 + s.focus.slot) then k.asks else (1 + s.focus.slot) :: k.asks } (getUnit s)

/-- What an AMO or a CAS leaves of an old value (R253). -/
def atomValue {w : Nat} (op : AtomOp) (old x expect : BitVec w) : BitVec w :=
  match op with
  | .add => old + x
  | .and => old &&& x
  | .or => old ||| x
  | .xor => old ^^^ x
  | .min => if old.slt x then old else x
  | .max => if old.slt x then x else old
  | .swap => x
  | .cas => if old = expect then x else old

/-- Outstanding accesses once a COM or NOR atomic has gone: the earlier SPC atomics of its unit and class have been passed (R267). -/
def passedSpc (a : Access) (accs : List Access) : List Access :=
  accs.map (fun b => if b.uid = a.uid ∧ b.cls = a.cls ∧ b.id < a.id ∧ spcAtomic b = true then { b with passed := true } else b)

/-- A value that some binary tree makes of a list of values by an operation, each value standing at exactly one leaf (R346). -/
inductive TreeOf (f : Nat → Nat → Nat) : List Nat → Nat → Prop where
  | leaf (v : Nat) : TreeOf f [v] v
  | node {xs ys zs : List Nat} {a b : Nat} : TreeOf f xs a → TreeOf f ys b → zs.Perm (xs ++ ys) → TreeOf f zs (f a b)

/-- The contributions to element `i` of a reduction once those of a flit are in, each with its rank (R346). -/
def contributions (c : Coll) (y : Piece) (i : Nat) : List (Nat × Nat) :=
  mapGet [] c.contrib i ++ (y.elems.filter (fun e => e.1 == i)).map (fun e => (y.rank, e.2))

/-- What a reduction makes of the contributions to an element: the left fold in ascending rank under RANKED, else the value of some tree over
them (R346). -/
def Reduces (ranked : Bool) (k : DepKind) (xs : List (Nat × Nat)) (v : Nat) : Prop :=
  if ranked then
    ∀ x rest, (x :: rest).Perm xs → (x :: rest).Pairwise (fun a b => a.1 < b.1) → v = (rest.map (·.2)).foldl (addElem k) x.2
  else xs ≠ [] → TreeOf (addElem k) (xs.map (·.2)) v

/-- Everything HALT waits for is over for the unit of a slot (R135): no division and no access of it is under way, its streams are
IDLE, no command it posted is started or queued, those of a halted queue apart, and none of its remote rows is unanswered. -/
def AllOver (s : State) (c i : Nat) : Prop :=
  let k := getCore s c
  let u := unitAt s c i
  (∀ d, k.divider = some d → d.uid ≠ u.uid) ∧ (∀ a ∈ k.accs, a.uid ≠ u.uid)
  ∧ (∀ n ∈ unitStreams k u.uid, (strmOf k u.uid n).mode = .idle)
  ∧ (∀ e ∈ u.ports, e.2.queue = [] ∨ e.2.halted = true) ∧ (∀ r ∈ s.cmds, r.cmd.uid ≠ u.uid) ∧ ∀ e ∈ s.rowsOut, e.2.srcUid ≠ u.uid

/-- From `s` to `t` the unit of slot `i` of core `c` is gone (R80, R94, R165): the slot is empty, every other unit is as it was,
and no tile, token queue, sub-array or vector sequencer of the core is the unit's any more. -/
def UnitGone (s t : State) (c i : Nat) : Prop :=
  let uid := (unitAt s c i).uid
  unitAt t c i = Machine.Unit.reset
  ∧ (∀ d j, d ≠ c ∨ (j ≠ i ∧ (unitAt s d j).uid ≠ uid) → unitAt t d j = unitAt s d j)
  ∧ (∀ h, (tileOf (getCore t c) h).valid = true → (tileOf (getCore t c) h).ownerUid ≠ uid)
  ∧ (∀ e ∈ (getCore t c).tokq, e.2.owner ≠ some uid) ∧ (getCore t c).vec.owner ≠ some uid
  ∧ ∀ n, n < 8 → holds (getCore t c) uid n = false

/-- No token queue of a core holds more than 32 tokens and reservations (R93). -/
def TokensBounded (k : Core) : Prop := ∀ q, (tokOf k q).count + (tokOf k q).rsv ≤ 32

/-- No unit slot of a core has more than the 8 request slots of its reserve in use, and the core no more than the 976 shared ones (R244). -/
def SlotsBounded (k : Core) : Prop := (∀ i, i < 4 → reserveUsed k i ≤ 8) ∧ sharedUsed k ≤ 976

end Sys2Proof.Safety
end

