-- ==== Sys2Proof/Certificates/Slice0/Obligations.lean ====
section
/-! DEFINITION. The statements for the provers, one for each group of instructions or rules of one shape. In them an instruction's
outcome is `Sys2Proof.Machine.exec`'s, `Completes i s P` says that it goes on to a next state of which `P` holds, and a frame is said
by `Became` and its kin of Safety.lean. -/

open Sys2Proof Sys2Proof.Machine Sys2Proof.Safety

/-! ## Scalar words: registers (R115, R126 to R130, R139, R140) -/

/-- R126, R140: the register words of the ALU. Each completes and writes its result to rd, usable one clock later, three for a
product; the operands are read before rd is written, and s0 takes no write (R115). -/
def Obligations.AluWords : Prop :=
  ∀ (s : State) (rd ra rb : BitVec 5), Runs s →
    let a := regRead s ra
    let b := regRead s rb
    (∀ p ∈ ([(.add rd ra rb, a + b), (.sub rd ra rb, a - b), (.and rd ra rb, a &&& b), (.or rd ra rb, a ||| b),
        (.xor rd ra rb, a ^^^ b), (.andn rd ra rb, a &&& ~~~b), (.orn rd ra rb, a ||| ~~~b),
        (.sll rd ra rb, a <<< (b.toNat % 64)), (.srl rd ra rb, a >>> (b.toNat % 64)),
        (.sra rd ra rb, a.sshiftRight (b.toNat % 64)), (.rol rd ra rb, a.rotateLeft (b.toNat % 64)),
        (.ror rd ra rb, a.rotateRight (b.toNat % 64)), (.min rd ra rb, if a.slt b then a else b),
        (.max rd ra rb, if a.slt b then b else a), (.minu rd ra rb, if a.ult b then a else b),
        (.maxu rd ra rb, if a.ult b then b else a), (.slt rd ra rb, if a.slt b then 1 else 0),
        (.sltu rd ra rb, if a.ult b then 1 else 0), (.sextB rd ra, (a.extractLsb' 0 8).signExtend 64),
        (.sextH rd ra, (a.extractLsb' 0 16).signExtend 64), (.sextW rd ra, (a.extractLsb' 0 32).signExtend 64),
        (.zextB rd ra, a &&& 0xFF#64), (.zextH rd ra, a &&& 0xFFFF#64), (.zextW rd ra, a &&& 0xFFFFFFFF#64)] :
        List (Instr × Word)),
      Completes p.1 s fun t => Wrote s t rd p.2 1 ((getUnit s).pc + 4))
    ∧ ∀ p ∈ ([(.mul rd ra rb, a * b), (.mulh rd ra rb, (a.signExtend 128 * b.signExtend 128).extractLsb' 64 64),
        (.mulhu rd ra rb, (a.setWidth 128 * b.setWidth 128).extractLsb' 64 64)] : List (Instr × Word)),
      Completes p.1 s fun t => Wrote s t rd p.2 3 ((getUnit s).pc + 4)

/-- R126, R140: the bit-counting, bit-reversing and carry-less words, each by the property that fixes its result. -/
def Obligations.BitWords : Prop :=
  ∀ (s : State) (rd ra rb : BitVec 5), Runs s →
    let a := regRead s ra
    let b := regRead s rb
    let pc := (getUnit s).pc + 4
    let product : BitVec 128 :=
      (List.range 64).foldl (fun (x : BitVec 128) i => if b.getLsbD i then x ^^^ (a.setWidth 128 <<< i) else x) 0
    (∃ v : Word, Completes (.clz rd ra) s (fun t => Wrote s t rd v 1 pc) ∧ (a = 0 → v = 64)
      ∧ ∀ i, i < 64 → a.getLsbD i = true → (∀ j, i < j → a.getLsbD j = false) → v.toNat = 63 - i)
    ∧ (∃ v : Word, Completes (.ctz rd ra) s (fun t => Wrote s t rd v 1 pc) ∧ (a = 0 → v = 64)
      ∧ ∀ i, i < 64 → a.getLsbD i = true → (∀ j, j < i → a.getLsbD j = false) → v.toNat = i)
    ∧ (∃ v : Word, Completes (.popc rd ra) s (fun t => Wrote s t rd v 1 pc)
      ∧ v.toNat = (List.range 64).countP (fun i => a.getLsbD i))
    ∧ (∃ v : Word, Completes (.brev rd ra) s (fun t => Wrote s t rd v 1 pc)
      ∧ ∀ i, i < 64 → v.getLsbD i = a.getLsbD (63 - i))
    ∧ Completes (.clmul rd ra rb) s (fun t => Wrote s t rd (product.extractLsb' 0 64) 3 pc)
    ∧ Completes (.clmulh rd ra rb) s (fun t => Wrote s t rd (product.extractLsb' 64 64) 3 pc)

/-- R128, R129, R130, R140: the immediate words and the immediate shifts act as their register words do with the sign-extended
immediate; HSET writes a shifted immediate, HINS replaces one halfword of rd; each has its major opcode and fields. -/
def Obligations.ImmediateWords : Prop :=
  ∀ (s : State) (rd ra : BitVec 5) (imm : BitVec 16) (sh : BitVec 6) (h : BitVec 2), Runs s →
    let a := regRead s ra
    let b : Word := imm.signExtend 64
    (∀ p ∈ ([(.addi rd ra imm, a + b), (.andi rd ra imm, a &&& b), (.ori rd ra imm, a ||| b), (.xori rd ra imm, a ^^^ b),
        (.slti rd ra imm, if a.slt b then 1 else 0), (.sltiu rd ra imm, if a.ult b then 1 else 0),
        (.slli rd ra sh, a <<< sh.toNat), (.srli rd ra sh, a >>> sh.toNat), (.srai rd ra sh, a.sshiftRight sh.toNat),
        (.hset rd h imm, b <<< (16 * h.toNat))] : List (Instr × Word)),
      Completes p.1 s fun t => Wrote s t rd p.2 1 ((getUnit s).pc + 4))
    ∧ (∃ v : Word, Completes (.hins rd h imm) s (fun t => Wrote s t rd v 1 ((getUnit s).pc + 4))
      ∧ ∀ i, i < 64 → v.getLsbD i =
          if 16 * h.toNat ≤ i ∧ i < 16 * h.toNat + 16 then imm.getLsbD (i - 16 * h.toNat) else (regRead s rd).getLsbD i)
    ∧ ∀ p ∈ ([(.addi rd ra imm, 2, ra.toNat, imm.toNat), (.andi rd ra imm, 3, ra.toNat, imm.toNat), (.ori rd ra imm, 4, ra.toNat, imm.toNat),
        (.xori rd ra imm, 5, ra.toNat, imm.toNat), (.slti rd ra imm, 6, ra.toNat, imm.toNat), (.sltiu rd ra imm, 7, ra.toNat, imm.toNat),
        (.slli rd ra sh, 8, ra.toNat, sh.toNat), (.srli rd ra sh, 8, ra.toNat, 2 ^ 14 + sh.toNat),
        (.srai rd ra sh, 8, ra.toNat, 2 ^ 15 + sh.toNat), (.hset rd h imm, 9, h.toNat, imm.toNat),
        (.hins rd h imm, 10, h.toNat, imm.toNat)] : List (Instr × Nat × Nat × Nat)),
      encode p.1 = some (32, p.2.1 * 2 ^ 26 + rd.toNat * 2 ^ 21 + p.2.2.1 * 2 ^ 16 + p.2.2.2)

/-- R127, R140: a division issues when its core's divider is free and takes it for 36 clocks; while the divider is taken the word
is held at issue and nothing changes. Once its clock has come, the divider writes its result to the unit that issued the division,
and is free. The values are R127's, its borderline cases among them, and A = B × D + remainder holds in every case modulo 2^64. -/
def Obligations.Divisions : Prop :=
  (∀ (s : State) (rd ra rb : BitVec 5), Runs s →
    let a := regRead s ra
    let b := regRead s rb
    ∀ p ∈ ([(.div rd ra rb, if b = 0 then BitVec.allOnes 64 else a.sdiv b),
        (.divu rd ra rb, if b = 0 then BitVec.allOnes 64 else a.udiv b),
        (.rem rd ra rb, if b = 0 then a else a.srem b), (.remu rd ra rb, if b = 0 then a else a.umod b)] : List (Instr × Word)),
      ((curCore s).divider = none → Completes p.1 s fun t =>
        Became s t { curCore s with
            divider := some { slot := s.focus.slot, uid := (getUnit s).uid, rd := rd, value := p.2, due := s.clk + 36 } }
          { getUnit s with pc := (getUnit s).pc + 4, wait := none, fore := [] })
      ∧ ((curCore s).divider ≠ none → exec p.1 s = .next s))
  ∧ (∀ a b : Word,
      a = b * (if b = 0 then BitVec.allOnes 64 else a.sdiv b) + (if b = 0 then a else a.srem b)
      ∧ a = b * (if b = 0 then BitVec.allOnes 64 else a.udiv b) + (if b = 0 then a else a.umod b))
  ∧ ∀ (s : State) (c : Nat) (d : Divide),
    (getCore s c).divider = some d → d.due ≤ s.clk →
    (unitAt s c d.slot).live = true → (unitAt s c d.slot).uid = d.uid →
    Completes (.dividerFinish c) s fun t =>
      BecameAt s t c d.slot { getCore s c with divider := none }
        { unitAt s c d.slot with
          regs := if d.rd = 0 then (unitAt s c d.slot).regs else (unitAt s c d.slot).regs.set d.rd.toNat d.value d.rd.isLt }

/-! ## Scalar words: control flow (R131, R132, R134, R136 to R138) -/

/-- R99, R131, R288: a branch goes to PC + 4 + 4 × off16 where its condition on two registers, on a knot or on a port flag holds, else
to the next word, and nothing else changes; the six on registers have their majors and form B; BSTAT of an engine that does not exist raises OPERAND. -/
def Obligations.BranchWords : Prop :=
  ∀ (s : State) (ra rb : BitVec 5) (off : BitVec 16) (n eng : BitVec 4) (flag : BitVec 2),
    let a := regRead s ra
    let b := regRead s rb
    let pc := (getUnit s).pc
    let knot := (curCore s).knots.getLsbD n.toNat
    let bit := flagRead s (getUnit s) eng.toNat flag.toNat
    let goes (i : Instr) (c : Bool) : Prop :=
      Completes i s fun t => Moved s t (if c then pc + 4 + 4 * off.signExtend 64 else pc + 4)
    (∀ p ∈ ([(.beq ra rb off, 0x10), (.bne ra rb off, 0x11), (.blt ra rb off, 0x12), (.bge ra rb off, 0x13), (.bltu ra rb off, 0x14),
        (.bgeu ra rb off, 0x15)] : List (Instr × Nat)),
      encode p.1 = some (32, p.2 * 2 ^ 26 + ra.toNat * 2 ^ 21 + rb.toNat * 2 ^ 16 + off.toNat))
    ∧ (Runs s → ∀ p ∈ ([(.beq ra rb off, a == b), (.bne ra rb off, a != b), (.blt ra rb off, a.slt b), (.bge ra rb off, !a.slt b),
        (.bltu ra rb off, a.ult b), (.bgeu ra rb off, !a.ult b), (.bknotSet n off, knot), (.bknotClr n off, !knot)] :
        List (Instr × Bool)), goes p.1 p.2)
    ∧ (Runs s → eng.toNat < 5 → goes (.bstatSet eng flag off) bit ∧ goes (.bstatClr eng flag off) (!bit))
    ∧ (scalarRuns s = true → 5 ≤ eng.toNat → ∀ i ∈ ([.bstatSet eng flag off, .bstatClr eng flag off] : List Instr),
        Completes i s fun t => Raises s t 0x06 0 pc)

/-- R132: JAL links in s31 and jumps relative to the next word; JALR links in rd and jumps to an aligned target; to any other target
it raises ALIGN with the target in EVAL, and rd is unchanged; their majors are 0x16 in form J and 0x17 in form RI. -/
def Obligations.JumpWords : Prop :=
  ∀ (s : State) (rd ra : BitVec 5) (imm : BitVec 16) (off : BitVec 26),
    let pc := (getUnit s).pc
    let target := regRead s ra + imm.signExtend 64
    encode (.jal off) = some (32, 0x16 * 2 ^ 26 + off.toNat)
    ∧ encode (.jalr rd ra imm) = some (32, 0x17 * 2 ^ 26 + rd.toNat * 2 ^ 21 + ra.toNat * 2 ^ 16 + imm.toNat)
    ∧ (Runs s → Completes (.jal off) s fun t => Wrote s t 31 (pc + 4) 1 (pc + 4 + 4 * off.signExtend 64))
    ∧ (Runs s → target &&& 3 = 0 → Completes (.jalr rd ra imm) s fun t => Wrote s t rd (pc + 4) 1 target)
    ∧ (scalarRuns s = true → target &&& 3 ≠ 0 → Completes (.jalr rd ra imm) s fun t => Raises s t 0x03 target pc)

/-- R134, R123: NOP goes on to the next word; TRAP raises TRAP with ra in EVAL and BRK raises BRK with zero, EPC naming the next
word. R138: in U mode with SSTEP set, a word that completes without a trap is followed by BRK, with EPC naming the next word, the
branch target among them; here of NOP, ADDI and BEQ. R122, R141: while a division or a load of the unit is still under way, or a word of
it is still compared, BRK waits for it, and TRAP_ENTRY takes it once none is. -/
def Obligations.SystemWords : Prop :=
  ∀ (s : State) (rd ra rb : BitVec 5) (imm : BitVec 16),
    let pc := (getUnit s).pc
    (Runs s → Completes .nop s fun t => Moved s t (pc + 4))
    ∧ (scalarRuns s = true → Completes (.trap ra) s fun t => Raises s t 0x11 (regRead s ra) (pc + 4))
    ∧ (scalarRuns s = true → Completes .brk s fun t => Raises s t 0x10 0 (pc + 4))
    ∧ (scalarRuns s = true → (getUnit s).mode = .u → (getUnit s).sstep = true →
    let next := if regRead s ra = regRead s rb then pc + 4 + 4 * imm.signExtend 64 else pc + 4
    let late := resultsOut (curCore s) (getUnit s).uid || (getUnit s).compare.isSome
    let out := late || (getUnit s).diverged
    let owed (i : Instr) (n : Word) : Prop := Completes i s fun t =>
      Became s t (curCore s) { getUnit s with pc := n, wait := none, fore := [], stepped := true }
    (out = false → Completes .nop s fun t => TookTrap s t 0x10 0 (pc + 4))
    ∧ (out = false → Completes (.beq ra rb imm) s fun t => TookTrap s t 0x10 0 next)
    ∧ (out = true → owed .nop (pc + 4) ∧ owed (.beq ra rb imm) next)
    ∧ (late = false → (getUnit s).stepped = true → Completes (.trapEntry s.focus.core s.focus.slot) s fun t => TookTrap s t 0x10 0 pc)
    ∧ (late = true → Completes (.trapEntry s.focus.core s.focus.slot) s fun t => t = s)
    ∧ (out = false → Completes (.addi rd ra imm) s fun t =>
        (getUnit t).mode = .s ∧ (getUnit t).pc = (getUnit s).tvec ∧ (getUnit t).ecause = 0x9010
        ∧ (getUnit t).epc = (pc + 4) &&& 0x007FFFFFFFFFFFFC#64 ∧ (getUnit t).eval = 0
        ∧ (∀ r, regRead t r = if r = 0 then 0 else if r = rd then regRead s ra + imm.signExtend 64 else regRead s r)
        ∧ SameBytes s t))

/-- R97, R98, R136, R287, R402: KNOT.SET and KNOT.CLR complete at once, and where no other knot write is under way the knot takes its value
in the clock after issue, and not before; no other knot changes. The words that wait for one condition: KNOT.WAIT completes on a knot that is set and leaves it,
SLEEPUNTIL once TNS has reached ra, unsigned, EVQ.WAIT once the event queue holds a record, WFE once the event latch is set, which it
clears; each waits while its condition does not hold. -/
def Obligations.KnotWordsAndWaits : Prop :=
  ∀ (s : State) (n : BitVec 4) (ra : BitVec 5),
    (Runs s → ∀ p ∈ ([(.knotSet n, true), (.knotClr n, false)] : List (Instr × Bool)), Completes p.1 s fun t =>
      Became s t { curCore s with knotw := (curCore t).knotw } { getUnit s with pc := (getUnit s).pc + 4, wait := none, fore := [] }
      ∧ ((curCore s).knotw = [] →
          (∀ j, (knotsDue s.clk (curCore t)).knots.getLsbD j = (curCore s).knots.getLsbD j)
          ∧ ∀ j, j < 16 → (knotsDue (s.clk + 1) (curCore t)).knots.getLsbD j =
              if j = n.toNat then p.2 else (curCore s).knots.getLsbD j))
    ∧ (∀ p ∈ ([(.knotWait n, (curCore s).knots.getLsbD n.toNat), (.sleepuntil ra, decide ((regRead s ra).toNat ≤ s.tb.tns)),
        (.evqWait, decide ((getUnit s).evq ≠ []))] : List (Instr × Bool)),
      (Runs s → p.2 = true → Completes p.1 s fun t => Moved s t ((getUnit s).pc + 4))
      ∧ (scalarRuns s = true → p.2 = false → Completes p.1 s fun t => Waits s t p.1))
    ∧ (Runs s → (getUnit s).evl = true → Completes .wfe s fun t =>
      Became s t (curCore s) { getUnit s with evl := false, pc := (getUnit s).pc + 4, wait := none, fore := [] })
    ∧ (scalarRuns s = true → (getUnit s).evl = false → Completes .wfe s fun t => Waits s t .wfe)

/-! ## Special registers, time, knots and tokens (R93 to R99, R117 to R121, R139, R402) -/

/-- R117, R139, R402: GETSR reads every special register that the mode may read, usable one clock later; of one it may not read it
raises PRIV, and of a number that is absent ILLEGAL. RDTIME and RDCYC read TNS and CYC in the issue clock, usable two clocks and one
clock later. -/
def Obligations.SpecialRegistersAreRead : Prop :=
  ∀ (s : State) (rd : BitVec 5) (n : BitVec 12),
    let u := getUnit s
    (Runs s → Completes (.rdtime rd) s fun t => Wrote s t rd (BitVec.ofNat 64 s.tb.tns) 2 (u.pc + 4))
    ∧ (Runs s → Completes (.rdcyc rd) s fun t => Wrote s t rd (BitVec.ofNat 64 s.clk) 1 (u.pc + 4))
    ∧ match specialValue u n.toNat with
    | none => scalarRuns s = true → Completes (.getsr rd n) s fun t => Raises s t 0x01 0 u.pc
    | some v =>
      if u.mode = .s ∨ n.toNat < 4 ∨ n.toNat = 0x15 then
        Runs s → Completes (.getsr rd n) s fun t => Wrote s t rd v 1 (u.pc + 4)
      else scalarRuns s = true → Completes (.getsr rd n) s fun t => Raises s t 0x02 0 u.pc

/-- R117, R118, R121, R139: PUTSR writes a special register the mode may write; PRIV of one it may not, ILLEGAL of an absent one,
OPERAND of a reserved bit or of another mode, and the register is then unchanged. -/
def Obligations.SpecialRegistersAreWritten : Prop :=
  ∀ (s : State) (ra : BitVec 5) (n : BitVec 12),
    let u := getUnit s
    let v := regRead s ra
    let on : Machine.Unit := { u with pc := u.pc + 4, wait := none, fore := [] }
    (Runs s → n = 0x15 → Completes (.putsr ra n) s fun t => Became s t (curCore s) { on with uscratch := v })
    ∧ (Runs s → u.mode = .s →
        (n = 0 → v &&& ~~~(0xD#64) = 0 → v.getLsbD 0 = true →
          Completes (.putsr ra n) s fun t => Became s t (curCore s) { on with sstep := v.getLsbD 2, evl := v.getLsbD 3 })
        ∧ (n = 0x10 → Completes (.putsr ra n) s fun t => Became s t (curCore s) { on with tvec := v })
        ∧ (n = 0x11 → v &&& ~~~(0x007FFFFFFFFFFFFC#64) = 0 →
          Completes (.putsr ra n) s fun t => Became s t (curCore s) { on with epc := v })
        ∧ (n = 0x12 → v &&& ~~~(0xF0FF#64) = 0 → Completes (.putsr ra n) s fun t => Became s t (curCore s) { on with ecause := v })
        ∧ (n = 0x13 → Completes (.putsr ra n) s fun t => Became s t (curCore s) { on with eval := v })
        ∧ (n = 0x14 → Completes (.putsr ra n) s fun t => Became s t (curCore s) { on with sscratch := v }))
    ∧ (scalarRuns s = true → specialValue u n.toNat = none → Completes (.putsr ra n) s fun t => Raises s t 0x01 0 u.pc)
    ∧ (scalarRuns s = true → (n = 1 ∨ n = 2 ∨ n = 3 ∨ (u.mode = .u ∧ (n = 0 ∨ (0x10 ≤ n.toNat ∧ n.toNat < 0x15)))) →
        Completes (.putsr ra n) s fun t => Raises s t 0x02 0 u.pc)
    ∧ (scalarRuns s = true → u.mode = .s →
        ((n = 0 ∧ (v &&& ~~~(0xD#64) ≠ 0 ∨ v.getLsbD 0 = false)) ∨ (n = 0x11 ∧ v &&& ~~~(0x007FFFFFFFFFFFFC#64) ≠ 0)
          ∨ (n = 0x12 ∧ v &&& ~~~(0xF0FF#64) ≠ 0)) →
        Completes (.putsr ra n) s fun t => Raises s t 0x06 0 u.pc)

/-- R93, R94: TOK.GIVE adds a token where COUNT + RSV is below 32 and else waits, TOK.TAKE takes one where COUNT is not 0 and else
waits; a queue the unit does not own raises OPERAND. TOK.CFG claims a queue that is free or the unit's own with the count rb names, or
releases one of its own, once no token is reserved; the two names of that word act alike, rb[63] choosing. -/
def Obligations.TokenWords : Prop :=
  ∀ (s : State) (n : BitVec 4) (ra rb : BitVec 5),
    let u := getUnit s
    let b := regRead s rb
    let q := tokOf (curCore s) n.toNat
    let made (c r : Nat) (o : Option Nat) (t : State) : Prop :=
      Became s t { curCore s with tokq := mapSet (curCore s).tokq n.toNat { owner := o, count := c, rsv := r } }
        { u with pc := u.pc + 4, wait := none, fore := [] }
    (q.owner = some u.uid →
      (Runs s → q.count + q.rsv < 32 → Completes (.tokGive n) s (made (q.count + 1) q.rsv q.owner))
      ∧ (Runs s → 1 ≤ q.count → Completes (.tokTake n) s (made (q.count - 1) q.rsv q.owner))
      ∧ (scalarRuns s = true → 32 ≤ q.count + q.rsv → Completes (.tokGive n) s fun t => Waits s t (.tokGive n))
      ∧ (scalarRuns s = true → q.count = 0 → Completes (.tokTake n) s fun t => Waits s t (.tokTake n)))
    ∧ (scalarRuns s = true → q.owner ≠ some u.uid → ∀ i ∈ ([.tokGive n, .tokTake n] : List Instr),
        Completes i s fun t => Raises s t 0x06 0 u.pc)
    ∧ (regRead s ra = n.setWidth 64 → ∀ i ∈ ([.tokCfgClaim ra rb, .tokCfgRelease ra rb] : List Instr),
      (Runs s → b.toNat ≤ 32 → (q.owner = none ∨ q.owner = some u.uid) → q.rsv = 0 →
        Completes i s (made b.toNat 0 (some u.uid)))
      ∧ (Runs s → b = 0x8000000000000000#64 → q.owner = some u.uid → q.rsv = 0 → Completes i s (made 0 0 none))
      ∧ (scalarRuns s = true → b.toNat ≤ 32 → (q.owner = none ∨ q.owner = some u.uid) → q.rsv ≠ 0 →
        Completes i s fun t => Waits s t i)
      ∧ (scalarRuns s = true → 32 < b.toNat → b ≠ 0x8000000000000000#64 → Completes i s fun t => Raises s t 0x06 0 u.pc))

/-! ## Scalar memory (R244, R245, R250 to R253, R264) -/

/-- R250, R252, R269: a load, a store or an atomic whose address is aligned and translates to a home that the unit may go to issues one
access of its class: it takes a request slot, one of the unit's reserve or else a shared one, and the stream goes on; of the core only the
translation cache, the walk's slot and the journal change besides; nothing in memory has changed yet (log 7). A QNT add that stands next to
an earlier one of its unit to the same location may take that one's place in, which of the two is open (log 5). -/
def Obligations.AccessesIssue : Prop :=
  ∀ (s u : State) (rd ra rb : BitVec 5) (cls : BitVec 4) (off : BitVec 12) (use : BitVec 3) (size : BitVec 1) (pa : Nat) (leaf : Word),
    let k := curCore s
    let ku := curCore u
    let who := 1 + s.focus.slot
    let ea := regRead s ra + off.signExtend 64
    let b := regRead s rb
    let d := regRead s rd
    let w := if size = 1 then 8 else 4
    let spc := if use = 4 then rb else 0
    let made (va : Word) (n : Nat) (kind : AccKind) (r : BitVec 5) : Access := grantSlot ku
      { id := k.accSeq, slot := s.focus.slot, uid := (getUnit s).uid, part := (getUnit s).part, pc := (getUnit s).pc
        kind := kind, cls := cls, va := va.toNat, pa := pa, n := n, rd := r, leaf := leaf, vpage := (pageSpan u va.toNat).1
        span := (pageSpan u va.toNat).2, granted := false, reserve := false, issue := s.clk, smode := (getUnit s).mode = .s
        ride := false, join := none, passed := false }
    let after (accs : List Access) (a : Access) (k' : Core) : Prop :=
      let shared : Bool := a.granted && !a.reserve
      ku = { k with tlb := ku.tlb, brief := ku.brief, journal := ku.journal }
      ∧ k' = { ku with
          units := k'.units, accs := accs ++ [a], accSeq := k.accSeq + 1, grantLast := if shared then who else k.grantLast
          asks := if shared then k.asks.filter (· != who) else k.asks, asked := if shared then k.asked.filter (· != who) else k.asked }
    let issued (va : Word) (n : Nat) (kind : AccKind) (r : BitVec 5) (t : State) : Prop :=
      Became s t (curCore t) { getUnit s with pc := (getUnit s).pc + 4, wait := none, fore := [] }
      ∧ after k.accs (made va n kind r) (curCore t)
    let earlier := k.accs.filter (fun b => b.uid == (getUnit s).uid && overlaps b pa w)
    Runs s → fenceHolds (curCore s) (getUnit s) cls = false → walkHeld s ea = false → walkHeld s (regRead s ra) = false →
      homeOk u pa = true →
    (∀ p ∈ ([(.ldb rd ra cls off, 1, true), (.ldh rd ra cls off, 2, true), (.ldw rd ra cls off, 4, true),
        (.ldd rd ra cls off, 8, false), (.ldbu rd ra cls off, 1, false), (.ldhu rd ra cls off, 2, false),
        (.ldwu rd ra cls off, 4, false)] : List (Instr × Nat × Bool)),
      ea.toNat % p.2.1 = 0 → translate s ea .read = (.ok pa leaf, u) → Completes p.1 s (issued ea p.2.1 (.load p.2.2) rd))
    ∧ (∀ p ∈ ([(.stb rb ra cls off, 1), (.sth rb ra cls off, 2), (.stw rb ra cls off, 4), (.std rb ra cls off, 8)] :
        List (Instr × Nat)),
      ea.toNat % p.2 = 0 → translate s ea .write = (.ok pa leaf, u) → Completes p.1 s (issued ea p.2 (.store b) 0))
    ∧ (∀ p ∈ ([(.amoAdd rd ra rb cls use size, .add), (.amoAnd rd ra rb cls use size, .and), (.amoOr rd ra rb cls use size, .or),
        (.amoXor rd ra rb cls use size, .xor), (.amoMin rd ra rb cls use size, .min), (.amoMax rd ra rb cls use size, .max),
        (.amoSwap rd ra rb cls use size, .swap), (.cas rd ra rb cls use size, .cas)] : List (Instr × AtomOp)),
      (regRead s ra).toNat % w = 0 → translate s (regRead s ra) .write = (.ok pa leaf, u) →
        p.2 ≠ .add ∨ use ≠ 3 ∨ earlier = [] → Completes p.1 s (issued (regRead s ra) w (.atom p.2 use b d spc) rd))
    ∧ ∀ x, earlier.getLast? = some x → (regRead s ra).toNat % w = 0 → translate s (regRead s ra) .write = (.ok pa leaf, u) →
        (∃ b' d' r', x.kind = .atom .add 3 b' d' r') → x.cls = cls → x.pa = pa → x.n = w → x.slot = s.focus.slot → x.id ≠ k.accSeq →
        Completes (.amoAdd rd ra rb cls 3 size) s fun t =>
          let a := made (regRead s ra) w (.atom .add 3 b d 0) rd
          t = { s with cores := t.cores, fresh := s.fresh + 1 } ∧ (∀ c, c ≠ s.focus.core → getCore t c = getCore s c)
          ∧ (∀ j, j ≠ s.focus.slot → unitAt t s.focus.core j = unitAt s s.focus.core j)
          ∧ getUnit t = { getUnit s with pc := (getUnit s).pc + 4, wait := none, fore := [] }
          ∧ (after k.accs a (curCore t) ∨ after
              (k.accs.map (fun y => if y.id = x.id ∨ y.join = some x.id then { y with join := some k.accSeq } else y)) a (curCore t))

/-- R250, R252: a load, a store or an atomic at an address that is not aligned to it raises ALIGN, at one that does not translate what its
translation says, with the address in EVAL, and is not issued. R264, R265, R382: while a FENCE holds its class, a full journal its walk, or
the journal or the want of any path its home, it is held at issue and only the translation has been made, if that. -/
def Obligations.AccessesTrap : Prop :=
  ∀ (s u : State) (rd ra rb : BitVec 5) (cls : BitVec 4) (off : BitVec 12) (use : BitVec 3) (size : BitVec 1) (cause : BitVec 8)
    (pa : Nat) (leaf : Word),
    let ea := regRead s ra + off.signExtend 64
    let va := regRead s ra
    let w := if size = 1 then 8 else 4
    scalarRuns s = true →
    ∀ p ∈ ([(.ldb rd ra cls off, ea, 1, .read), (.ldh rd ra cls off, ea, 2, .read), (.ldw rd ra cls off, ea, 4, .read),
        (.ldd rd ra cls off, ea, 8, .read), (.ldbu rd ra cls off, ea, 1, .read), (.ldhu rd ra cls off, ea, 2, .read),
        (.ldwu rd ra cls off, ea, 4, .read), (.stb rb ra cls off, ea, 1, .write), (.sth rb ra cls off, ea, 2, .write),
        (.stw rb ra cls off, ea, 4, .write), (.std rb ra cls off, ea, 8, .write), (.amoAdd rd ra rb cls use size, va, w, .write),
        (.amoAnd rd ra rb cls use size, va, w, .write), (.amoOr rd ra rb cls use size, va, w, .write),
        (.amoXor rd ra rb cls use size, va, w, .write), (.amoMin rd ra rb cls use size, va, w, .write),
        (.amoMax rd ra rb cls use size, va, w, .write), (.amoSwap rd ra rb cls use size, va, w, .write),
        (.cas rd ra rb cls use size, va, w, .write)] : List (Instr × Word × Nat × AccessKind)),
      (fenceHolds (curCore s) (getUnit s) cls = true ∨ walkHeld s p.2.1 = true → Completes p.1 s fun t => t = s)
      ∧ (fenceHolds (curCore s) (getUnit s) cls = false → walkHeld s p.2.1 = false →
        (p.2.1.toNat % p.2.2.1 ≠ 0 → Completes p.1 s fun t => Raises s t 0x03 p.2.1 (getUnit s).pc)
        ∧ (p.2.1.toNat % p.2.2.1 = 0 → translate s p.2.1 p.2.2.2 = (.fail cause, u) →
            Completes p.1 s fun t => Raises s t cause p.2.1 (getUnit s).pc)
        ∧ (p.2.1.toNat % p.2.2.1 = 0 → translate s p.2.1 p.2.2.2 = (.ok pa leaf, u) → homeOk u pa = false →
            Completes p.1 s fun t => t = s))

/-- R237, R250, R251, R253, R254: the response of a load, or of an atomic that returns a value, arrives once its slot is granted, no earlier
access of its unit is in its way and a path to its home remains: rd of the unit takes the loaded value, sign- or zero-extended, or the old
value sign-extended, an atomic writes its new value, the slot is released, and no other byte of memory and no other register changes. An SPC
atomic returns its status in rd and, where that is 0 or 1, the old value in rb, and writes where it is 0: 0x14 while the page migrates, else
2 where a COM or NOR of its class has passed it (R267) or it fails spuriously, which is open (log 5), else 1 where CAS compares unequal.
A NOR atomic passes the SPC atomics before it in its class. -/
def Obligations.LoadsRespond : Prop :=
  ∀ (s : State) (c k : Nat) (a : Access),
    let m := memNat s.mem a.pa a.n
    let u := unitAt s c a.slot
    let old : BitVec (8 * a.n) := BitVec.ofNat (8 * a.n) m
    let rest := dropAt (getCore s c).accs k
    let answers (fresh : Nat) (accs : List Access) (regs : BitVec 5 → Word) (t : State) : Prop :=
      t = { s with cores := t.cores, mem := t.mem, fresh := fresh } ∧ (∀ d, d ≠ c → getCore t d = getCore s d)
      ∧ (∀ j, j ≠ a.slot → unitAt t c j = unitAt s c j)
      ∧ getCore t c = { getCore s c with units := (getCore t c).units, accs := accs, journal := (getCore t c).journal }
      ∧ unitAt t c a.slot = { u with regs := (unitAt t c a.slot).regs }
      ∧ ∀ r : BitVec 5, (unitAt t c a.slot).regs[r.toNat] = regs r
    let wrote (v : Word) (r : BitVec 5) : Word := if r ≠ 0 ∧ r = a.rd then v else u.regs[r.toNat]
    nth (getCore s c).accs k = some a → mayPerform s (dieOf c) (getCore s c).accs k = true →
    accPlace (getCore s c) a.id = k → (∀ b ∈ (getCore s c).accs, b.join ≠ some a.id) → reachable s (homePkg a.pa) = true →
    inletChan a.pa = none → poisoned s a.pa a.n = false → u.live = true → u.uid = a.uid →
    (∀ signed, a.kind = .load signed → a.n ∈ [1, 2, 4, 8] →
      Completes (.loadResponse c k) s fun t =>
        answers s.fresh rest (wrote (if signed then old.signExtend 64 else old.setWidth 64)) t ∧ SameBytes s t)
    ∧ (∀ op use b expect rb, a.kind = .atom op use b expect rb → use ∈ [0#3, 2#3, 3#3] → a.n ∈ [4, 8] → migrating s a = false →
        Completes (.loadResponse c k) s fun t =>
          answers s.fresh (if use = 2 then passedSpc a rest else rest) (wrote (old.signExtend 64)) t ∧ SameBytesBut s t a.pa a.n
          ∧ BitVec.ofNat (8 * a.n) (memNat t.mem a.pa a.n) = atomValue op old (b.setWidth _) (expect.setWidth _))
    ∧ ∀ op b expect rb, a.kind = .atom op 4 b expect rb → op = .swap ∨ op = .cas → a.n ∈ [4, 8] → ∃ st : Nat,
        (Completes (.loadResponse c k) s fun t =>
          answers (s.fresh + 1) rest (fun r => if r ≠ 0 ∧ r = a.rd then BitVec.ofNat 64 st
            else if r ≠ 0 ∧ r = rb ∧ st < 2 then old.signExtend 64 else u.regs[r.toNat]) t
          ∧ if st = 0 then SameBytesBut s t a.pa a.n ∧ BitVec.ofNat (8 * a.n) (memNat t.mem a.pa a.n) = b.setWidth _ else SameBytes s t)
        ∧ (migrating s a = true → st = 0x14) ∧ (migrating s a = false → a.passed = true → st = 2)
        ∧ (migrating s a = false → st = 2 ∨ (st = 1 ∧ op = .cas ∧ old ≠ expect.setWidth _)
            ∨ (st = 0 ∧ ¬(op = .cas ∧ old ≠ expect.setWidth _)))

/-- R237, R250, R251, R252, R253, R267: a store, or an atomic with use COM, is performed at its home: its bytes take the low bytes of the
stored value, or what its operation makes of them, no other byte changes, the slot is released, and no register changes; a COM atomic passes
the SPC atomics before it in its class. On a page under migration it waits, and so it does while no path to its home remains. -/
def Obligations.StoresArePerformed : Prop :=
  ∀ (s : State) (c k : Nat) (a : Access) (data : Word),
    let old : BitVec (8 * a.n) := BitVec.ofNat (8 * a.n) (memNat s.mem a.pa a.n)
    let rest := dropAt (getCore s c).accs k
    let stored (accs : List Access) (v : BitVec (8 * a.n)) (t : State) : Prop :=
      t = { s with cores := t.cores, mem := t.mem } ∧ (∀ d, d ≠ c → getCore t d = getCore s d)
      ∧ getCore t c = { getCore s c with accs := accs, journal := (getCore t c).journal }
      ∧ SameBytesBut s t a.pa a.n ∧ BitVec.ofNat (8 * a.n) (memNat t.mem a.pa a.n) = v
    nth (getCore s c).accs k = some a → mayPerform s (dieOf c) (getCore s c).accs k = true →
    accPlace (getCore s c) a.id = k → (∀ b ∈ (getCore s c).accs, b.join ≠ some a.id) → inletChan a.pa = none →
    (reachable s (homePkg a.pa) = false ∨ (migrating s a = true ∧ leavesCore a = true ∧ spcAtomic a = false) →
      Completes (.storeAcknowledgement c k) s fun t => t = s)
    ∧ (reachable s (homePkg a.pa) = true → migrating s a = false →
      (a.kind = .store data → a.n ∈ [1, 2, 4, 8] → Completes (.storeAcknowledgement c k) s (stored rest (data.setWidth _)))
      ∧ ∀ op rb expect, a.kind = .atom op 1 data expect rb → op ∈ ([.add, .and, .or, .xor, .min, .max] : List AtomOp) → a.n ∈ [4, 8] →
          poisoned s a.pa a.n = false →
          Completes (.storeAcknowledgement c k) s (stored (passedSpc a rest) (atomValue op old (data.setWidth _) (expect.setWidth _))))

/-- R244, R245: a waiting access takes a free slot of its unit's reserve of 8, and with that full a free one of the 976 shared slots
where no requester that waits for one stands before its stream in the cyclic order after the last grant and no earlier access of its stream
waits; the pieces of its record ride with it. Where another stands before it, or no slot is free, it goes on waiting. No grant, no access
that issues, no record and no layout that is read takes more than 8 of a reserve or more than 976 shared slots. -/
def Obligations.RequestSlotsAreGranted : Prop :=
  ∀ (s : State) (c k : Nat) (a : Access),
    let x := getCore s c
    let who := 1 + a.slot
    let given (reserve : Bool) : List Access := x.accs.map (fun b =>
      if b.id = a.id ∨ (b.ride = true ∧ b.uid = a.uid ∧ b.issue = a.issue) then { b with granted := true, reserve := reserve } else b)
    let before (w : Nat) : Prop := 1 ≤ w ∧ w ≤ 6 ∧ w ≠ who ∧ waitsShared x w = true ∧ reqGap x.grantLast w ≤ reqGap x.grantLast who
    let earlier (b : Access) : Prop := b ∈ x.accs ∧ b.granted = false ∧ b.ride = false ∧ b.slot = a.slot ∧ b.id < a.id
    nth x.accs k = some a → a.granted = false → a.ride = false →
    (reserveUsed x a.slot < 8 → Completes (.requestSlotGrant c k) s fun t =>
      OnlyCore s t c ∧ getCore t c = { x with accs := given true })
    ∧ (8 ≤ reserveUsed x a.slot → sharedUsed x < 976 → (∀ w, ¬before w) → (∀ b, ¬earlier b) →
      Completes (.requestSlotGrant c k) s fun t => OnlyCore s t c ∧ getCore t c =
        { x with accs := given false, grantLast := who, asks := x.asks.filter (· != who), asked := x.asked.filter (· != who) })
    ∧ (8 ≤ reserveUsed x a.slot → (976 ≤ sharedUsed x ∨ (∃ w, before w) ∨ ∃ b, earlier b) →
      Completes (.requestSlotGrant c k) s fun t => t = s)
    ∧ (SlotsBounded x → (x.accs.filter (fun b => b.id == a.id)).length = 1 →
      Completes (.requestSlotGrant c k) s fun t => SlotsBounded (getCore t c))
    ∧ (SlotsBounded (curCore s) → ∀ b, SlotsBounded (curCore (issueAccess s b)))
    ∧ (SlotsBounded x → ∀ slot n, slot < 4 → linesFor x slot n = true → SlotsBounded (holdLines x slot n))
    ∧ (SlotsBounded x → ∀ w, sharedFor x w 1 = true → SlotsBounded (holdShared x w))

/-- R33, R258, R264, R265: FENCE completes at once where fewer than four of the unit's are incomplete: it counts the unit's outstanding
accesses of the before-mask whose home lies within its scope, with those that the pushes of such commands wait for, and holds later
accesses of the after-mask for them; a fifth is held at issue; a mask with a bit above 15 raises OPERAND. -/
def Obligations.FenceCounts : Prop :=
  ∀ (s : State) (scope : BitVec 2) (ball aall : BitVec 1) (ra rb : BitVec 5),
    let before := if ball = 1 then 0xFFFF#64 else regRead s ra
    let after := if aall = 1 then 0xFFFF#64 else regRead s rb
    let queued := openFences (curCore s) (getUnit s)
    let within (a : Access) (n : Nat) : Prop := homeScope (dieOf s.focus.core) a.pa ≤ n
    let pushes (a : Access) : Prop := ∃ e ∈ (getUnit s).ports, ∃ c ∈ e.2.queue,
      before.getLsbD (qClass c.quad).toNat = true ∧ (e.1 = 0 ∨ 2 ≤ scope.toNat) ∧ a.uid = (getUnit s).uid ∧ a.cls = qClass c.quad
      ∧ a.id < c.pushed ∧ (looseAtomic a = false ∨ within a (c.quad.cw0.toNat / 2 ^ 50 % 4))
    (Runs s → before.toNat < 65536 → after.toNat < 65536 → queued.length < 4 →
      Completes (.fence scope ball aall ra rb) s fun t =>
        Became s t (curCore s) { getUnit s with pc := (getUnit s).pc + 4, wait := none, fore := [], fences := (getUnit t).fences }
        ∧ ∃ f, (getUnit t).fences = queued ++ [f] ∧ f.after = after.setWidth 16
          ∧ ∀ id, id ∈ f.counted ↔ ∃ a ∈ (curCore s).accs, a.id = id
              ∧ ((a.uid = (getUnit s).uid ∧ before.getLsbD a.cls.toNat = true ∧ within a scope.toNat) ∨ pushes a))
    ∧ (scalarRuns s = true → before.toNat < 65536 → after.toNat < 65536 → 4 ≤ queued.length →
      Completes (.fence scope ball aall ra rb) s fun t => t = s)
    ∧ (scalarRuns s = true → 65536 ≤ before.toNat ∨ 65536 ≤ after.toNat →
      Completes (.fence scope ball aall ra rb) s fun t => Raises s t 0x06 0 (getUnit s).pc)
/-! ## Traps, waits and endings (R81, R122 to R125, R135, R137, R320, R321, R440) -/

/-- R122, R123, R125, R137: ERET in S mode goes on at EPC in U mode where no cause is pending, and else takes the first pending cause at once,
with EPC naming the word not yet issued; in U mode it raises PRIV. Its registers and every byte of memory are as before. A unit in U mode whose earlier words have all completed takes the first cause of its streams or engines, with EPC
naming the word that had not yet issued; nothing but the unit changes. While an earlier word has not completed, or for a cause of the vector
stream while its words have not run out (R365), either waits. CHECK and UNCORR, which an idempotent task answers otherwise
(R366), are left out here. -/
def Obligations.TrapsAreTakenAndLeft : Prop :=
  (∀ s : State, scalarRuns s = true →
    let u := getUnit s
    (u.mode = .s → u.pending = [] → Completes .eret s fun t =>
      OnlyCore s t s.focus.core
      ∧ getUnit t = { u with pc := u.epc, mode := .u, wait := none, fore := [], engineAt := s.clk + 1, away := none })
    ∧ (u.mode = .s → u.pending ≠ [] → causeReady s s.focus.core s.focus.slot = false → Completes .eret s fun t => t = s)
    ∧ (∀ p ps, u.mode = .s → u.pending = p :: ps → p.cause ≠ 0x0D → p.cause ≠ 0x0E →
      (∀ d, (curCore s).divider = some d → d.uid ≠ u.uid) → (∀ a ∈ (curCore s).accs, a.uid ≠ u.uid) → u.compare = none →
      (∀ f ∈ (curCore s).vec.flights, f.uid ≠ u.uid) → Completes .eret s fun t =>
      OnlyCore s t s.focus.core
      ∧ getUnit t = { u with
          pending := ps, epc := u.epc &&& 0x007FFFFFFFFFFFFC#64, ecause := BitVec.ofNat 64 (p.stream * 4096 + p.cause.toNat)
          eval := p.eval, mode := .s, pc := u.tvec, wait := none, fore := [], bond := [], stepped := false, engineAt := s.clk + 1
          away := some (u.away.getD s.clk) })
    ∧ (u.mode = .u → Completes .eret s fun t => Raises s t 0x02 0 u.pc))
  ∧ ∀ (s : State) (c i : Nat) (p : Pending) (ps : List Pending),
    let u := unitAt s c i
    u.live = true → u.mode = .u → u.ending = none → u.stepped = false → preempting s c i = false → u.pending = p :: ps →
    p.cause ≠ 0x0D → p.cause ≠ 0x0E →
    (causeReady s c i = false → Completes (.trapEntry c i) s fun t => t = s)
    ∧ ((∀ d, (getCore s c).divider = some d → d.uid ≠ u.uid) → (∀ a ∈ (getCore s c).accs, a.uid ≠ u.uid) → u.compare = none →
    (∀ f ∈ (getCore s c).vec.flights, f.uid ≠ u.uid) →
    Completes (.trapEntry c i) s fun t => BecameAt s t c i (getCore s c)
      { u with
        pending := ps, epc := u.pc &&& 0x007FFFFFFFFFFFFC#64, ecause := BitVec.ofNat 64 (p.stream * 4096 + p.cause.toNat)
        eval := p.eval, mode := .s, pc := u.tvec, wait := none, fore := [], bond := [], away := some (u.away.getD s.clk) })

/-- R80, R81: a unit that waits is tried again: KNOT.WAIT completes once its knot is set and WFE once the latch is, and the unit goes
on; while the condition does not hold nothing changes. A unit with an interrupt to take is not tried. -/
def Obligations.WaitsResume : Prop :=
  ∀ (s : State) (c i : Nat) (n : BitVec 4),
    let u := unitAt s c i
    let f := focusOn s c i 0
    let on := { u with pc := u.pc + 4, wait := none, fore := [] }
    Runs f → u.diverged = false → u.compare = none →
    (u.mode = .u → u.pending ≠ [] → u.wait ≠ none → Completes (.scalarWaitResume c i) s fun t => t = s)
    ∧ (¬(u.mode = .u ∧ u.pending ≠ []) →
    (u.wait = some (.knotWait n) → (getCore s c).knots.getLsbD n.toNat = true →
      Completes (.scalarWaitResume c i) s fun t => BecameAt s t c i (getCore s c) on)
    ∧ (u.wait = some .wfe → u.evl = true →
      Completes (.scalarWaitResume c i) s fun t => BecameAt s t c i (getCore s c) { on with evl := false })
    ∧ (u.wait = some (.knotWait n) → (getCore s c).knots.getLsbD n.toNat = false →
      Completes (.scalarWaitResume c i) s fun t => BecameAt s t c i (getCore s c) { u with fore := [] }))

/-- R135, R320, R321: HALT, and TSK.END with a status of at most 0x13, end the unit once everything it started is over, and wait
until then; the unit's slot is empty and what it held is free. Ended with status 0, HALT in U mode, an armed task without successors
is DONE in its TCB, and no byte outside bytes 120 to 127 of that TCB changes; without an armed task none does; a halted queue may still
hold commands, which are cut (R282), and these clauses speak of a unit with none, and of a page that is not under migration. TSK.END with a greater
status raises OPERAND. -/
def Obligations.UnitsEnd : Prop :=
  ∀ (s : State) (ra : BitVec 5),
    let c := s.focus.core
    let i := s.focus.slot
    let u := getUnit s
    let v := regRead s ra
    let none' := ∀ e ∈ u.ports, e.2.queue = []
    let ends (x : Instr) : Prop := Completes x s fun t =>
      UnitGone s t c i ∧ (taskOf s u.task = none → none' → SameBytes s t)
      ∧ (∀ k, none' → onMigrating s (k.pa + 120) = false → taskOf s u.task = some k → tcbNsucc k.body = 0 → (u.mode = .u ∨ x ≠ .halt) → (x ≠ .halt → v = 0) →
          memByte t.mem (k.pa + 120) = 4 ∧ memByte t.mem (k.pa + 121) = 0 ∧ SameBytesBut s t (k.pa + 120) 8
          ∧ taskOf t u.task = none)
    scalarRuns s = true →
    (AllOver s c i → ends .halt ∧ (v.toNat ≤ 0x13 → ends (.tskEnd ra)))
    ∧ (¬AllOver s c i → u.mode = .u →
        (Completes .halt s fun t => Waits s t .halt)
        ∧ (v.toNat ≤ 0x13 → Completes (.tskEnd ra) s fun t => Waits s t (.tskEnd ra)))
    ∧ (0x13 < v.toNat → Completes (.tskEnd ra) s fun t => Raises s t 0x06 0 u.pc)

/-- R320, R322, R440: a unit that is to end otherwise than by HALT ends once its words and commands are over: its slot is empty and
what it held is free; a cancelled task is CANCELLED in its TCB, with CANCELLED as its status. -/
def Obligations.EndingUnitsEnd : Prop :=
  ∀ (s : State) (c i : Nat) (cause : BitVec 8),
    let u := unitAt s c i
    u.live = true → u.ending = some cause → AllOver s c i → unitStreams (getCore s c) u.uid = [] →
    (∀ x ∈ s.colls, x.cmd.uid ≠ u.uid) → (∀ e ∈ u.ports, e.2.queue = []) →
    Completes (.unitEnd c i) s fun t =>
      UnitGone s t c i
      ∧ ∀ k, taskOf s u.task = some k → cause = 0x13 → onMigrating s (k.pa + 120) = false →
          memByte t.mem (k.pa + 120) = 7 ∧ memByte t.mem (k.pa + 121) = 0x13 ∧ SameBytesBut s t (k.pa + 120) 8
          ∧ taskOf t u.task = none
/-! ## Tiles (R145 to R164) -/

/-- R145, R156, R158: TALLOC with a good descriptor takes the handle asked for, or the lowest that is not VALID; where a place exists
the entry is the descriptor's with GEN advanced, empty, its clearing under way, and rd takes GEN and the handle two clocks later. A
handle in use gives status 3; with NW, no handle gives status 1 and no place status 2, and without NW the word waits; that one for a
named handle waits so too is the model's reading (log 63). A bad descriptor raises OPERAND. -/
def Obligations.TilesAreAllocated : Prop :=
  ∀ (s : State) (rd ra : BitVec 5),
    let d := regRead s ra
    let k := curCore s
    let u := getUnit s
    let want := tallocTile d s.focus.slot u.uid
    let gives (st : Nat) : Prop :=
      Completes (.talloc rd ra) s fun t => Wrote s t rd (BitVec.ofNat 64 (st * 2 ^ 56)) 2 (u.pc + 4)
    let waits : Prop := Completes (.talloc rd ra) s fun t => Waits s t (.talloc rd ra)
    (scalarRuns s = true → tallocBad k u.uid d = true → Completes (.talloc rd ra) s fun t => Raises s t 0x06 0 u.pc)
    ∧ (Runs s → tallocBad k u.uid d = false →
      (∀ h, (if d.getLsbD 12 then (tileOf k h).valid = false ∧ h < 4096 ∧ ∀ j, j < h → (tileOf k j).valid = true
              else h = d.toNat % 4096) →
        ((tileOf k h).valid = true → gives 3)
        ∧ ((tileOf k h).valid = false →
          (∀ p, placeTile k want = some p → Completes (.talloc rd ra) s fun t =>
            SameBytes s t
            ∧ (∀ j, j ≠ h → tileOf (curCore t) j = tileOf k j)
            ∧ (let e := tileOf (curCore t) h
              e.valid = true ∧ e.full = false ∧ e.arrival = 0 ∧ e.gen = (tileOf k h).gen + 1 ∧ e.ownerUid = u.uid
              ∧ e.owner.toNat = s.focus.slot % 4 ∧ e.fmt = d.extractLsb' 56 4 ∧ e.pl = d.extractLsb' 52 4
              ∧ e.sub = d.extractLsb' 48 4 ∧ e.rowsm1 = d.extractLsb' 36 12 ∧ e.colsm1 = d.extractLsb' 24 12
              ∧ e.acc = d.getLsbD 61 ∧ e.share = d.getLsbD 62 ∧ e.clearing.isSome = true)
            ∧ (∀ r, regRead t r = if r = 0 then 0 else if r = rd then
                BitVec.ofNat 64 (((tileOf k h).gen + 1).toNat * 4096 + h) else regRead s r)
            ∧ (getUnit t).pc = u.pc + 4)
          ∧ (placeTile k want = none → if d.getLsbD 63 then gives 2 else waits)))
      ∧ (d.getLsbD 12 = true → (∀ j, j < 4096 → (tileOf k j).valid = true) → if d.getLsbD 63 then gives 1 else waits))

/-- R146, R159 to R162: TFREE clears VALID and keeps GEN once no word and no command of the unit names the handle, TSETF empties,
fills or retargets a SCRATCH tile once no word of the unit names it, whichever of its three names the word bears, TWAIT completes
once the tile is full or its ARRIVAL has reached rb; each waits until then, and raises TILE with the handle in EVAL for a handle that
fails R146. What a freed handle still held of RANKED contributions stands among the deposits again, to be refused (R349). TINFO reads an
entry, zero where the handle is not VALID. That TSETF and TINFO follow the deposits of their clock (R154, R160)
the model keeps by the clock in which each handle was last seen. -/
def Obligations.TileWords : Prop :=
  ∀ (s : State) (rd ra rb : BitVec 5) (h : BitVec 12),
    let k := curCore s
    let u := getUnit s
    let e := tileOf k h.toNat
    let b := regRead s rb
    let v := b.toNat % 2 ^ 24
    let target : BitVec 24 := if v = 0 then BitVec.ofNat 24 (defaultTarget e) else BitVec.ofNat 24 v
    let on := { u with pc := u.pc + 4, wait := none, fore := [] }
    let named := wordsName k u.uid h
    let mine := e.valid = true ∧ (e.ownerUid = u.uid ∨ e.share = true)
    let seen := mapSet k.seen h.toNat s.clk
    let badTile (i : Instr) : Prop :=
      scalarRuns s = true → Completes i s fun t => Raises s t 0x07 (BitVec.ofNat 64 (h.toNat * 65536)) u.pc
    regRead s ra = h.setWidth 64 →
    (e.valid = true → e.ownerUid = u.uid → named = false → cmdsName s u h = false → Runs s → Completes (.tfree ra) s fun t =>
        t = { s with cores := t.cores, deps := t.deps } ∧ (∀ c, c ≠ s.focus.core → getCore t c = getCore s c)
        ∧ (∀ j, j ≠ s.focus.slot → unitAt t s.focus.core j = unitAt s s.focus.core j) ∧ getUnit t = on
        ∧ curCore t = { k with
            units := (curCore t).units, tiles := mapSet k.tiles h.toNat { Tile.reset with gen := e.gen }
            ranks := (curCore t).ranks, parked := k.parked.filter (fun p => p.handle != h) }
        ∧ t.deps = s.deps ++ (k.parked.filter (fun p => p.handle == h)).map (fun p =>
            { src := p.src, core := s.focus.core, handle := p.handle, gen := p.gen, word := p.word, data := p.data, mask := p.mask
              kind := p.kind, ranked := some p.key, cls := p.cls, due := s.clk, held := false, bad := p.bad }))
    ∧ (e.valid = true → e.ownerUid = u.uid → named = true ∨ cmdsName s u h = true → scalarRuns s = true →
        Completes (.tfree ra) s fun t => Waits s t (.tfree ra))
    ∧ (e.valid = false ∨ e.ownerUid ≠ u.uid → badTile (.tfree ra))
    ∧ (Runs s → ∃ w : Word, (Completes (.tinfo rd ra) s fun t => WroteIn s t { k with seen := seen } rd w 1 (u.pc + 4))
        ∧ (e.valid = false → w = 0)
        ∧ (e.valid = true → w.getLsbD 63 = true ∧ w.getLsbD 62 = e.share ∧ w.getLsbD 61 = e.acc ∧ w.getLsbD 60 = isFull e s.clk
            ∧ w.extractLsb' 56 4 = e.fmt ∧ w.extractLsb' 52 4 = e.pl ∧ w.extractLsb' 50 2 = e.owner ∧ w.extractLsb' 46 4 = e.sub
            ∧ w.extractLsb' 38 8 = e.gen ∧ w.extractLsb' 24 14 = 0 ∧ w.extractLsb' 0 24 = e.arrival))
    ∧ (∀ i ∈ ([.tsetfEmpty ra rb, .tsetfFull ra rb, .tsetfTarget ra rb] : List Instr),
        (b &&& 0x3FFFFFFFFF000000#64 = 0 → mine → e.acc = false → Runs s → named = false →
          (b.toNat / 2 ^ 62 = 0 → Completes i s fun t => Became s t
            { k with tiles := mapSet k.tiles h.toNat { e with full := false, arrival := 0, target := target }, seen := seen } on)
          ∧ (b = 0x4000000000000000#64 → Completes i s fun t => Became s t
            { k with tiles := mapSet k.tiles h.toNat { e with full := true, fullAt := s.clk, arrival := e.target }, seen := seen } on)
          ∧ (b.toNat / 2 ^ 62 = 2 → Completes i s fun t => Became s t
            { k with
              seen := seen
              tiles := mapSet k.tiles h.toNat
                (if target.toNat ≤ e.arrival.toNat ∧ e.full = false then
                  { e with target := target, full := true, fullAt := s.clk + 1 }
                 else { e with target := target }) } on))
        ∧ (b.toNat < 2 ^ 24 → mine → e.acc = false → named = true → scalarRuns s = true → Completes i s fun t => Waits s t i)
        ∧ (b.toNat < 2 ^ 24 → ¬mine ∨ e.acc = true → badTile i)
        ∧ (b &&& 0x3FFFFFFFFF000000#64 ≠ 0 ∨ b.toNat / 2 ^ 62 = 3 → scalarRuns s = true → Completes i s fun t => Raises s t 0x06 0 u.pc))
    ∧ (b.toNat < 2 ^ 24 → mine → isFull e s.clk = true ∨ (b ≠ 0 ∧ b.toNat ≤ e.arrival.toNat) → Runs s →
        Completes (.twait ra rb) s fun t => Became s t k on)
    ∧ (b.toNat < 2 ^ 24 → mine → isFull e s.clk = false → b = 0 ∨ e.arrival.toNat < b.toNat → scalarRuns s = true →
        Completes (.twait ra rb) s fun t => Waits s t (.twait ra rb))
    ∧ (b.toNat < 2 ^ 24 → ¬mine → badTile (.twait ra rb))

/-- R163, R164, R244, R245: SHAPE.W reads the 16 bytes at rb, in pieces (R263), and replaces shape record ra[7:0] whole; while no request slot
is free for it it asks for one and is held; a reserved bit raises OPERAND, an address that is not a multiple of 16 ALIGN. It is held while
a full journal takes no walk or no path leads to the home. -/
def Obligations.ShapesAreWritten : Prop :=
  ∀ (s u : State) (ra rb : BitVec 5) (pa : Nat) (leaf : Word),
    let a := regRead s ra
    let va := regRead s rb
    let n := a.toNat % 256
    let cls : BitVec 4 := a.extractLsb' 8 4
    let x (i : Nat) : Nat := fieldNat (recordBytes s pa 16) i 2
    let free := linesFor (curCore u) s.focus.slot 1
    a.toNat < 4096 → n ≠ 0 → fenceHolds (curCore s) (getUnit s) cls = false →
    (walkHeld s va = true → scalarRuns s = true → Completes (.shapeW ra rb) s fun t => t = s) ∧ (walkHeld s va = false →
    (Runs s → va.toNat % 16 = 0 → translate s va .read = (.ok pa leaf, u) → poisoned s pa 16 = false →
      (∀ y ∈ (curCore s).accs, y.uid ≠ (getUnit s).uid) → homeOk u pa = true → free = true →
      (x 12 < 2 → x 14 = 0 → Completes (.shapeW ra rb) s fun t =>
        OnlyCore s t s.focus.core ∧ getUnit t = { getUnit s with pc := (getUnit s).pc + 4, wait := none, fore := [] }
        ∧ (∀ j, j ≠ n → shapeOf (curCore t) j = shapeOf (curCore s) j)
        ∧ (let h := shapeOf (curCore t) n
          h.rowoff = x 0 ∧ h.coloff = x 2 ∧ h.rowstr = (BitVec.ofNat 16 (x 4)).toInt ∧ h.colstr = (BitVec.ofNat 16 (x 6)).toInt
          ∧ h.rows = x 8 ∧ h.cols = x 10 ∧ h.trans = decide (x 12 = 1)))
      ∧ (2 ≤ x 12 ∨ x 14 ≠ 0 → Completes (.shapeW ra rb) s fun t => Raises s t 0x06 0 (getUnit s).pc))
    ∧ (scalarRuns s = true → va.toNat % 16 = 0 → translate s va .read = (.ok pa leaf, u) → homeOk u pa = true → free = false →
      (∀ y ∈ (curCore s).accs, y.uid ≠ (getUnit s).uid) → Completes (.shapeW ra rb) s fun t => AsksForSlot s t)
    ∧ (scalarRuns s = true → va.toNat % 16 = 0 → translate s va .read = (.ok pa leaf, u) → homeOk u pa = false →
      Completes (.shapeW ra rb) s fun t => t = s)
    ∧ (scalarRuns s = true → va.toNat % 16 ≠ 0 → Completes (.shapeW ra rb) s fun t => Raises s t 0x03 va (getUnit s).pc))

/-! ## Barriers (R334 to R336) -/

/-- R334: BAR.ARRIVE of a core in the barrier's mask notes the phase in the unit's register and counts the core once; the last core's
arrival sets the clock, 96 clocks later, at which BAR_PHASE_ADVANCE advances PHASE and forgets the arrivals; BAR.WAIT waits while PHASE
is the one arrived in, then clears the unit's arrival. A number above 7, a core outside the mask and a wait without an arrival raise
OPERAND. -/
def Obligations.RouteTagBarriers : Prop :=
  ∀ (s : State) (n : BitVec 4),
    let b := n.toNat
    let x := barOf s b
    let u := getUnit s
    let r := barReg u b
    let c := s.focus.core
    let next := u.pc + 4
    let arrived := c :: x.arrived
    let all := ∀ q ∈ x.quads, ∀ j, j < 4 → arrived.contains (4 * q + j) = true
    (Runs s → b < 8 → c / 4 ∈ x.quads → (partOf s u.part).barmask.getLsbD b = true → ¬(r.arr = true ∧ r.aph = x.phase) →
        (∀ a ∈ (curCore s).accs, a.uid ≠ u.uid) → Completes (.barArrive n) s fun t =>
          SameBytes s t ∧ getUnit t = { u with pc := next, wait := none, fore := [], bars := mapSet u.bars b { aph := x.phase, arr := true } }
          ∧ (x.arrived.contains c = true → barOf t b = x)
          ∧ (x.arrived.contains c = false →
              (barOf t b).phase = x.phase ∧ (barOf t b).arrived = arrived ∧ (barOf t b).quads = x.quads
              ∧ (all → (barOf t b).due = some (s.clk + 96)) ∧ (¬all → (barOf t b).due = x.due)))
    ∧ (scalarRuns s = true → 8 ≤ b ∨ ¬(c / 4 ∈ x.quads) → Completes (.barArrive n) s fun t => Raises s t 0x06 0 u.pc)
    ∧ (Runs s → b < 8 → r.arr = true → x.phase ≠ r.aph → Completes (.barWait n) s fun t =>
        Became s t (curCore s) { u with pc := next, wait := none, fore := [], bars := mapSet u.bars b { r with arr := false } })
    ∧ (scalarRuns s = true → b < 8 → r.arr = true → x.phase = r.aph → Completes (.barWait n) s fun t => Waits s t (.barWait n))
    ∧ (scalarRuns s = true → 8 ≤ b ∨ r.arr = false → Completes (.barWait n) s fun t => Raises s t 0x06 0 u.pc)
    ∧ (∀ due, x.due = some due → due ≤ s.clk → Completes (.barPhaseAdvance b) s fun t =>
        SameBytes s t ∧ t = { s with bars := t.bars } ∧ (∀ j, j ≠ b → barOf t j = barOf s j)
        ∧ (barOf t b).phase = x.phase + 1 ∧ (barOf t b).arrived = [] ∧ (barOf t b).due = none)

/-- R335, R336: BOB.ARRIVE adds one to ARRIVED and BOB.EXPECT takes rb from PENDING in the control word of a good barrier object;
where ARRIVED then reaches EXPECTED with PENDING zero, PHASE flips and EXPECTED is taken from ARRIVED. BOB.WAIT completes once PHASE
differs from ra[0] and waits until then. Only the control word's bytes change, and a word that takes no update raises OPERAND. -/
def Obligations.BarrierObjects : Prop :=
  ∀ (s u : State) (ra rb : BitVec 5) (pa : Nat) (leaf : Word),
    let a := regRead s ra
    let m := memNat s.mem pa 8
    let phase := m / 2 ^ 63
    let expected := m / 2 ^ 48 % 2 ^ 15
    let pending := m / 2 ^ 24 % 2 ^ 24
    let count := m % 65536
    let good := expected ≠ 0 ∧ m / 65536 % 256 = 0
    let next := (getUnit s).pc + 4
    let word (p c : Nat) : Nat := if expected ≤ c ∧ p = 0 then (1 - phase) * 2 ^ 63 + expected * 2 ^ 48 + (c - expected)
      else phase * 2 ^ 63 + expected * 2 ^ 48 + p * 2 ^ 24 + c
    let updates (i : Instr) (w : Nat) : Prop := Completes i s fun t =>
      SameBytesBut s t pa 8 ∧ memNat t.mem pa 8 = w ∧ getUnit t = { getUnit s with pc := next, wait := none, fore := [] }
    fenceHolds (curCore s) (getUnit s) 0 = false → walkHeld s a = false → walkHeld s (a &&& ~~~1#64) = false → homeOk u pa = true →
    poisoned s pa 16 = false → linesFor (curCore u) s.focus.slot 1 = true → leafMig leaf = false → s.migs = [] → (∀ y ∈ (curCore s).accs, y.uid ≠ (getUnit s).uid) →
    (a.toNat % 16 = 0 → translate s a .write = (.ok pa leaf, u) →
      (Runs s → good → count < 65535 → updates (.bobArrive ra) (word pending (count + 1)))
      ∧ (Runs s → good → 0 < (regRead s rb).toNat → (regRead s rb).toNat < 2 ^ 23 →
          updates (.bobExpect ra rb) (word ((pending + 2 ^ 24 - (regRead s rb).toNat) % 2 ^ 24) count))
      ∧ (scalarRuns s = true → ¬good → Completes (.bobArrive ra) s fun t => Raises s t 0x06 0 (getUnit s).pc))
    ∧ (∀ f, f < 2 → a.toNat % 16 = f → translate s (a &&& ~~~1#64) .write = (.ok pa leaf, u) → good → (getUnit s).wait = none →
      (Runs s → phase ≠ f → Completes (.bobWait ra) s fun t =>
        SameBytes s t ∧ getUnit t = { getUnit s with pc := next, wait := none, fore := [] })
      ∧ (scalarRuns s = true → phase = f → Completes (.bobWait ra) s fun t =>
        SameBytes s t ∧ getUnit t = { getUnit s with wait := some (.bobWait ra) }))

/-! ## Bonds and engine streams (R82 to R89, R172 to R179) -/

/-- R172 to R175, R301: FAB.BOND and FAB.BOND.NW with a record of KIND 0 that names sub-array 0 alone, on a core where no sub-array stands and
none is lent, form it from the record's rectangle for the unit, all weights zero, usable 12 clocks later, and answer the mask of
sub-arrays held, and every itinerary's lateness is to be worked out anew; a record with a reserved bit raises OPERAND. -/
def Obligations.BondsAreInstalled : Prop :=
  ∀ (s u : State) (rd ra : BitVec 5) (pa : Nat) (leaf : Word) (row h col w : Nat),
    let va := regRead s ra
    let r := recordBytes s pa 32
    let k := getUnit s
    va.toNat % 32 = 0 → translate s va .read = (.ok pa leaf, u) → poisoned s pa 32 = false → k.bond = [] →
    (∀ y ∈ (curCore s).accs, y.uid ≠ k.uid) → openFences (curCore s) k = [] → walkHeld s va = false → homeOk u pa = true →
    linesFor (curCore u) s.focus.slot 1 = true →
    ∀ i ∈ ([.fabBond rd ra, .fabBondNw rd ra] : List Instr),
      (Runs s → (curCore s).subs = [] → lentTo s s.focus.core = none → (∀ e ∈ (curCore s).tiles, e.2.acc = false) →
        row < 4 → h < 4 → col < 8 → w < 8 → row + h < 4 → col + w < 8 →
        r = [0, 1] ++ List.replicate 14 0 ++ leBytes 2 (32768 + row * 8192 + h * 2048 + col * 256 + w * 32) ++ List.replicate 14 0 →
        Completes i s fun t =>
          t = { marksChanged s with cores := t.cores } ∧ (∀ c, c ≠ s.focus.core → getCore t c = getCore s c)
          ∧ (∀ x, subOf (curCore t) x = if x = 0 then some (newSub k.uid s.focus.slot .loc row (h + 1) col (w + 1) (s.clk + 12)) else none)
          ∧ (∀ x, regRead t x = if x = 0 then 0 else if x = rd then 1 else regRead s x) ∧ (getUnit t).pc = k.pc + 4)
      ∧ (scalarRuns s = true → (fieldNat r 0 1 ≥ 4 ∨ fieldNat r 3 13 ≠ 0) → Completes i s fun t => Raises s t 0x06 0 k.pc)

/-- R178, R179: FAB.DRAIN of sub-arrays that are at rest completes, with its STOP bit their streams being stopped first; one of a
sub-array with words in flight or a replay under way waits, and a mask that names
a sub-array the unit does not hold raises OPERAND; FAB.QUERY of a free core reads every brick as free, and of an absent sub-array
zero. -/
def Obligations.BondsAreQueried : Prop :=
  ∀ (s : State) (rd ra : BitVec 5),
    let a := regRead s ra
    let k := curCore s
    let u := getUnit s
    let quiet (n : Nat) : Prop := (∀ b, subOf k n = some b → b.flights = [] ∧ b.replayTo ≤ s.clk) ∧ ∀ e ∈ k.upset, e.sub ≠ n
    (Runs s → 0 < a.toNat → a.toNat < 256 →
      (∀ n, n < 8 → a.getLsbD n = true → holds k u.uid n = true ∧ (matOf k n).mode = .idle ∧ quiet n) →
      Completes (.fabDrain ra) s fun t => Moved s t (u.pc + 4))
    ∧ (Runs s → 256 < a.toNat → a.toNat < 512 → u.group = 0 →
      (∀ n, n < 8 → a.getLsbD n = true → holds k u.uid n = true ∧ quiet n) →
      Completes (.fabDrain ra) s fun t =>
        OnlyCore s t s.focus.core ∧ getUnit t = { u with pc := u.pc + 4, wait := none, fore := [], pending := (getUnit t).pending }
        ∧ ∀ n, n < 8 → if a.getLsbD n = true then (matOf (curCore t) n).mode = .idle ∧ ∀ p ∈ (getUnit t).pending, p.stream ≠ n
            else matOf (curCore t) n = matOf k n)
    ∧ (scalarRuns s = true → 0 < a.toNat → a.toNat < 256 → (∀ n, n < 8 → a.getLsbD n = true → holds k u.uid n = true) →
      (∃ n b, n < 8 ∧ a.getLsbD n = true ∧ subOf k n = some b
        ∧ (b.flights ≠ [] ∨ s.clk < b.replayTo ∨ ∃ e ∈ k.upset, e.sub = n)) →
      Completes (.fabDrain ra) s fun t => Became s t k { u with wait := some (.fabDrain ra) })
    ∧ (scalarRuns s = true → a = 0 ∨ 512 ≤ a.toNat ∨ (∃ n, n < 8 ∧ a.getLsbD n = true ∧ holds k u.uid n = false) →
      Completes (.fabDrain ra) s fun t => Raises s t 0x06 0 u.pc)
    ∧ (Runs s → k.subs = [] → lentTo s s.focus.core = none → a = 0 ∨ a = 1 →
      Completes (.fabQuery rd ra) s fun t => Wrote s t rd (BitVec.allOnes 64) 1 (u.pc + 4))
    ∧ (∀ n, Runs s → n < 8 → subOf k n = none → a = BitVec.ofNat 64 (2 + 16 * n) →
      Completes (.fabQuery rd ra) s fun t => Wrote s t rd 0 1 (u.pc + 4))
    ∧ (scalarRuns s = true → a.toNat % 4 = 3 → Completes (.fabQuery rd ra) s fun t => Raises s t 0x06 0 u.pc)

/-- R82 to R87, R89, R144, R205: ENG.START of an idle stream of the unit sets it at its word with its counters and clears its fault:
FORKED outside a group, ARMED in one, and the vector stream of a group whose other streams are armed launches it, all BOUND. A unit
that takes the vector sequencer from another finds the operand file, the latch and VSHAPE at their initial values, and one that
another unit owns is waited for. ENG.BIND names a group of idle streams, the vector stream among them; that a second one before a launch
replaces the group is the model's choice (log 51); ENG.FORK of the group dissolves
it at once or, launched, at the next course boundary; ENG.STAT reads a stream. A selector or mask that is not the unit's raises OPERAND. -/
def Obligations.StreamsStart : Prop :=
  ∀ (s : State) (rd ra rb : BitVec 5),
    let a := regRead s ra
    let b := regRead s rb
    let k := curCore s
    let u := getUnit s
    let on := { u with pc := u.pc + 4, wait := none, fore := [] }
    let started (m : Strm) : Strm := { m with
      mode := .forked, pc := (b.extractLsb' 0 13).setWidth 14, lc0 := b.extractLsb' 16 16, lc1 := b.extractLsb' 32 16
      lc2 := b.extractLsb' 48 16, lc3 := 0, repn := 0, repcnt := 0, mod := none, rotb := 0, cause := 0, stampoff := 0
      issueAt := max m.issueAt (s.clk + 1), passed := false }
    let bound (m : Strm) : Strm := { m with mode := .bound, stampoff := 0, issueAt := max m.issueAt (s.clk + 1) }
    let idle8 := (strmOf k u.uid 8).mode = .idle ∧ b.extractLsb' 13 3 = 0
    let late := ∃ n, u.group.getLsbD n = true ∧ s.clk < (strmOf k u.uid n).issueAt
    (∀ n, Runs s → n < 8 → a = BitVec.ofNat 64 n → holds k u.uid n = true → (matOf k n).mode = .idle →
        b.extractLsb' 13 3 = 0 → (∀ x, subOf k n = some x → x.usable ≤ s.clk) →
        Completes (.engStart ra rb) s fun t => Became s t
          { k with mats := mapSet k.mats n { started (matOf k n) with mode := if u.group.getLsbD n = true then .armed else .forked } } on)
    ∧ (Runs s → a = 8 → k.vec.owner = some u.uid → idle8 → u.group = 0 →
        Completes (.engStart ra rb) s fun t =>
          Became s t { k with vec := { k.vec with released := false, strm := started k.vec.strm } } on)
    ∧ (Runs s → a = 8 → k.vec.owner ≠ some u.uid → vecOwner k = none → idle8 → u.group = 0 →
        Completes (.engStart ra rb) s fun t =>
          Became s t { k with
            vec := { Vec.reset with owner := some u.uid, nextId := k.vec.nextId, strm := started Strm.reset }
            vrows := (curCore t).vrows, badRows := (curCore t).badRows, rowLog := [] } on
          ∧ (∀ r, vrow (curCore t) r = if r < 2048 then vrow k r else 0)
          ∧ ∀ r, r ∈ (curCore t).badRows ↔ r ∈ k.badRows ∧ r < 2048)
    ∧ (Runs s → a = 8 → k.vec.owner = some u.uid → idle8 → u.group.getLsbD 8 = true →
        (∀ n, n < 8 → u.group.getLsbD n = true → (matOf k n).mode = .armed) →
        Completes (.engStart ra rb) s fun t =>
          Became s t { k with
            vec := { k.vec with released := false, strm := bound (started k.vec.strm) }, mats := (curCore t).mats } on
          ∧ ∀ n, n < 8 → matOf (curCore t) n = if u.group.getLsbD n = true then bound (matOf k n) else matOf k n)
    ∧ (∀ o, scalarRuns s = true → a = 8 → vecOwner k = some o → o ≠ u.uid → b.extractLsb' 13 3 = 0 →
        Completes (.engStart ra rb) s fun t => Waits s t (.engStart ra rb))
    ∧ (scalarRuns s = true → 8 < a.toNat ∨ (a.toNat < 8 ∧ holds k u.uid a.toNat = false) →
        (Completes (.engStart ra rb) s fun t => Raises s t 0x06 0 u.pc)
        ∧ (Completes (.engStat rd ra) s fun t => Raises s t 0x06 0 u.pc))
    ∧ (∀ n, Runs s → n < 8 → a = BitVec.ofNat 64 n → holds k u.uid n = true → ∃ w : Word,
        (Completes (.engStat rd ra) s fun t => Wrote s t rd w 1 (u.pc + 4))
        ∧ w.extractLsb' 0 3 = (match (matOf k n).mode with
            | .idle => 0 | .armed => 1 | .forked => 2 | .bound => 3 | .stopping => 4 | .faulted => 5)
        ∧ w.extractLsb' 32 13 = (matOf k n).pc.setWidth 13 ∧ w.extractLsb' 16 16 = (matOf k n).lc0
        ∧ w.extractLsb' 56 8 = (matOf k n).cause)
    ∧ (Runs s → a.toNat < 512 → a.getLsbD 8 = true → a ≠ 0x100 → launched k u = false → (strmOf k u.uid 8).mode = .idle →
        (∀ n, n < 8 → a.getLsbD n = true → holds k u.uid n = true ∧ (matOf k n).mode = .idle) →
        Completes (.engBind ra) s fun t => Became s t k { on with group := a.setWidth 9 })
    ∧ (Runs s → a.toNat < 512 → a ≠ 0 → u.group = a.setWidth 9 → (∀ n, n < 8 → a.getLsbD n = true → holds k u.uid n = true) →
        (launched k u = true → late → Completes (.engFork ra) s fun t => Became s t k { on with leaving := true })
        ∧ (launched k u = false ∨ ¬late → Completes (.engFork ra) s fun t =>
          OnlyCore s t s.focus.core ∧ getUnit t = { on with group := 0, leaving := false }
          ∧ ∀ n, n < 8 → a.getLsbD n = true → (matOf (curCore t) n).mode ≠ .armed ∧ (matOf (curCore t) n).mode ≠ .bound))
    ∧ (scalarRuns s = true → 512 ≤ a.toNat ∨ a = 0 → ∀ i ∈ ([.engBind ra, .engFork ra, .engStop ra] : List Instr),
        Completes i s fun t => Raises s t 0x06 0 u.pc)

/-- R82, R88: ENG.STOP takes streams out of issue: one with no word in flight is IDLE at once, one with words in flight is STOPPING; its
pending cause is withdrawn, the vector sequencer is released, and no other stream of the core changes. A launched group that the mask
covers ends; one that it covers in part raises OPERAND. -/
def Obligations.StreamsStop : Prop :=
  ∀ (s : State) (ra : BitVec 5),
    let a := regRead s ra
    let k := curCore s
    let u := getUnit s
    let both : BitVec 9 := u.group &&& a.setWidth 9
    let after (m : StreamMode) (n : Nat) : StreamMode := if m = .idle ∨ inFlight k n = false then .idle else .stopping
    0 < a.toNat → a.toNat < 512 → (∀ n, n < 8 → a.getLsbD n = true → holds k u.uid n = true) →
    (scalarRuns s = true → launched k u = true → both ≠ 0 → both ≠ u.group → Completes (.engStop ra) s fun t => Raises s t 0x06 0 u.pc)
    ∧ (Runs s → launched k u = false ∨ both = 0 ∨ both = u.group → Completes (.engStop ra) s fun t =>
      OnlyCore s t s.focus.core
      ∧ (∀ n, n < 8 → a.getLsbD n = true →
          (matOf (curCore t) n).mode = after (matOf k n).mode n ∧ ∀ p ∈ (getUnit t).pending, p.stream ≠ n)
      ∧ (∀ n, n < 8 → a.getLsbD n = false → matOf (curCore t) n = matOf k n)
      ∧ (a.getLsbD 8 = false ∨ vecOwner k ≠ some u.uid → (curCore t).vec = k.vec)
      ∧ (a.getLsbD 8 = true → vecOwner k = some u.uid →
          (curCore t).vec.released = true ∧ (curCore t).vec.strm.mode = after k.vec.strm.mode 8
          ∧ ∀ p ∈ (getUnit t).pending, p.stream ≠ 8)
      ∧ getUnit t = { u with
          pc := u.pc + 4, wait := none, fore := [], pending := (getUnit t).pending
          group := if launched k u = true ∧ both = u.group then 0 else u.group
          leaving := if launched k u = true ∧ both = u.group then false else u.leaving })
/-! ## Ports, records and the ends of commands (R276 to R288) -/

/-- R44, R277, R278, R279, R282, R283, R289: PORT.W stages a word. PORT.GO with four staged words and a good command puts the command, with the
layouts, pins and parameter block it has gathered, and the clock, behind the queue, clears the staging, counts the engine's sequence number on, and
gives rd its kind and number two clocks later; with a word missing it raises PORTSEQ with 16 times the engine and the words written,
and it waits for a full queue, room made by a start being seen from the next clock on. PORT.CUT takes the queued commands of TAG at
least TMIN out, clears HALTED on demand but where the error came in this very clock, and a command of CMODE 0 or 1 cut leaves a record
of CANCELLED and signals nothing. An engine above 4 and a reserved bit raise OPERAND; what PORT.GO reads and pins raises its own causes, or
holds the word. -/
def Obligations.PortsArePosted : Prop :=
  ∀ (s s1 : State) (rd ra : BitVec 5) (eng : BitVec 4) (word : BitVec 2) (ls : List Layout) (ps : List Pin) (block : List Byte),
    let e := eng.toNat
    let u := getUnit s
    let v := regRead s ra
    let p := portOf u e
    let q : Quad := { cw0 := p.cw0, cw1 := p.cw1, cw2 := p.cw2, cw3 := p.cw3 }
    let next := u.pc + 4
    let cut (c : Cmd) : Bool := v.toNat % 65536 ≤ qTag c.quad
    let room := p.queue.length < 16 ∧ flagRead s u e 3 = false ∧ (qMode q ≤ 1 → u.evq.length + u.evqRsv < 64)
    (e < 5 → Runs s → Completes (.portW ra eng word) s fun t =>
        Became s t (curCore s) { u with
          ports := mapSet u.ports e { p with
            cw0 := if word = 0 then v else p.cw0, cw1 := if word = 1 then v else p.cw1
            cw2 := if word = 2 then v else p.cw2, cw3 := if word = 3 then v else p.cw3
            written := p.written ||| (1#4 <<< word.toNat) }
          pc := next, wait := none, fore := [] })
    ∧ (5 ≤ e → scalarRuns s = true → ∀ i ∈ ([.portW ra eng word, .portGo rd eng, .portCut ra eng] : List Instr),
        Completes i s fun t => Raises s t 0x06 0 u.pc)
    ∧ (e < 5 → p.written ≠ 15 → scalarRuns s = true → Completes (.portGo rd eng) s fun t =>
        Raises s t 0x0B (BitVec.ofNat 64 (16 * e + p.written.toNat)) u.pc)
    ∧ (e < 5 → p.written = 15 → scalarRuns s = true → quadBad e q = true →
        Completes (.portGo rd eng) s fun t => Raises s t 0x06 0 u.pc)
    ∧ (e < 5 → p.written = 15 → quadBad e q = false → misaligned e q = none → fenceHolds (curCore s) u (qClass q) = false →
        journalOk s none = true →
        (∀ cause ev, room → scalarRuns s = true → gather s e q = .trap cause ev → cause ≠ 0x0D → cause ≠ 0x0E →
          Completes (.portGo rd eng) s fun t => Raises s t cause ev u.pc)
        ∧ (room → scalarRuns s = true → gather s e q = .held → Completes (.portGo rd eng) s fun t => t = s)
        ∧ (room → Runs s → gather s e q = .ok s1 (ls, ps, block) → pinsHeld s s.focus.core + ps.length ≤ 4096 →
          Completes (.portGo rd eng) s fun t =>
            SameBytes s t ∧ t.cmdSeq = s.cmdSeq + 1
            ∧ portOf (getUnit t) e = { p with
                written := 0
                queue := p.queue ++ [{ id := s.cmdSeq, eng := e, quad := q, core := s.focus.core, slot := s.focus.slot, uid := u.uid
                                       part := u.part, seq := nextSeq s s.focus.core e, layouts := ls, pins := ps, block := block
                                       pushed := (curCore s).accSeq, posted := s.clk }] }
            ∧ (∀ f, f ≠ e → portOf (getUnit t) f = portOf u f)
            ∧ (getUnit t).evqRsv = (if qMode q ≤ 1 then u.evqRsv + 1 else u.evqRsv) ∧ (getUnit t).evq = u.evq
            ∧ nextSeq t s.focus.core e = nextSeq s s.focus.core e + 1 ∧ (getUnit t).pc = next
            ∧ ∀ r, regRead t r = if r = 0 then 0 else if r = rd then
                BitVec.ofNat 64 (qKind e q * 2 ^ 24 + (nextSeq s s.focus.core e).toNat) else regRead s r)
        ∧ (¬room → scalarRuns s = true → Completes (.portGo rd eng) s fun t => Waits s t (.portGo rd eng)))
    ∧ (e < 5 → v.toNat < 2 ^ 17 → Runs s → Completes (.portCut ra eng) s fun t =>
        (portOf (getUnit t) e).queue = p.queue.filter (fun c => !cut c)
        ∧ ((portOf (getUnit t) e).halted = true ↔ p.halted = true ∧ (v.toNat < 2 ^ 16 ∨ (p.haltAt = s.clk ∧ s.clk ≠ 0)))
        ∧ (getUnit t).pc = next
        ∧ (∀ f, f ≠ e → portOf (getUnit t) f = portOf u f) ∧ (∀ r, regRead t r = regRead s r)
        ∧ ((∀ c ∈ p.queue, cut c = true → qMode c.quad ≠ 2) → SameBytes s t)
        ∧ ∀ c, p.queue.filter cut = [c] → c.core = s.focus.core → c.slot = s.focus.slot → c.uid = u.uid → qMode c.quad ≤ 1 →
            t.vfEv = s.vfEv ∧ (getUnit t).evq = enterRec (recordOf s c 0x13 0 0 0 true) u.evq ∧ (getUnit t).evl = true)
    ∧ (e < 5 → 2 ^ 17 ≤ v.toNat → scalarRuns s = true → Completes (.portCut ra eng) s fun t => Raises s t 0x06 0 u.pc)

/-- R281, R282, R284, R285, R286: a command ends once everything it does is performed. With CMODE 0 and 1 its record, the fields as
R284 gives them, enters its unit's event queue and the unit's latch is set; CMODE 1 also makes vector 0 of its virtual function
pending; with CMODE 3 a failure makes an ENGINE trap pending. A failure halts the port. No byte of memory changes. EVQ.POP takes the
head record out and gives rd its first eight bytes, all ones where there is none, and stores it where ra names an address, by four
eight-byte stores. -/
def Obligations.CommandsEnd : Prop :=
  ∀ (s : State),
    (∀ (k : Nat) (r : Run),
      let c := r.cmd
      let u := unitAt s c.core c.slot
      let bad := r.status ≠ 0 ∧ r.status ≠ 0x13
      nth s.cmds k = some r → r.more = [] → r.worked = true → r.lines = [] → cmdDeps s c.id = false → r.waits = none →
      (c.eng = 4 → ∀ w ∈ s.heldw, w.trace ≠ some c.part) → u.live = true → u.uid = c.uid → c.eng < 5 → qMode c.quad ≠ 2 →
      Completes (.commandEnd k) s fun t =>
        let v := unitAt t c.core c.slot
        SameBytes s t ∧ t.cmds = s.cmds.filter (fun x => x.cmd.id ≠ c.id)
        ∧ (∀ d i, d ≠ c.core ∨ i ≠ c.slot → unitAt t d i = unitAt s d i)
        ∧ v.regs = u.regs ∧ v.pc = u.pc ∧ v.mode = u.mode
        ∧ (portOf v c.eng).queue = (portOf u c.eng).queue
        ∧ ((portOf v c.eng).halted = true ↔ (portOf u c.eng).halted = true ∨ bad)
        ∧ (qMode c.quad ≤ 1 → v.evl = true ∧ v.evqRsv = u.evqRsv - 1 ∧ v.evq = enterRec
            { entered := s.clk, status := r.status, sub := r.sub, engine := BitVec.ofNat 8 c.eng
              flags := (if qMode c.quad = 1 then 1 else 0) + (if r.status = 0 then 0 else 2) + 4
              tagq := BitVec.ofNat 32 (qTag c.quad + c.slot % 4 * 65536)
              sig := BitVec.ofNat 32 (c.seq.toNat + qKind c.eng c.quad * 2 ^ 24), detail := BitVec.ofNat 32 r.detail
              tns := BitVec.ofNat 64 s.tb.tns, count := BitVec.ofNat 64 r.count } u.evq)
        ∧ (qMode c.quad = 1 → mapGet 0 t.vfEv c.part = mapGet 0 s.vfEv c.part ||| 1)
        ∧ (qMode c.quad ≠ 1 → t.vfEv = s.vfEv)
        ∧ (qMode c.quad = 3 → v.evq = u.evq ∧ (¬bad → v.pending = u.pending)
            ∧ (bad → v.pending = u.pending ++ [{ stream := 10, cause := 0x0C, eval := BitVec.ofNat 64 (c.eng * 2 ^ 24 + c.seq.toNat) }]
                ∧ (u.mode = .u → v.evl = true))))
    ∧ (∀ (rd ra : BitVec 5),
      let u := getUnit s
      let first (x : Rec) : Word := BitVec.ofNat 64
        (x.status.toNat + 2 ^ 8 * x.sub.toNat + 2 ^ 16 * x.engine.toNat + 2 ^ 24 * x.flags.toNat + 2 ^ 32 * x.tagq.toNat)
      Runs s →
      (u.evq = [] → Completes (.evqPop rd 0) s fun t => Wrote s t rd (BitVec.allOnes 64) 1 (u.pc + 4))
      ∧ ∀ x xs, u.evq = x :: xs →
        (Completes (.evqPop rd 0) s fun t =>
          SameBytes s t ∧ (getUnit t).evq = xs ∧ (curCore t).accs = (curCore s).accs ∧ (getUnit t).pc = u.pc + 4
          ∧ ∀ r, regRead t r = if r = 0 then 0 else if r = rd then first x else regRead s r)
        ∧ ∀ (s1 : State) (pa : Nat) (leaf : Word), ra ≠ 0 → (regRead s ra).toNat % 32 = 0 → fenceHolds (curCore s) u 0 = false →
          walkHeld s (regRead s ra) = false → translate s (regRead s ra) .write = (.ok pa leaf, s1) → homeOk s1 pa = true →
          Completes (.evqPop rd ra) s fun t =>
            SameBytes s t ∧ (getUnit t).evq = xs ∧ (getUnit t).pc = u.pc + 4
            ∧ (∀ r, regRead t r = if r = 0 then 0 else if r = rd then first x else regRead s r)
            ∧ ∃ as, (curCore t).accs = (curCore s).accs ++ as ∧ as.length = 4
                ∧ ∀ n a, nth as n = some a → a.uid = u.uid ∧ a.cls = 0 ∧ a.va = (regRead s ra).toNat + 8 * n ∧ a.pa = pa + 8 * n
                    ∧ a.n = 8 ∧ a.kind = .store (BitVec.ofNat 64 (fieldNat (recBytes x) (8 * n) 8)))

/-! ## The hod engine and TRC.MARK (R235, R244, R245, R290 to R294, R403, R404, R406) -/

/-- R244, R245, R276, R290, R291, R293, R294, R404, R406: where the head of a unit's queue may start, its engine takes it out and serves it. A
command that is refused at once ends with its status and no effect; one that must wait for its tile or a page waits started; one with lines
to read or write requests the first of its first element in a shared slot that it holds, the engine one in a clock, or asks for a slot. HOD.FILL of a tile makes the deposits that give every
element of its window the value, and no others, or of every weight its planes and head. HOD.IMLOAD past the instruction memory ends with
OPERAND. TRC.MARK sends its record to the trace writer, which places it at the end of the clock and leaves its index in COUNT. The instruction `i` is hodFillTile, hodFillMemory, hodCopyToTile,
hodCopyToMemory, hodCopyMemory, hodImload or trcMark, by `cmdInstr` of the command. -/
def Obligations.HodCommandsStart : Prop :=
  ∀ (s : State) (p : Poster) (c : Cmd) (cs : List Cmd) (row : CRow) (i : Instr),
    let q := c.quad
    let k := getCore s p.core
    let T := tileOf k (hodHandle q).toNat
    let b := fmtBits (tileFmt T)
    let rows := winRows q
    let cols := winCols q
    let w0 := wbits q.cw1 51 13
    let n := wbits q.cw1 38 13 + 1
    let need := if row = .imload then lineKeys false q.cw2.toNat (if wbits q.cw0 0 1 = 1 then 24 else 12)
      else needLines (hodDecodes k c row) c row 0
    let goes (e : Nat) (P : State → Run → Prop) : Prop := Completes i s fun t =>
      queueAt t p e = cs ∧ (∀ d j, d ≠ p.core ∨ j ≠ p.slot → unitAt t d j = unitAt s d j) ∧ ∃ r ∈ t.cmds, r.cmd = c ∧ P t r
    let only (t : State) (k' : Core) : Prop :=
      SameBytes s t ∧ getCore t p.core = { k' with units := (getCore t p.core).units, hodLast := p.slot, hodCur := some c.id }
    let still (r' : Run) (t : State) (r : Run) : Prop := only t k ∧ t.deps = s.deps ∧ r = r'
    let requests (l : Nat × Bool) (t : State) (r : Run) : Prop :=
      only t { k with
        grantLast := 6, asks := k.asks.filter (· != 6), asked := k.asked.filter (· != 6), hodReq := s.clk + 1, hodLines := k.hodLines + 1
        journal := (getCore t p.core).journal }
      ∧ t.deps = s.deps ∧ r = { runOf c with opened := [l], slots := 1 }
    let wants (t : State) (r : Run) : Prop :=
      only t { k with asks := if k.asks.contains 6 then k.asks else 6 :: k.asks } ∧ t.deps = s.deps ∧ r = runOf c
    let asksOrWaits : Prop := ∀ l more, need = l :: more →
      let pkg := homePkg (((pinPa c.pins (64 * l.1)).map (·.1)).getD 0)
      let may := k.hodReq ≤ s.clk ∧ egressOk k c.part pkg = true ∧ reachable s pkg = true
      (¬may → goes 0 (still (runOf c))) ∧ (may → sharedFor k 6 1 = true → goes 0 (requests l)) ∧ (may → sharedFor k 6 1 = false → goes 0 wants)
    let made (t : State) (r : Run) (ds : List Deposit) (count : Nat) : Prop :=
      only t k ∧ t.deps = s.deps ++ ds ∧ r = { runOf c with worked := true, count := count }
      ∧ ∀ d ∈ ds, d.core = p.core ∧ d.handle = hodHandle q ∧ d.gen = hodGen q ∧ d.kind = .write ∧ d.src = .cmd c.id
    p.slot < 4 → c.core = p.core → c.slot = p.slot → queueAt s p c.eng = c :: cs → cmdRow c = row → cmdInstr c = some i →
    (portOf (posterUnit s p) c.eng).halted = false → stalled s c.uid c.eng = false → pushDone s c = true →
    (c.eng = 0 → hodMay s c = true →
      (∀ status, row ≠ .imload → hodReject k c row = some status → goes 0 (still { runOf c with worked := true, status := status }))
      ∧ (rowSrc row = true ∨ rowDst row = true → hodReject k c row = none →
        (hodWaits s (runOf c) row = true → goes 0 (still (runOf c))) ∧ (hodWaits s (runOf c) row = false → asksOrWaits))
      ∧ (row = .fillTile → hodReject k c row = none → hodWaits s (runOf c) row = false →
        (T.pl = 0 → goes 0 fun t r => ∃ ds, made t r ds (ceilDiv (rows * cols * b) 8)
          ∧ (∀ d ∈ ds, ∀ n, d.mask.getLsbD n = true → ∃ r j, r < rows ∧ j < cols
              ∧ 32 * d.word + n = 8 * ((winTr0 q + r) * pitch T) + j * b + n % b)
          ∧ ∀ r j, r < rows → j < cols → ∃ d ∈ ds, d.word = (winTr0 q + r) * pitch T / 4 + j * b / 32
              ∧ d.data.toNat / 2 ^ (j * b % 32) % 2 ^ b = qArg q % 2 ^ b ∧ d.mask.toNat / 2 ^ (j * b % 32) % 2 ^ b = 2 ^ b - 1)
        ∧ (T.pl ≠ 0 → recode (tileFmt T) (tileFmt T) (qArg q) = none →
            goes 0 (still { runOf c with worked := true, status := 0x06 }))
        ∧ ∀ cell, T.pl ≠ 0 → recode (tileFmt T) (tileFmt T) (qArg q) = some cell → goes 0 fun t r =>
            ∃ ds, made t r ds (tileSize T) ∧ ∀ w, w < tileSize T / 4 → ∃ d ∈ ds, d.word = w ∧ d.mask = BitVec.allOnes 32
              ∧ ∀ j, j < 4 → d.data.toNat / 256 ^ j % 256 =
                  planeByte (tileFmt T) T.pl.toNat (tileRows T) (tileCols T) (fun _ _ => cell) (4 * w + j) % 256)
      ∧ (row = .imload → 8192 < w0 + n → goes 0 (still { runOf c with worked := true, status := 0x06 }))
      ∧ (row = .imload → w0 + n ≤ 8192 → asksOrWaits))
    ∧ (c.eng = 4 → row = .mark →
        let bytes := [2, BitVec.ofNat 8 q.cw0.toNat] ++ leBytes 2 (c.core + c.slot * 512) ++ leBytes 2 (qTag q) ++ [0, 0]
          ++ leBytes 8 q.cw1.toNat ++ leBytes 8 s.tb.tns ++ leBytes 8 s.clk
        let x : TraceIn := { part := c.part, eng := 4, core := c.core, bytes := bytes, cmd := some c.id }
        (goes 4 fun t r => SameBytes s t ∧ r = runOf c ∧ t.traceq = s.traceq ++ [x])
        ∧ ∀ (v u : State) (n : Option Nat) (r : Run), v.traceq = [x] → placeTrace { v with traceq := [] } c.part x.bytes = (u, n) →
            runById u c.id = some r →
            runById (flushTrace v) c.id = some { r with worked := true, count := n.getD (2 ^ 64 - 1) } ∧ SameBytes u (flushTrace v))

/-- R235, R244, R245, R249, R263, R290, R292 to R294: a turn of a started hod command. One that the engine does not serve does nothing, and
one that it goes back to is served from then on. While a line of its next element has not been requested it requests the next in a shared
slot, the engine one in a clock, or asks for a slot; then it gives those slots back and works that element and no other. HOD.COPY to a tile of elements
reads it, or PAD where the layout has none, and deposits its word with the word's last element; to a digit-plane tile it decodes one
weight, deposits all planes and heads with the last, and ends where one cannot be decoded, the tile as it was. A command that
writes memory gives the element's bits its value and changes no other bit, or nothing where the layout has none. HOD.IMLOAD writes one
instruction word, and ends at one whose bytes are uncorrectable. -/
def Obligations.HodElementsMove : Prop :=
  ∀ (s : State) (n : Nat) (r : Run) (row : CRow) (l : Layout) (ls : List Layout),
    let c := r.cmd
    let q := c.quad
    let k := getCore s c.core
    let T := tileOf k (hodHandle q).toNat
    let b := fmtBits (tileFmt T)
    let i := r.pos
    let cols := winCols q
    let x := i / cols
    let y := i % cols
    let last : Bool := decide (i + 1 = winRows q * cols)
    let m := wbits q.cw0 0 1
    let w0 := wbits q.cw1 51 13
    let wn := wbits q.cw1 38 13 + 1
    let wb := if m = 1 then 24 else 12
    let va := q.cw2.toNat + i * wb
    let need := if row = .imload then lineKeys false va wb else needLines (hodDecodes k c row) c row i
    let missing := need.filter (fun j => !r.opened.contains j)
    let ran (t : State) (r' : Run) : Prop := t.cmds = s.cmds.map (fun z => if z.cmd.id = c.id then r' else z)
    let does (P : State → Run → Prop) : Prop := Completes (.commandEnd n) s fun t =>
      (∀ d j, unitAt t d j = unitAt s d j) ∧ ∃ r', ran t r' ∧ P t r'
    let only (t : State) (k' : Core) : Prop := (∀ d, d ≠ c.core → getCore t d = getCore s d) ∧ getCore t c.core = k'
    let freed := { k with hodLines := k.hodLines - r.slots }
    let sameCores (t : State) : Prop :=
      t = { s with cores := t.cores, cmds := t.cmds, deps := t.deps, mem := t.mem, poison := t.poison } ∧ only t freed
    let elem (l : Layout) : Option Int := (index2 l (winO0 q + (y : Nat)) (winO1 q + (x : Nat))).bind (elemAt l)
    let deposit (d : Deposit) : Prop := d.core = c.core ∧ d.handle = hodHandle q ∧ d.gen = hodGen q ∧ d.kind = .write ∧ d.src = .cmd c.id
    let writes (l : Layout) (value pad : Nat) : Prop :=
      let w := l.bits
      let next (miss : Nat) (r' : Run) : Prop := r'.pos = i + 1 ∧ r'.status = r.status ∧ r'.worked = last ∧ r'.lines = r.lines ∧ r'.detail = r.detail + miss + pad
      r.out = [] → s.migs = [] → (∀ f g a u v, pinPa c.pins f = some (a, u) → pinPa c.pins g = some (a, v) → f = g) →
      (elem l = none → r.lines = [] → does fun t r' => SameBytes s t ∧ sameCores t ∧ t.deps = s.deps ∧ next 1 r')
      ∧ ∀ bit, elem l = some bit → r.lines = [] → 0 ≤ bit →
        (∀ j, j < w → ∃ pa leaf, pinPa c.pins ((bit.toNat + j) / 8) = some (pa, leaf) ∧ inletChan pa = none) →
        does fun t r' => sameCores t ∧ t.deps = s.deps ∧ next 0 r' ∧ (pinBits t c.pins bit.toNat w).1 = value % 2 ^ w
          ∧ ∀ a z, z < 8 → (∀ j leaf, j < w → z = (bit.toNat + j) % 8 → pinPa c.pins ((bit.toNat + j) / 8) ≠ some (a, leaf)) →
              (memByte t.mem a).getLsbD z = (memByte s.mem a).getLsbD z
    nth s.cmds n = some r → r.more = [] → r.worked = false → c.eng = 0 → cmdRow c = row → s.poison = [] ∨ row = .imload → k.spoil = [] →
    (row = .imload ∧ w0 + wn ≤ 8192)
      ∨ (c.layouts = l :: ls ∧ i < winRows q * cols ∧ (rowSrc row = true ∨ rowDst row = true) ∧ (i ≠ 0 ∨ hodReject k c row = none) ∧ hodWaits s r row = false) →
    (hodTurn s r = false → Completes (.commandEnd n) s fun t => t = s)
    ∧ (hodTurn s r = true → hodServed s c.core = none → exec (.commandEnd n) s =
        exec (.commandEnd n) (setCore s c.core { k with hodLast := c.slot, hodCur := some c.id }))
    ∧ (hodTurn s r = true → (hodServed s c.core).isSome = true →
    (∀ l, missing.head? = some l →
      let pkg := homePkg (((pinPa c.pins (64 * l.1)).map (·.1)).getD 0)
      let may := k.hodReq ≤ s.clk ∧ egressOk k c.part pkg = true ∧ reachable s pkg = true
      (¬may → Completes (.commandEnd n) s fun t => t = s)
      ∧ (may → sharedFor k 6 1 = true → does fun t r' =>
        t = { s with cores := t.cores, cmds := t.cmds }
        ∧ only t { k with
          grantLast := 6, asks := k.asks.filter (· != 6), asked := k.asked.filter (· != 6), hodReq := s.clk + 1, hodLines := k.hodLines + 1
          journal := (getCore t c.core).journal }
        ∧ r' = { r with opened := r.opened.filter (need.contains ·) ++ [l], slots := r.slots + 1 })
      ∧ (may → sharedFor k 6 1 = false → Completes (.commandEnd n) s fun t =>
        t = { s with cores := t.cores } ∧ only t { k with asks := if k.asks.contains 6 then k.asks else 6 :: k.asks }))
    ∧ (missing = [] →
      (row = .copyToTile → T.pl = 0 → r.status = 0 → r.got.length = y % (32 / b) →
        let per := 32 / b
        let v := match elem l with
          | some bit => (pinBits s c.pins bit.toNat b).1
          | none => l.pad.toNat
        let ends := y % per + 1 = per ∨ y + 1 = cols
        does fun t r' => SameBytes s t ∧ sameCores t ∧ r'.pos = i + 1 ∧ r'.status = 0 ∧ r'.worked = last
          ∧ r'.detail = r.detail + (if elem l = none then 1 else 0)
          ∧ (¬ends → t.deps = s.deps ∧ r'.got = r.got ++ [(v, 0, false)])
          ∧ (ends → r'.got = [] ∧ ∃ d, t.deps = s.deps ++ [d] ∧ deposit d ∧ d.word = (winTr0 q + x) * pitch T / 4 + y / per
              ∧ ∀ j, j < per →
                d.mask.toNat / 2 ^ (b * j) % 2 ^ b = (if y / per * per + j < cols then 2 ^ b - 1 else 0)
                ∧ (j = y % per → d.data.toNat / 2 ^ (b * j) % 2 ^ b = v % 2 ^ b)
                ∧ ∀ g, j < y % per → nth r.got j = some g → d.data.toNat / 2 ^ (b * j) % 2 ^ b = g.1 % 2 ^ b))
      ∧ (row = .copyToTile → T.pl ≠ 0 →
        let w := readWeight s c.pins l (tileFmt T) T.pl.toNat (winO0 q) (winO1 q) id x y
        (∀ cause, w = .stop cause → cause ≠ 0x0E → does fun t r' => SameBytes s t ∧ sameCores t ∧ t.deps = s.deps
          ∧ r' = { r with slots := 0, worked := true, status := cause, detail := i, got := [] })
        ∧ ∀ planes head padded, w = .cell planes head padded →
          let got := r.got ++ [(planes, head, false)]
          let miss := if r.status = 0 ∧ padded = true ∧ (l.image = true → x % 32 = 0 ∧ y % 32 = 0) then 1 else 0
          (i + 1 < winRows q * cols → does fun t r' => SameBytes s t ∧ sameCores t ∧ t.deps = s.deps
            ∧ r' = { r with slots := 0, pos := i + 1, got := got, detail := r.detail + miss })
          ∧ (last = true → does fun t r' => SameBytes s t ∧ sameCores t
            ∧ r' = { r with slots := 0, pos := i + 1, got := [], worked := true, detail := r.detail + miss, count := tileSize T }
            ∧ ∃ ds, t.deps = s.deps ++ ds ∧ ds.length = tileSize T / 4 ∧ ∀ j d, nth ds j = some d →
                deposit d ∧ nth (tilePlanes T (got.map (fun z => (z.1, z.2.1)))) j = some (d.word, d.data, d.mask)))
      ∧ (row = .fillMemory → writes l (qArg q) 0)
      ∧ (row = .copyToMemory → writes l (tileElem k T (winTr0 q + x) y) 0)
      ∧ (∀ l' more, row = .copyMemory → ls = l' :: more → match elem l with
          | some bit => writes l' (pinBits s c.pins bit.toNat l.bits).1 0
          | none => writes l' l.pad.toNat 1)
      ∧ (row = .imload →
        let bytes := pinBytes s c.pins va wb
        (bytes.2 = true → does fun t r' => SameBytes s t ∧ sameCores t ∧ t.deps = s.deps
          ∧ r' = { r with slots := 0, worked := true, status := 0x0E, detail := i, count := i * wb })
        ∧ (bytes.2 = false → does fun t r' => SameBytes s t ∧ t = { s with cores := t.cores, cmds := t.cmds }
          ∧ (getCore t c.core).badWords = k.badWords.filter (· != 8192 * m + (w0 + i)) ∧ r'.pos = i + 1 ∧ r'.status = r.status ∧ r'.worked = decide (i + 1 = wn) ∧ (i + 1 = wn → r'.count = wn * wb)
          ∧ ∀ j,
            (m = 0 → (getCore t c.core).imemM = k.imemM ∧ mapGet 0 (getCore t c.core).imemV j =
              if j = w0 + i then BitVec.ofNat 96 (leNat bytes.1) else mapGet 0 k.imemV j)
            ∧ (m = 1 → (getCore t c.core).imemV = k.imemV ∧ mapGet 0 (getCore t c.core).imemM j =
              if j = w0 + i then BitVec.ofNat 192 (leNat bytes.1) else mapGet 0 k.imemM j)))))
/-! ## The request gatherer (R328 to R333) -/

/-- R328, R329, R331 to R333, R393: a write to an inlet through a function whose partition owns the channel is refused and counted by a channel
that takes none, waits while 64 requests are in it, and is taken with its arrival time otherwise; through another function it is discarded; BATCH_OPEN opens a batch for the request at the head once the TCB of its place is
free; a request taken into a batch lies in its buffer with its own bytes 0 to 55 and its arrival time; BATCH_DEADLINE closes a batch
whose deadline has come: its record and its copy of the template are written, and that is armed, which alone waits for room. GAT.OPEN opens a channel from its record,
GAT.CLOSE discards what the channel holds; with FLUSH one that holds requests refuses later writes and goes on to gather them, its open batch
closes with CAUSE 2 once the inlet is empty, and with nothing left it closes and COUNT is its BSEQ; a channel the partition does not own
ends each with WINDOW. Their instruction `i` is gatOpen, gatClose or gatCloseFlush, by `cmdInstr` of the command. -/
def Obligations.RequestsAreGathered : Prop :=
  ∀ (s : State) (fn n : Nat) (line : BitVec 512),
    let ch := chanOf s n
    let j := ch.bseq % ch.nbuf
    let only (t : State) (x : Chan) : Prop :=
      t = { s with chans := t.chans } ∧ chanOf t n = x ∧ ∀ m, m ≠ n → chanOf t m = chanOf s m
    let stored (t : State) (m : Nat) (l : BitVec 512) (tns pa : Nat) (leaf : Word) : Prop :=
      s.migs = [] → s.heldw = [] → s.slow = false → (∀ i, i < 64 → pinPa ch.pins (ch.buf + 64 * ((ch.bm1 + 1) * j + m) + i) = some (pa + i, leaf)) →
      memNat t.mem pa 56 = l.toNat % 2 ^ 448 ∧ memNat t.mem (pa + 56) 8 = tns % 2 ^ 64 ∧ SameBytesBut s t pa 64
    let free : Prop := (pinByte s ch.pins (ch.tcba + 128 * j + 120)).1.toNat ∈ [0, 4, 6, 7]
    let mine : Prop := n < 16 ∧ ∃ pt, mapFind s.parts fn = some pt ∧ pt.gatmask.getLsbD n = true
    (mine → ch.batch = none →
      (ch.opened = false ∨ ch.halted.isSome = true ∨ ch.closing.isSome = true →
        Completes (.requestArrival { fn := fn, chan := n } line) s fun t => only t { ch with drops := ch.drops + 1 })
      ∧ (ch.opened = true → ch.halted = none → ch.closing = none → ch.inlet.length < 64 →
        Completes (.requestArrival { fn := fn, chan := n } line) s fun t => only t { ch with inlet := ch.inlet ++ [(line, s.tb.tns)] }))
    ∧ (ch.opened = true → ch.halted = none → ch.closing = none → 64 ≤ ch.inlet.length →
        Completes (.requestArrival { fn := fn, chan := n } line) s fun t => t = s)
    ∧ (¬mine → Completes (.requestArrival { fn := fn, chan := n } line) s fun t => t = s)
    ∧ (∀ m tfirst pa leaf, mine → ch.opened = true → ch.halted = none → ch.closing = none → ch.owes = none → ch.inlet = [] →
        ch.batch = some (m, tfirst) → m < ch.bm1 → Completes (.requestArrival { fn := fn, chan := n } line) s fun t =>
          chanOf t n = { ch with batch := some (m + 1, tfirst) } ∧ stored t m line s.tb.tns pa leaf)
    ∧ (∀ l tns pa leaf, ch.opened = true → ch.halted = none → ch.batch = none → ch.owes = none → ch.inlet = [(l, tns)] → 0 < ch.bm1 →
        (free → Completes (.batchOpen n) s fun t =>
          chanOf t n = { ch with inlet := [], batch := some (1, tns) } ∧ stored t 0 l tns pa leaf)
        ∧ (¬free → Completes (.batchOpen n) s fun t => t = s))
    ∧ (∀ m tfirst rpa tpa l1 l2 x,
        let recVa := ch.breca + 64 * j
        let tcbVa := ch.tcba + 128 * j
        let y := x.take 8 ++ leBytes 8 recVa ++ x.drop 16
        let record (cause : Byte) (t : State) : Prop := memBytes t.mem rpa 64 = leBytes 8 ch.bseq ++ leBytes 2 m ++ [cause, BitVec.ofNat 8 n] ++ leBytes 4 ch.drops
          ++ leBytes 8 tfirst ++ leBytes 8 s.tb.tns ++ leBytes 8 (ch.buf + 64 * ((ch.bm1 + 1) * j)) ++ leBytes 8 tcbVa ++ List.replicate 16 0
        let rest (t : State) : Prop := ∀ a, a < rpa ∨ rpa + 64 ≤ a → a < tpa ∨ tpa + 128 ≤ a → memByte t.mem a = memByte s.mem a
        let armed (t : State) : Prop :=
          memBytes t.mem tpa 120 = y.take 120 ∧ memByte t.mem (tpa + 120) = (if fieldNat y 36 2 = 0 then 2 else 1)
          ∧ ∃ k, taskOf t (s.taskSeq + 1) = some k ∧ k.va = tcbVa ∧ k.body = y.take 120 ∧ k.part = ch.part
        let closes (i : Instr) (cause : Byte) : Prop :=
          (armRoom s ch.part = true → Completes i s fun t =>
            chanOf t n = { ch with bseq := ch.bseq + 1, batch := none, owes := none, drops := 0 } ∧ record cause t ∧ armed t ∧ rest t)
          ∧ (armRoom s ch.part = false → Completes i s fun t =>
            chanOf t n = { ch with owes := some y, drops := 0 } ∧ record cause t ∧ memBytes t.mem tpa 128 = y ∧ rest t ∧ t.tasks = s.tasks)
        ch.batch = some (m, tfirst) → ch.owes = none → ch.halted = none →
        (ch.deadline = 0 ∨ s.tb.tns < tfirst + ch.deadline → Completes (.batchDeadline n) s fun t => t = s)
        ∧ (s.migs = [] → s.heldw = [] → s.slow = false →
          (∀ i, i < 64 → pinPa ch.pins (recVa + i) = some (rpa + i, l1)) →
          (∀ i, i < 128 → pinPa ch.pins (tcbVa + i) = some (tpa + i, l2)) → rpa + 64 ≤ tpa ∨ tpa + 128 ≤ rpa →
          (∀ i, i < 128 → ∃ q l, pinPa ch.pins (ch.tpl + i) = some (q, l) ∧ (q < rpa ∨ rpa + 64 ≤ q)) →
          pinBytes s ch.pins ch.tpl 128 = (x, false) → armFault s ch y tpa = none → neverSupplied (tcbBond y) = false →
          (∀ d ∈ tcbNodes y, (nodeOf s d).cxl = false) →
          (ch.deadline ≠ 0 → tfirst + ch.deadline ≤ s.tb.tns → closes (.batchDeadline n) 1)
          ∧ ∀ z r, nth s.cmds z = some r → r.more = [] → r.worked = false → r.cmd.eng = 3 → r.cmd.quad.cw0.toNat % 16 = n → ch.inlet = [] →
              closes (.commandEnd z) 2))
    ∧ (∀ z r, nth s.cmds z = some r → r.more = [] → r.worked = false → r.cmd.eng = 3 → r.cmd.quad.cw0.toNat % 16 = n → ch.owes = none →
        ch.halted = none → (ch.inlet ≠ [] → Completes (.commandEnd z) s fun t => t = s)
        ∧ (ch.inlet = [] → ch.batch = none → Completes (.commandEnd z) s fun t =>
          chanOf t n = { Chan.reset with drops := ch.drops } ∧ (∀ m, m ≠ n → chanOf t m = chanOf s m)
          ∧ t = { s with chans := t.chans, cmds := s.cmds.map (fun x => if x.cmd.id = r.cmd.id then { r with worked := true, count := ch.bseq } else x) }))
    ∧ (∀ y tpa leaf,
        let tcbVa := ch.tcba + 128 * j
        ch.owes = some y → ch.halted = none → pinPa ch.pins tcbVa = some (tpa, leaf) →
        (armRoom s ch.part = false ∨ heldIn s ch.pins = true → Completes (.batchDeadline n) s fun t => t = s)
        ∧ (armRoom s ch.part = true → heldIn s ch.pins = false → onMigrating s (tpa + 120) = false → neverSupplied (tcbBond y) = false →
          (∀ d ∈ tcbNodes y, (nodeOf s d).cxl = false) → Completes (.batchDeadline n) s fun t =>
            chanOf t n = { ch with bseq := ch.bseq + 1, batch := none, owes := none } ∧ SameBytesBut s t (tpa + 120) 8
            ∧ ∃ k, taskOf t (s.taskSeq + 1) = some k ∧ k.va = tcbVa ∧ k.pa = tpa ∧ k.body = y.take 120 ∧ k.part = ch.part))
    ∧ (∀ (p : Poster) (c : Cmd) (cs : List Cmd) (row : CRow) (i : Instr),
        let starts (P : State → Run → Prop) : Prop := Completes i s fun t =>
          SameBytes s t ∧ queueAt t p 3 = cs ∧ (∀ m, m ≠ n → chanOf t m = chanOf s m) ∧ ∃ r ∈ t.cmds, r.cmd = c ∧ P t r
        let goes (P : State → Run → Prop) : Prop := starts fun t r => r.worked = true ∧ P t r
        let held := ((ch.batch.map (·.1)).getD 0) + ch.inlet.length
        let owned := (partOf s c.part).gatmask.getLsbD n
        p.slot < 4 → c.core = p.core → c.slot = p.slot → c.eng = 3 → queueAt s p 3 = c :: cs → cmdRow c = row → cmdInstr c = some i →
        (portOf (posterUnit s p) 3).halted = false → stalled s c.uid 3 = false → pushDone s c = true → gatMay s c = true → c.quad.cw0.toNat % 16 = n →
        (owned = false → goes fun t r => chanOf t n = ch ∧ r.status = 0x05)
        ∧ (owned = true → row = .gatOpen → ∀ x tx pins, pinBytes s c.pins c.quad.cw1.toNat 64 = (x, false) → chanBad x = false →
          chanPins s c.part x = .inl pins → pinBytes s pins (fieldNat x 16 8) 128 = (tx, false) →
          tcbBad (partOf s c.part) tx = false → tcbPrio tx ≠ 7 → tcbForeign (partOf s c.part) tx = false →
          (ch.opened = true → goes fun t r => chanOf t n = ch ∧ r.status = 0x06)
          ∧ (ch.opened = false → goes fun t r => r.status = 0 ∧ r.detail = n ∧ chanOf t n =
              { opened := true, halted := none, part := c.part, buf := fieldNat x 0 8, breca := fieldNat x 8 8, tpl := fieldNat x 16 8
                tcba := fieldNat x 24 8, deadline := fieldNat x 32 4, bm1 := fieldNat x 36 2, nbuf := fieldNat x 38 1, pins := pins
                inlet := [], bseq := 0, batch := none, owes := none, drops := ch.drops, closing := none }))
        ∧ (owned = true → row = .gatClose ∨ row = .gatFlush → ch.opened = false → goes fun t r => chanOf t n = ch ∧ r.status = 0x06)
        ∧ (owned = true → ch.opened = true → row = .gatFlush → ch.halted = none → ch.inlet ≠ [] →
          starts fun t r => chanOf t n = { ch with closing := some ch.inlet.length } ∧ r = runOf c)
        ∧ (owned = true → ch.opened = true →
            row = .gatClose ∨ (row = .gatFlush ∧ (ch.halted.isSome = true ∨ (ch.inlet = [] ∧ ch.batch = none))) →
          goes fun t r => (chanOf t n).opened = false ∧ (chanOf t n).inlet = [] ∧ (chanOf t n).batch = none ∧ (chanOf t n).pins = []
            ∧ (chanOf t n).drops = ch.drops ∧ r.count = ch.bseq ∧ r.detail = held
            ∧ r.status = (if row = .gatFlush then ch.halted.getD 0 else 0)))

/-! ## Tasks (R312 to R323) -/

/-- R316, R319, R321, R322, R323: TSK.ARM of a good TCB makes its task WAIT or READY by its DEPCNT, writes its tail and counts LIVE of
its nodes; each thing wrong with it raises the cause R316 gives, and it waits for room; that an address outside the partition's windows, nodes
or slots stands in EVAL, and zero for HL.CANCEL and HL.READ, is the model's reading (log 49), and that a TCB the scheduler holds armed raises
OPERAND whatever its STATE byte has become is its choice (log 62). TSK.SIG, whichever of its two names it bears,
sends a decrement or sets the latch of a running task's unit; TSK.RETRY makes a HELD task READY; HL.CANCEL cancels a node and what
waits under it, or resets a node without live tasks, whichever name it bears; HL.READ reads a node's field. -/
def Obligations.TaskWords : Prop :=
  ∀ (s s1 : State) (rd ra rb : BitVec 5) (pa : Nat) (leaf : Word),
    let a := regRead s ra
    let b := regRead s rb
    let u := getUnit s
    let k := curCore s
    let pt := partOf s u.part
    let on := { u with pc := u.pc + 4, wait := none, fore := [] }
    let x := recordBytes s pa 128
    let moved (t : State) : Prop := Became s t (curCore s1) on
    let unitMoved (t : State) : Prop := (∀ d i, d ≠ s.focus.core ∨ i ≠ s.focus.slot → unitAt t d i = unitAt s d i) ∧ getUnit t = on
    let traps (i : Instr) (cause : BitVec 8) (eval : Word) : Prop := Completes i s fun t => Raises s t cause eval u.pc
    (scalarRuns s = true →
      (a.toNat % 128 ≠ 0 → traps (.tskArm ra) 0x03 a ∧ traps (.tskRetry ra) 0x03 a)
      ∧ (a.toNat % 128 = 0 → walkHeld s a = false → translate s a .write = (.ok pa leaf, s1) → homeOk s1 pa = true →
        fenceHolds (curCore s1) u 0 = false → readBlocked (curCore s1) u 0 pa 128 = false → migratingAt s leaf pa = false →
        onMigrating s (pa + 120) = false → poisoned s pa 128 = false →
        (linesFor (curCore s1) s.focus.slot 2 = false → Completes (.tskArm ra) s fun t => AsksForSlot s t)
        ∧ (linesFor (curCore s1) s.focus.slot 2 = true →
        (tcbBad pt x = true ∨ (armedAt s pa).isSome = true → traps (.tskArm ra) 0x06 0)
        ∧ (tcbBad pt x = false → armedAt s pa = none →
          (tcbPrio x = 7 → u.mode = .u → traps (.tskArm ra) 0x02 0)
          ∧ (tcbPrio x ≠ 7 ∨ u.mode = .s →
            (tcbForeign pt x = true → traps (.tskArm ra) 0x05 a)
            ∧ (tcbForeign pt x = false →
              (armRoom s u.part = false → Completes (.tskArm ra) s fun t => Waits s t (.tskArm ra))
              ∧ (armRoom s u.part = true → (∀ d ∈ tcbNodes x, (nodeOf s d).cxl = false) → neverSupplied (tcbBond x) = false → Runs s →
                Completes (.tskArm ra) s fun t =>
                  unitMoved t ∧ t.armCtr = s.armCtr + 1 ∧ SameBytesBut s t (pa + 120) 8
                  ∧ memBytes t.mem (pa + 120) 8 = [if fieldNat x 36 2 = 0 then 2 else 1, 0, 0, 0] ++ leBytes 4 s.armCtr.toNat
                  ∧ (∀ d ∈ tcbNodes x, nodeOf t d = { nodeOf s d with live := (nodeOf s d).live + 1 })
                  ∧ taskOf t (s.taskSeq + 1) = some
                      { part := u.part, va := a.toNat, pa := pa, leaf := leaf, body := x.take 120, depcnt := fieldNat x 36 2
                        state := if fieldNat x 36 2 = 0 then .ready else .wait, status := 0, retries := 0, dupdec := false
                        aseq := s.armCtr.toNat, readyAt := s.tb.tns, headAt := none, blocking := false, vpage := (pageSpan s1 a.toNat).1
                        span := (pageSpan s1 a.toNat).2, waited := 0 })))))))
    ∧ (∀ i ∈ ([.tskSigDec ra, .tskSigWake ra] : List Instr),
        (Runs s → a.toNat % 128 = 0 → walkHeld s a = false → translate s a .write = (.ok pa leaf, s1) → fenceHolds (curCore s1) u 0 = false →
          Completes i s fun t => SameBytes s t ∧ unitMoved t ∧ t.decrs = s.decrs ++
            [{ part := u.part, va := a.toNat, pa := pa, leaf := leaf, cancel := false, core := s.focus.core
               accs := (k.accs.filter (fun y => y.uid == u.uid)).map (·.id), uid := none, vpage := (pageSpan s1 a.toNat).1
               span := (pageSpan s1 a.toNat).2, src := none }])
        ∧ (Runs s → a.toNat % 128 = 1 → walkHeld s (a - 1) = false → translate s (a - 1) .write = (.ok pa leaf, s1) → fenceHolds (curCore s1) u 0 = false →
          ((∀ id t, armedAt s pa = some (id, t) → t.state ≠ .run) → Completes i s moved)
          ∧ ∀ id x c j, armedAt s pa = some (id, x) → x.state = .run → (∀ y ∈ s.aways, y.task ≠ id) →
              unitOfTask s1 id = some (c, j) → (c ≠ s.focus.core ∨ j ≠ s.focus.slot) →
              Completes i s fun t => SameBytes s t ∧ getUnit t = on ∧ unitAt t c j = { unitAt s c j with evl := true })
        ∧ (scalarRuns s = true → 1 < a.toNat % 128 → traps i 0x06 0))
    ∧ (a.toNat % 128 = 0 → walkHeld s a = false → translate s a .write = (.ok pa leaf, s1) →
        (∀ id y, armedAt s pa = some (id, y) → y.state = .held → onMigrating s (y.pa + 120) = false → Runs s → Completes (.tskRetry ra) s fun t =>
          unitMoved t ∧ taskOf t id = some { y with state := .ready, readyAt := s.tb.tns } ∧ memByte t.mem (pa + 120) = 2
          ∧ SameBytesBut s t (pa + 120) 8)
        ∧ ((∀ id y, armedAt s pa = some (id, y) → y.state ≠ .held) → scalarRuns s = true → traps (.tskRetry ra) 0x06 0))
    ∧ (∀ level number,
        let d := (level, number)
        let y := nodeOf s d
        let node (t : State) (z : Node) : Prop := SameBytes s t ∧ unitMoved t ∧ nodeOf t d = z ∧ ∀ e, e.1 < 16 → e.2 < 4096 → e ≠ d →
          nodeOf t e = nodeOf s e
        level < 16 → number < 4096 → a.toNat = level + 256 * number → number < levelCount level →
        (ownsNode pt d = true →
          (∀ i ∈ ([.hlCancel ra rb, .hlCancelReset ra rb] : List Instr),
            (b = 0 → Runs s → tasksUnder s d = [] → Completes i s fun t => node t { y with cxl := true })
            ∧ (∀ id z, b = 0 → Runs s → tasksUnder s d = [id] → taskOf s id = some z → (∀ w ∈ s.aways, w.task ≠ id) →
                unitOfTask s id = none → Completes i s fun t =>
                  unitMoved t ∧ (nodeOf t d).cxl = true ∧ taskOf t id = none
                  ∧ (onMigrating s (z.pa + 120) = true → SameBytes s t) ∧ (onMigrating s (z.pa + 120) = false → SameBytesBut s t (z.pa + 120) 8
                  ∧ memByte t.mem (z.pa + 120) = 7 ∧ memByte t.mem (z.pa + 121) = 0x13))
            ∧ (b = 1 → y.live = 0 → Runs s → Completes i s fun t => node t { y with done := 0, fail := 0, cxl := false })
            ∧ (b = 1 → y.live ≠ 0 → scalarRuns s = true → traps i 0x06 0)
            ∧ (1 < b.toNat → scalarRuns s = true → traps i 0x06 0))
          ∧ (b.toNat < 4 → Runs s → Completes (.hlRead rd ra rb) s fun t => Wrote s t rd
              (if b = 0 then y.done.setWidth 64 else if b = 1 then y.fail.setWidth 64 else if b = 2 then y.live.setWidth 64
                else if y.cxl then 1 else 0) 1 (u.pc + 4)))
        ∧ (ownsNode pt d = false → b.toNat < 2 → scalarRuns s = true →
            traps (.hlCancel ra rb) 0x05 0 ∧ traps (.hlCancelReset ra rb) 0x05 0 ∧ traps (.hlRead rd ra rb) 0x05 0)
        ∧ (3 < b.toNat → scalarRuns s = true → traps (.hlRead rd ra rb) 0x06 0))

/-- R115, R119, R143, R317, R318, R324 to R327, R372, R375, R380: a decrement counts DEPCNT of an armed TCB down, makes it READY at
zero, and marks a duplicate; the scheduler's decision of a READY task makes a unit: PC and TVEC, s1 and ARGP with the argument block,
the other registers and its window zero, its first word 64 clocks on, the task RUN. A head of a queue, a READY task or the task of a
pre-empted unit (that such a unit stands in the queue is the model's choice, log 62), that has stood undispatchable for 4 ms becomes blocking. The scheduler's victim is asked to stop; stopped, its image is written into the context area and its slot
is empty; a return takes its registers and PC from the SCALAR section, and a chain that cannot be read ends the task and signals
vector 1. -/
def Obligations.TasksAreScheduled : Prop :=
  ∀ (s : State),
    (∀ (n id : Nat) (d : Decr) (y : Task),
      nth s.decrs n = some d → d.cancel = false → d.accs = [] → d.uid = none → s.migs = [] →
      (∀ e ∈ s.decrs.take n, e.pa ≠ d.pa ∧ (d.src = none ∨ e.src ≠ d.src)) →
      armedAt s d.pa = some (id, y) → y.depcnt < 65536 →
      (1 < y.depcnt → Completes (.depcntDecrement n) s fun t =>
        taskOf t id = some { y with depcnt := y.depcnt - 1 } ∧ memNat t.mem (d.pa + 36) 2 = y.depcnt - 1 ∧ t.decrs = dropAt s.decrs n
        ∧ ∀ a, a ≠ d.pa + 36 → a ≠ d.pa + 37 → a < d.pa + 120 ∨ d.pa + 128 ≤ a → memByte t.mem a = memByte s.mem a)
      ∧ (y.depcnt = 1 → y.state = .wait → Completes (.depcntDecrement n) s fun t =>
        taskOf t id = some { y with depcnt := 0, state := .ready, readyAt := s.tb.tns } ∧ memByte t.mem (d.pa + 120) = 2)
      ∧ (y.depcnt = 0 → Completes (.depcntDecrement n) s fun t =>
        taskOf t id = some { y with status := 0x06, dupdec := true } ∧ memByte t.mem (d.pa + 121) = 0x06
        ∧ memByte t.mem (d.pa + 123) = 1))
    ∧ (∀ (p id : Nat) (x : Place) (y : Task),
      decision s = some (p, .task id, x) → taskOf s id = some y → s.sched.next ≤ s.clk → onMigrating s (y.pa + 120) = false →
      Completes (.dispatch x.core x.slot) s fun t =>
        let arg := BitVec.ofNat 64 (fieldNat y.body 8 8)
        let u := unitAt t x.core x.slot
        u.live = true ∧ u.mode = .u ∧ u.part = y.part ∧ u.task = id ∧ u.pc = BitVec.ofNat 64 (fieldNat y.body 0 8) ∧ u.argp = arg
        ∧ u.tcbp = BitVec.ofNat 64 y.va ∧ u.tvec = (partOf s y.part).tvec ∧ u.vbase = x.vbase ∧ u.vlen = 16 * fieldNat y.body 40 1
        ∧ u.unitid = BitVec.ofNat 64 (y.part * 2 ^ 16 + x.core * 4 + x.slot) ∧ u.pending = [] ∧ u.evq = [] ∧ u.ports = []
        ∧ (∀ r : Fin 32, u.regs[r] = if r.val = 1 then arg else 0) ∧ u.ready = [(32, s.clk + 64)]
        ∧ (∀ r, u.vbase ≤ r → r < u.vbase + u.vlen → mapGet 0 (getCore t x.core).vrows r = 0)
        ∧ (∀ c i, c ≠ x.core ∨ i ≠ x.slot → unitAt t c i = unitAt s c i)
        ∧ taskOf t id = some { y with state := .run, headAt := none, blocking := false, waited := s.tb.tns - y.readyAt } ∧ memByte t.mem (y.pa + 120) = 3
        ∧ SameBytesBut s t (y.pa + 120) 8 ∧ t.sched.next = s.clk + 4)
    ∧ (∀ (p id since : Nat) (w : Waiter) (y : Task), headTask s p = some (w, id, y) → y.headAt = some since → y.blocking = false →
      dispatchable s w = false →
      (since + 4000000 ≤ s.tb.tns → Completes (.blocking p) s fun t =>
        t = { s with tasks := t.tasks } ∧ taskOf t id = some { y with blocking := true } ∧ ∀ j, j ≠ id → taskOf t j = taskOf s j)
      ∧ (s.tb.tns < since + 4000000 → Completes (.blocking p) s fun t => t = s))
    ∧ (∀ (c i : Nat),
      let u := unitAt s c i
      let bs := imageNow s c i
      u.live = true → u.ending = none →
      (preempting s c i = false → victim s = some (c, i) → Completes (.preemption c i) s fun t =>
        t = { s with preempts := t.preempts, cores := t.cores } ∧ BecameAt s { t with preempts := s.preempts } c i (getCore s c) { u with evl := true }
        ∧ preempting t c i = true)
      ∧ ∀ va pa leaf pins, preempting s c i = true → atBoundary s c i = false → unitStopped s c i = true →
        contextBad (getCore s c) u = false → s.migs = [] → s.heldw = [] → s.slow = false → imagePlace s u.part bs.length = some va →
        hubPins s u.part .write 0 (va + bs.length - 1) (bs.length / 65536 + 2) va [] = .inl pins →
        (∀ j, j < bs.length → pinPa pins (va + j) = some (pa + j, leaf)) →
        Completes (.preemption c i) s fun t =>
          unitAt t c i = Machine.Unit.reset ∧ preempting t c i = false ∧ memBytes t.mem pa bs.length = bs ∧ SameBytesBut s t pa bs.length
          ∧ (∀ d j, d ≠ c ∨ j ≠ i → unitAt t d j = unitAt s d j)
          ∧ ∃ a, t.aways = s.aways ++ [a] ∧ a.task = u.task ∧ a.unit.uid = u.uid ∧ a.unit.regs = u.regs ∧ a.unit.pc = u.pc
              ∧ a.core = c ∧ (chainOf t u.task).getLast? = some { va := va, len := bs.length, pins := pins })
    ∧ ∀ (p n : Nat) (x : Place) (a : Away), decision s = some (p, .away n, x) → nth s.aways n = some a → s.sched.next ≤ s.clk →
      (∀ m ∈ chainOf s a.task, heldIn s m.pins = false) →
      let s' := { noteWaited s a.task with sched := schedAfter s p }
      (∀ imgs, readChain s' (chainOf s a.task) = .inl imgs →
        let e := (nth (lastEntries imgs 1) 0).getD []
        Completes (.resume x.core x.slot n) s fun t =>
          let u := unitAt t x.core x.slot
          SameBytes s t ∧ u.uid = a.unit.uid ∧ u.task = a.unit.task ∧ u.vbase = x.vbase ∧ u.pc = BitVec.ofNat 64 (fieldNat e 256 8)
          ∧ (∀ r : Fin 32, u.regs[r] = if r.val = 0 then 0 else BitVec.ofNat 64 (fieldNat e (8 * r.val) 8))
          ∧ (∀ y ∈ t.aways, y.unit.uid ≠ a.unit.uid))
      ∧ (∀ va, readChain s' (chainOf s a.task) = .inr va →
        Completes (.resume x.core x.slot n) s fun t =>
          (mapGet 0 t.vfEv a.unit.part).getLsbD 1 = true ∧ ∀ y ∈ t.aways, y.task ≠ a.task)
/-! ## The tier engine (R296 to R309) -/

/-- R296, R297, R301, R304 to R306, R308: a TIER.RUN or TIER.ROPE that may start takes its head: the itinerary runs in its slot with the
head's fields and MBASE, no step started and every L(h) at its lowest value; a slot the partition does not own ends it with WINDOW and
a head with a reserved value with OPERAND. TIER.STOP stops the slot's run, with DRAIN only steps not begun, and waits for it; an idle
slot ends it at once. A run ends once none of its hops is under way and its deposits are counted: with status 0 when every step is
delivered, or at a source when every step is landed at every subscriber still present, DETAIL being the steps delivered or the subscribers
that left early; CANCELLED after a TIER.STOP; and with its failure, DETAIL the step, once every step before is delivered. COUNT is the
bytes that H2 deposited or that one subscriber was sent; that it counts the whole fills so far where a run fails or is cancelled, and that every
L(h) starts at its lowest value, is the model's choice (log 62). A subscriber that ends tells its source. The instruction `i` is tierRun, tierRopeSource, tierRopeSubscriber, tierStop or tierStopDrain, by `cmdInstr`. -/
def Obligations.ItinerariesStart : Prop :=
  (∀ (s : State) (p : Poster) (c : Cmd) (cs : List Cmd) (i : Instr),
    let q := c.quad
    let slot := q.cw0.toNat % 64
    let owned := ownsSlot s c.part slot
    let goes (P : State → Run → Prop) : Prop := Completes i s fun t =>
      SameBytes s t ∧ queueAt t p 1 = cs ∧ (∀ j, j ≠ slot → mapFind t.itins j = mapFind s.itins j) ∧ ∃ r ∈ t.cmds, r.cmd = c ∧ P t r
    let head (role : Nat) : Prop :=
      (owned = false → goes fun t r => t.itins = s.itins ∧ r.worked = true ∧ r.status = 0x05)
      ∧ (owned = true → mapFind s.itins slot = none → tierReject s c role = none →
        ∀ x, pinBytes s c.pins (q.cw1.toNat % 2 ^ 55) 32 = (x, false) →
          let first := if role = 0 then q.cw2.toNat % 2 ^ 16 else 0
          let bad := 1 < fieldNat x 2 1 ∨ fieldNat x 5 3 ≠ 0 ∨ 64 < fieldNat x 8 1 ∨ 64 < fieldNat x 16 1 ∨ 64 < fieldNat x 24 1
            ∨ fieldNat x 0 2 ≤ first
          (bad → goes fun t r => t.itins = s.itins ∧ r.worked = true ∧ r.status = 0x06)
          ∧ (¬bad → goes fun t r => r.worked = false ∧ ∃ it, mapFind t.itins slot = some it ∧ it.cmd = c.id ∧ it.role = role
              ∧ it.part = c.part ∧ it.iva = q.cw1.toNat % 2 ^ 55 ∧ it.mbase = q.cw2.toNat / 2 ^ 32 ∧ it.first = first
              ∧ it.nsteps = fieldNat x 0 2 ∧ it.steps = [] ∧ it.lat = [-32768, -32768, -32768] ∧ it.stop = none ∧ it.fail = none
              ∧ it.wsteps = [fieldNat x 8 1, fieldNat x 16 1, fieldNat x 24 1]
              ∧ it.wbytes = [fieldNat x 9 2, fieldNat x 17 2, fieldNat x 25 2]
              ∧ it.lead = [fieldNat x 11 2, fieldNat x 19 2, fieldNat x 27 2]
              ∧ (role ≠ 2 → t.net = s.net) ∧ mapFind t.hist slot = none))
    let stop (drain : Bool) : Prop :=
      (owned = false → goes fun t r => t.itins = s.itins ∧ r.worked = true ∧ r.status = 0x05)
      ∧ (owned = true → mapFind s.itins slot = none → goes fun t r => t.itins = s.itins ∧ r.worked = true ∧ r.status = 0 ∧ r.waits = none)
      ∧ (owned = true → ∀ it, mapFind s.itins slot = some it → goes fun t r => r.waits = some it.cmd ∧ r.status = 0
          ∧ mapFind t.itins slot = some { it with stop := some (drain && it.stop != some false) })
    p.slot < 4 → c.core = p.core → c.slot = p.slot → c.eng = 1 → queueAt s p 1 = c :: cs → cmdInstr c = some i →
    (portOf (posterUnit s p) 1).halted = false → stalled s c.uid 1 = false → pushDone s c = true →
    (cmdRow c = .tierRun → head 0) ∧ (cmdRow c = .ropeSource → head 1) ∧ (cmdRow c = .ropeSubscriber → head 2)
    ∧ (cmdRow c = .tierStop → stop false) ∧ (cmdRow c = .tierStopDrain → stop true))
  ∧ ∀ (s : State) (k : Nat) (r : Run) (slot : Nat) (it : Itin),
    let holds : Prop := Completes (.commandEnd k) s fun t => t = s
    let ends (st sub : BitVec 8) (d : Nat) : Prop := Completes (.commandEnd k) s fun t =>
      SameBytes s t ∧ mapFind t.itins slot = none ∧ (∀ j, j ≠ slot → mapFind t.itins j = mapFind s.itins j)
      ∧ t.cmds = s.cmds.map (fun x => if x.cmd.id = r.cmd.id then
          { r with worked := true, status := st, sub := sub, detail := d, count := it.bytes } else x)
      ∧ (it.role ≠ 2 ∨ it.gone = true → t.net = s.net)
      ∧ (it.role = 2 → it.gone = false → ∃ f, t.net = s.net ++ [f] ∧ f.dst = it.peer ∧ f.body = .leave it.rope ownPkg)
    let under : Prop := (∃ e ∈ it.steps, ∃ h ∈ e.2.started, h ∉ e.2.done) ∨ ∃ d ∈ s.deps, ∃ i, d.src = .hop slot i
    let landed : Prop := it.nsub ≤ it.accepted ∧ it.sent = it.nsteps ∧ ∀ u ∈ it.subs, ∀ i, i < it.nsteps → i ∈ u.acked
    let whole (i : Nat) : Prop := ∀ j, it.first ≤ j → j < i → ∃ x, mapFind it.steps j = some x ∧ x.delivered = true
    nth s.cmds k = some r → runById s r.cmd.id = some r → r.more = [] → r.worked = false → r.cmd.eng = 1 →
    s.itins.find? (fun e => e.2.cmd == r.cmd.id) = some (slot, it) →
    (under → holds)
    ∧ (¬under → it.fail = none → it.stop = none →
        (it.role ≠ 1 → it.delivered = it.nsteps - it.first → ends 0 0 it.delivered)
        ∧ (it.role ≠ 1 → it.delivered ≠ it.nsteps - it.first → holds)
        ∧ (it.role = 1 → landed → ends 0 0 it.left) ∧ (it.role = 1 → ¬landed → holds))
    ∧ (¬under → it.fail = none → ∀ drain, it.stop = some drain →
        (drain = false ∨ (∀ e ∈ it.steps, begun e.2 = true → e.2.delivered = true) → ends 0x13 0 it.delivered)
        ∧ (drain = true → (∃ e ∈ it.steps, begun e.2 = true ∧ e.2.delivered = false) → holds))
    ∧ (¬under → ∀ i st sub, it.fail = some (i, st, sub) →
        (it.stop = some false ∨ i = 0 ∨ whole i → ends st sub i)
        ∧ (it.stop = none → i ≠ 0 → ¬whole i → holds))

/-- R299, R300, R301, R303, R304: a hop starts the step its turn gives it, only while fewer than WSTEPS steps and at most WBYTES
bytes are in flight there and the hop before has completed it; H0 and H1 copy the step's bytes, at most four in one aligned word at a
turn, and complete once all are copied (R263); H2 deposits into the whole tile DEST and completes when its deposits are counted; a step's last hop delivers it, and with PROG a record that is not LAST gives its index and the three L(h). In the clock after, L(h) is MCNT less
DUEE less LEAD, held within 16 bits, and the first L(h) above TRACEL of a step and hop is recorded once, by a LATE record that goes to the trace writer (R404). -/
def Obligations.HopsMoveSteps : Prop :=
  ∀ (s : State) (slot : Nat) (it : Itin), mapFind s.itins slot = some it →
    (∀ h i t, h < 3 → slotNext s slot h = true → hopTry s it h = .go i t → Completes (.hopStart slot h) s fun u =>
      SameBytes s u ∧ mapFind u.itins slot = some (withStep it i t) ∧ mapGet 63 u.tierLast h = slot
      ∧ ((nth it.wsteps h).getD 0 ≠ 0 → (flightSteps s it h).length < (nth it.wsteps h).getD 0)
      ∧ ((flightSteps s it h).map stepBytes).sum + stepBytes t ≤ 65536 * (nth it.wbytes h).getD 0
      ∧ h ∈ t.started ∧ (∀ p, prevHop t.hops h = some p → p ∈ t.done) ∧ i < haltStep it)
    ∧ (∀ h i cause, h < 3 → slotNext s slot h = true → hopTry s it h = .fail i cause → Completes (.hopStart slot h) s fun u =>
      u = { s with itins := u.itins } ∧ mapFind u.itins slot = some (failAt it i h cause (h + 1)))
    ∧ (∀ h i t, h < 3 → it.steps.find? (fun e => hopCan s slot h e.1 e.2) = some (i, t) →
      let src := (if h = firstHop t.hops then t.lo else t.lpva) + t.pos
      let dst := (if h = 0 then t.lpva else t.stva) + t.pos
      let n := min (t.len - t.pos) (4 - dst % 4)
      let l16 (h : Nat) : Nat := (BitVec.ofInt 16 ((nth it.lat h).getD (-32768))).toNat
      let fin (u : State) : Prop := ∃ v, mapFind u.itins slot = some v ∧ (h, s.clk + 1) ∈ v.dirty
        ∧ ∃ w, mapFind v.steps i = some w ∧ w.done = h :: t.done ∧ (i < haltStep it → h = lastHop t.hops →
            w.delivered = true ∧ v.delivered = it.delivered + 1 ∧ t.sly ∈ mapGet [] u.hist slot
            ∧ ∀ r, runById s it.cmd = some r →
              (it.prog = false ∨ 1 < qMode r.cmd.quad → u.cmds = s.cmds)
              ∧ (it.prog = true → qMode r.cmd.quad ≤ 1 → ∃ x,
                u.cmds = s.cmds.map (fun y => if y.cmd.id = r.cmd.id then { r with more := r.more ++ [x] } else y)
                ∧ x.status = 0 ∧ x.sub = 0 ∧ x.engine = BitVec.ofNat 8 r.cmd.eng ∧ x.flags = BitVec.ofNat 8 (qMode r.cmd.quad)
                ∧ x.detail = BitVec.ofNat 32 i ∧ x.count.toNat = l16 2 + 2 ^ 16 * l16 1 + 2 ^ 32 * l16 0))
      (∀ spa dpa l l', h < 2 → ¬(it.role = 2 ∧ h = 1) → t.pos < t.len → s.migs = [] → s.poison = [] →
        (∀ j, j < n → pinPa t.pins (src + j) = some (spa + j, l) ∧ pinPa t.pins (dst + j) = some (dpa + j, l') ∧ inletChan (dpa + j) = none) →
        Completes (.hopComplete slot h) s fun u =>
          u = { s with mem := u.mem, itins := u.itins } ∧ mapFind u.itins slot = some (withStep it i { t with pos := t.pos + n })
          ∧ memBytes u.mem dpa n = memBytes s.mem spa n ∧ SameBytesBut s u dpa n)
      ∧ (h < 2 → ¬(it.role = 2 ∧ h = 1) → t.len ≤ t.pos → Completes (.hopComplete slot h) s fun u => fin u ∧ SameBytes s u)
      ∧ (h = 2 → t.moved = true → Completes (.hopComplete slot h) s fun u => fin u ∧ SameBytes s u)
      ∧ (∀ l, h = 2 → t.moved = false → t.layout = some l →
        let T := tileOf (getCore s t.core) t.handle.toNat
        let b := fmtBits (tileFmt T)
        let raw : Layout := { l with bits := fmtBits l.fmt, image := false }
        let place (va : Nat) : Nat := if hasHop t.hops 1 then t.stva + (va - t.lo) else va
        let seen : State := { s with mem := overlaid t.fore s.mem }
        (T.valid = false ∨ T.gen ≠ t.gen ∨ T.acc = true → Completes (.hopComplete slot h) s fun u =>
          u = { s with itins := u.itins } ∧ mapFind u.itins slot = some (failAt it i 2 0x07 3))
        ∧ (T.valid = true → T.gen = t.gen → T.acc = false → storageIn T = true → T.pl = 0 → l.fmt = tileFmt T → s.poison = [] →
          Completes (.hopComplete slot h) s fun u =>
            SameBytes s u ∧ (∃ v, mapFind u.itins slot = some v ∧ v.bytes = it.bytes + ceilDiv (tileRows T * tileCols T * b) 8
              ∧ mapFind v.steps i = some { t with moved := true })
            ∧ ∃ ds, u.deps = s.deps ++ ds
              ∧ (∀ d ∈ ds, d.core = t.core ∧ d.handle = t.handle ∧ d.gen = t.gen ∧ d.kind = .write ∧ d.src = .hop slot i)
              ∧ ∀ r j, r < tileRows T → j < tileCols T → ∃ d ∈ ds,
                  d.word = r * pitch T / 4 + j * b / 32 ∧ d.mask.toNat / 2 ^ (j * b % 32) % 2 ^ b = 2 ^ b - 1
                  ∧ d.data.toNat / 2 ^ (j * b % 32) % 2 ^ b = (match (index2 raw (j : Nat) (r : Nat)).bind (elemAt raw) with
                      | some bit => (pinBits seen t.pins (8 * place (bit.toNat / 8) + bit.toNat % 8) b).1
                      | none => l.pad.toNat) % 2 ^ b)))
    ∧ ∀ h d i t m, h < 3 → it.role ≠ 2 → it.lat.length = 3 → it.names.length = 3 → it.dirty = [(h, d)] →
      (s.clk < d → Completes (.latenessRecompute slot) s fun u => u = s)
      ∧ (d ≤ s.clk → (nth it.wsteps h).getD 0 ≠ 0 →
        oldestStep s (noteReached s { it with dirty := [] }) h (it.nsteps - it.first) it.first = some (i, t) →
        mcntOf s t.core t.sub = some m → ∃ v : Int,
          v = max (-32768) (min 32767 (m - (BitVec.ofNat 32 (it.mbase + t.due) - BitVec.ofNat 32 ((nth it.lead h).getD 0))).toInt)
          ∧ Completes (.latenessRecompute slot) s fun u => ∃ w, mapFind u.itins slot = some w ∧ nth w.lat h = some v ∧ w.dirty = []
              ∧ (∀ g, g ≠ h → nth w.lat g = nth it.lat g)
              ∧ w.late = (if it.tracel < v ∧ (i, h) ∉ it.late then (i, h) :: it.late else it.late)
              ∧ SameBytes s u ∧ (v ≤ it.tracel ∨ (i, h) ∈ it.late → u.traceq = s.traceq)
              ∧ (it.tracel < v → (i, h) ∉ it.late → ∃ x, u.traceq = s.traceq ++ [x] ∧ x.part = it.part ∧ x.eng = 1
                  ∧ x.bytes = lateRec s slot it h i v m t))

/-- R300, R307 to R309, R353, R367, R382: a join that arrives is held for its source, which takes the next once the clock in which it came is over, accepting it while it has room, the window allows it and nothing was sent,
and answers it; the answer joins the subscriber or fails it, and a word that it leaves lets it go, be it while its join waits; the source sends its next delivered step to every subscriber within the slack
where the egress journal allows, and fails there on uncorrectable bytes; a report of a subscriber sets its CONS; a
subscriber lands a copy at STVA piece by piece, as its H1 and within its window, and then acknowledges it; one that has ended acknowledges it and takes none; a subscriber that has gone is excluded, and
counted as having left early where a step had not landed there. -/
def Obligations.RopesCarrySteps : Prop :=
  ∀ (s : State) (k : Nat) (f : Flit),
    (∀ rope pkg cmd nsteps wsteps1 slot it, nth s.joins k = some f → f.body = .join rope pkg cmd nsteps wsteps1 →
      ropeSource s rope = some (slot, it) → joinNext s rope pkg f.arrived k = true → f.arrived < s.clk →
      let pt := partOf s it.part
      let inside := pt.fablo ≤ pkg ∧ pkg ≤ pt.fabhi
      let takes := inside ∧ it.sent = 0 ∧ it.slack ≤ wsteps1 ∧ nsteps = it.nsteps ∧ it.accepted < it.nsub
      let has := { it with accepted := it.accepted + 1, subs := it.subs ++ [{ pkg := pkg, consumed := 0, acked := [] }] }
      let gone := ∃ g ∈ dropAt s.joins k, g.body = .leave rope pkg
      Completes (.join k) s fun t =>
        SameBytes s t ∧ (¬gone → t.joins = dropAt s.joins k) ∧ (gone → t.joins.length + 1 = (dropAt s.joins k).length)
        ∧ (takes → ¬gone → mapFind t.itins slot = some has) ∧ (takes → gone → mapFind t.itins slot = some (withoutSub has pkg))
        ∧ (¬takes → t.itins = s.itins)
        ∧ ∃ g, t.net = s.net ++ [g] ∧ g.dst = pkg ∧ g.body = .joinAnswer rope cmd (decide takes) (!decide inside))
    ∧ (∀ slot it st, mapFind s.itins slot = some it → mapFind it.steps it.sent = some st → it.role = 1 → it.nsub ≤ it.accepted →
      let h := if hasHop st.hops 1 then 1 else 0
      let va := if h = 1 then st.stva else st.lpva
      let bad := (List.range st.len).filter (fun i => (pinByte s st.pins (va + i)).2)
      let next := { it with sent := it.sent + 1, bytes := it.bytes + st.len }
      (st.delivered = true → it.sent < consOf it + it.slack → (∀ u ∈ it.subs, tierEgress s it u.pkg = true) →
        Completes (.ropeSend slot) s fun t =>
        SameBytes s t ∧ mapFind t.itins slot = some (if bad = [] then next else failAt next it.sent h 0x0E (h + 1))
        ∧ ∃ gs, t.net = s.net ++ gs ∧ gs.map (·.dst) = it.subs.map (·.pkg)
            ∧ ∀ g ∈ gs, g.body = .copy it.rope it.sent (pinBytes s st.pins va st.len).1 bad)
      ∧ (st.delivered = false ∨ consOf it + it.slack ≤ it.sent ∨ (∃ u ∈ it.subs, tierEgress s it u.pkg = false) →
        Completes (.ropeSend slot) s fun t => t = s))
    ∧ (∀ rope pkg n slot it, arrivalOf s k = .next f → f.body = .consumed rope pkg n → ropeSource s rope = some (slot, it) →
      Completes (.consumedReport k) s fun t =>
        SameBytes s t ∧ t.net = dropAt s.net k ∧ ∃ w, mapFind t.itins slot = some w
          ∧ w.subs = it.subs.map (fun u => if u.pkg = pkg then { u with consumed := n } else u) ∧ w.steps = it.steps)
    ∧ (∀ rope i bs bad, arrivalOf s k = .next f → f.body = .copy rope i bs bad →
      (∀ slot it, ropeSubscriber s rope = some (slot, it) → it.joined = false ∨ it.gone = true ∨ it.stop.isSome = true ∨ haltStep it ≤ i) →
      Completes (.multicastLanding k) s fun t =>
        SameBytes s t ∧ t.itins = s.itins ∧ ∃ g, t.net = dropAt s.net k ++ [g] ∧ g.dst = f.src ∧ g.body = .copyAck rope ownPkg i)
    ∧ (∀ rope i bs bad slot it st st1 ps, arrivalOf s k = .next f → f.body = .copy rope i bs bad →
      ropeSubscriber s rope = some (slot, it) → it.joined = true → it.gone = false → it.stop = none → i < haltStep it →
      let u := takeFlit s k f
      lookStep u it i = (st, none) → prepStep u it st = .inl st1 → rangePins u it.part .write 1 st1.stva bs.length [] = .inl ps →
      (copyHeld u it i bs.length = true ∨ stepRoom u it 1 = false ∨ byteRoom u it 1 st1 = false → Completes (.multicastLanding k) s fun t => t = s)
      ∧ (copyHeld u it i bs.length = false → stepRoom u it 1 = true → byteRoom u it 1 st1 = true → Completes (.multicastLanding k) s fun t =>
        SameBytes s t ∧ t.net = dropAt s.net k
        ∧ mapFind t.itins slot = some (withStep it i { st1 with pins := ps, started := [1], pos := 0, copy := bs, spoilt := bad })))
    ∧ (∀ slot it i st, mapFind s.itins slot = some it → it.role = 2 → it.steps.find? (fun e => hopCan s slot 1 e.1 e.2) = some (i, st) →
      let n := min (st.copy.length - st.pos) (4 - (st.stva + st.pos) % 4)
      (∀ pa leaf, st.pos < st.copy.length → s.migs = [] → s.poison = [] → st.spoilt = [] →
        (∀ j, j < n → pinPa st.pins (st.stva + st.pos + j) = some (pa + j, leaf) ∧ inletChan (pa + j) = none) →
        Completes (.hopComplete slot 1) s fun t =>
          t = { s with mem := t.mem, itins := t.itins } ∧ mapFind t.itins slot = some (withStep it i { st with pos := st.pos + n })
          ∧ memBytes t.mem pa n = (st.copy.drop st.pos).take n ∧ SameBytesBut s t pa n)
      ∧ (st.copy.length ≤ st.pos → Completes (.hopComplete slot 1) s fun t =>
        SameBytes s t ∧ (∃ w x, mapFind t.itins slot = some w ∧ mapFind w.steps i = some x ∧ x.done = 1 :: st.done)
        ∧ ∃ g, t.net = s.net ++ [g] ∧ g.dst = it.peer ∧ g.body = .copyAck it.rope ownPkg i))
    ∧ (arrivalOf s k = .next f →
      let gets (P : State → Prop) : Prop := Completes (.flitReceive k) s fun t => SameBytes s t ∧ t.net = dropAt s.net k ∧ P t
      (∀ rope pkg cmd nsteps wsteps1, f.body = .join rope pkg cmd nsteps wsteps1 →
        gets fun t => t.joins = s.joins ++ [f] ∧ t.itins = s.itins)
      ∧ (∀ rope cmd acc win slot it, f.body = .joinAnswer rope cmd acc win →
        s.itins.find? (fun e => e.2.cmd == cmd && e.2.role == 2) = some (slot, it) →
        gets fun t => mapFind t.itins slot = some (if acc then { it with joined := true }
          else failAt it 0 3 (if win then 0x05 else 0x06) (if win then 0 else 0x11)))
      ∧ ∀ rope pkg slot it, f.body = .leave rope pkg → ropeSource s rope = some (slot, it) →
        (∀ g ∈ s.joins, ∀ cmd m w, g.body ≠ .join rope pkg cmd m w) → gets fun t => mapFind t.itins slot = some (withoutSub it pkg))
    ∧ ∀ slot it pkg u, mapFind s.itins slot = some it → it.role = 1 → it.subs.find? (fun u => u.pkg == pkg) = some u →
      pkg ≠ ownPkg ∨ (∀ e, ropeSubscriber s it.rope = some e → e.2.stop.isSome = true ∨ e.2.fail.isSome = true) →
      Completes (.subscriberLeave slot pkg) s fun t =>
        t = { s with itins := t.itins } ∧ mapFind t.itins slot = some { it with
          subs := it.subs.filter (fun v => v.pkg != pkg)
          left := if ∀ i, i < it.nsteps → i ∈ u.acked then it.left else it.left + 1 }
/-! ## The splice unit (R339 to R360) -/

/-- R342, R343, R344, R354, R355: a splice command starts: a bad parameter block or member list ends it with what spliceReject gives and
its rank in DETAIL; else it runs, and where its landing rows, its paths and its egress journal allow, a collective announces itself to
each of its peers with its own destination, a put sends each element of its source to the peer, and a signal that nothing earlier of its
class holds sends its flag. A command whose landing rows are not free waits for them. The instruction `i` is splCollAllReduce, splCollReduceScatter, splCollAllGather, splCollBroadcast,
splCollAllToAll, splCollTransposingAllToAll, splPut, splSigSet or splSigAdd, by `cmdInstr` of the command. -/
def Obligations.SpliceCommandsStart : Prop :=
  ∀ (s : State) (p : Poster) (c : Cmd) (cs : List Cmd) (i : Instr),
    let b := c.block
    let goes (P : State → Prop) : Prop := Completes i s fun t => SameBytes s t ∧ queueAt t p 2 = cs ∧ P t
    let runs (t : State) (ms : List Byte) (sent : Bool) : Prop :=
      (∃ r ∈ t.cmds, r.cmd = c ∧ r.worked = false) ∧ ∃ x ∈ t.colls, x.cmd = c ∧ x.op = bOp b ∧ x.rank = bMyrank b ∧ x.core = c.core
        ∧ x.ann.members = ms ∧ x.announced = sent
    let core' := getCore s c.core
    let may (ms : List Byte) (q : Nat) : Prop :=
      reachable s (destOf (entryPkg (entryAt ms q))) = true ∧ egressOk core' c.part (destOf (entryPkg (entryAt ms q))) = true
    p.slot < 4 → c.core = p.core → c.slot = p.slot → c.eng = 2 → queueAt s p 2 = c :: cs → cmdInstr c = some i →
    (portOf (posterUnit s p) 2).halted = false → stalled s c.uid 2 = false → pushDone s c = true →
    (∀ st sub, spliceReject s c = .inl (st, sub) → goes fun t => t.colls = s.colls ∧ t.net = s.net
      ∧ ∃ r ∈ t.cmds, r.cmd = c ∧ r.worked = true ∧ r.status = st ∧ r.sub = sub ∧ r.detail = bMyrank b)
    ∧ (∀ ms, spliceReject s c = .inr ms → (∀ x ∈ s.colls, x.cmd.id ≠ c.id) → (∀ r ∈ s.cmds, r.cmd.id ≠ c.id) →
      (bOp b ≤ 5 → rowNeed b = 0 ∨ (bDtile b = false ∧ rowNeed b ≤ hubRows s ∧ ∀ x ∈ s.colls, x.holds = true) → s.anns = [] → may ms (bMyrank b) → (∀ q ∈ peersOf b, may ms q) →
        goes fun t => runs t ms true ∧ ∀ q ∈ peersOf b, ∃ f ∈ t.net, f.dst = entryPkg (entryAt ms q) ∧ f.body = .announce
          { collid := bCollid b, rank := bMyrank b, tgt := q, core := entryCore (entryAt ms q), agree := agreeBytes b, members := ms
            dst := ownDst s c ms })
      ∧ (bOp b ≤ 5 → 0 < rowNeed b → bDtile b = false → hubRows s < rowNeed b → goes fun t => runs t ms false ∧ t.net = s.net)
      ∧ (bOp b = 6 → may ms (bPeer b) → goes fun t => runs t ms true ∧ ∀ n, n < bCount b →
          ∃ f ∈ t.net, f.dst = entryPkg (entryAt ms (bPeer b)) ∧ ∃ y, f.body = .piece y ∧ y.put = true ∧ y.tgt = bPeer b
            ∧ y.handle = entryHandle (entryAt ms (bPeer b)) ∧ y.gen = entryGen (entryAt ms (bPeer b))
            ∧ ∀ l, c.layouts.head? = some l → ∀ bit, elemAt l ((unflat l.ext n).map (fun (x : Nat) => (x : Int))) = some bit →
                (n, (pinBits s c.pins bit.toNat l.bits).1) ∈ y.elems)
      ∧ (bOp b = 7 → may ms (bPeer b) →
        (signalClear s c = true → goes fun t => runs t ms true ∧ ∃ f, t.net = s.net ++ [f] ∧ f.dst = entryPkg (entryAt ms (bPeer b))
          ∧ f.body = .signal (entryCore (entryAt ms (bPeer b))) (fieldNat b 40 8) (BitVec.ofNat 64 (fieldNat b 48 8))
              (decide (fieldNat b 33 1 = 1)) (qClass c.quad) c.id)
        ∧ (signalClear s c = false → goes fun t => runs t ms false ∧ t.net = s.net)))

/-- R197, R198, R343 to R346, R349, R351 to R353, R355, R361: a flit is applied when it is the next of its pair, and then only; one applied already is
dropped and one that comes early changes nothing. A piece of a put deposits its elements into a good tile and is refused by a bad one; a piece
of a collective deposits them into its member's tile, the first to a word of a reduction as they are and the others combining, or hands them
to be written to its memory destination, where an element of a reduction is written once its last contribution is in: the left fold in
ascending rank, or the value of some tree. Of a transposing all-to-all a piece that needs a landing row joins it where one is free for it and
goes back else, gathers there, and the segment's last has the row deposited; a flit that came back is offered again, joins its row once one
is free and no other goes first, and is acknowledged where its collective is gone. A signal is set or added in its target's space. Members
that announce different terms fail with OPERAND, and the last announcement that agrees has every member sent its share. A peer's withdrawal
ends a collective CANCELLED. A remote row goes out in order when its clock has come, EROW moving past it, and at its destination is deposited,
or refused whole, a FULL tile of this package holding it at its sender. By which announcement a collective is met, when one is kept for a
later post or spent, and that a put of another format than its tile's is refused, are the model's reading (log 41). -/
def Obligations.FlitsAreApplied : Prop :=
  ∀ (s : State) (k : Nat) (f : Flit),
    let words (T : Tile) (ds : List Deposit) (kind : Nat → DepKind) (es : List (Nat × Nat × Nat)) : Prop :=
      let w := fmtBits (tileFmt T)
      (∀ d ∈ ds, d.kind = kind d.word)
      ∧ ((∀ e ∈ es, e.2.2 < 2 ^ w) → ∀ e ∈ es, (∀ e' ∈ es, e'.1 = e.1 → e'.2.1 = e.2.1 → e' = e) → ∃ d ∈ ds,
          d.word = (e.1 * (8 * pitch T) + e.2.1 * w) / 32 ∧ d.mask.toNat / 2 ^ (e.2.1 * w % 32) % 2 ^ w = 2 ^ w - 1
          ∧ d.data.toNat / 2 ^ (e.2.1 * w % 32) % 2 ^ w = e.2.2)
    let owes (t : State) (ds : List Deposit) (b : FlitBody) : Prop := ∃ o, t.owed = s.owed ++ [o]
      ∧ o.left = ds.map (fun d => (d.handle.toNat, d.word)) ∧ o.refused = false ∧ o.dst = f.src ∧ o.ack = b
    let answers (t : State) (net : List Flit) (b : FlitBody) : Prop := ∃ g, t.net = net ++ [g] ∧ g.dst = f.src ∧ g.body = b
    let fits (T : Tile) (gen : BitVec 8) (es : List (Nat × Nat × Nat)) : Prop :=
      T.valid = true ∧ T.gen = gen ∧ T.acc = false ∧ T.pl = 0 ∧ ∀ e ∈ es, e.1 < tileRows T ∧ e.2.1 < tileCols T
    let own (c : Coll) : Nat := entryAt c.ann.members c.rank
    let tile (c : Coll) (core : Nat) : Tile := tileOf (getCore s core) (entryHandle (own c)).toNat
    let joins (i : Instr) (net : List Flit) (c : Coll) (y : Piece) : Prop :=
      let mine (r : LRow) : Bool := r.pkg == f.src && r.cmd == y.cmd && r.seg == y.seg && !r.closed
      let all := (((rowsUsed s c).find? mine).map (·.elems)).getD [] ++ y.elems
      let T := tile c y.core
      let width := (nth (dstExt c.cmd.block) 0).getD 1
      let es := all.map (fun e => (e.1 / width, e.1 % width, e.2))
      let coll (t : State) (P : Coll → Prop) : Prop :=
        SameBytes s t ∧ ∃ c', collOf t c.cmd.id = some c' ∧ c'.coming = c.coming - y.elems.length ∧ P c'
      (y.last = false → Completes i s fun t => answers t net (.pieceAck y.cmd y.tgt false false) ∧ t.deps = s.deps
        ∧ coll t fun c' => ∃ r ∈ c'.landing, mine r = true ∧ r.elems = all)
      ∧ (y.last = true → bDtile c.cmd.block = false → Completes i s fun t => t.net = net ∧ t.deps = s.deps
        ∧ coll t fun c' => ∃ j, c'.jobs = c.jobs ++ [j] ∧ j.elems = all ∧ j.row = some (f.src, y.cmd)
            ∧ j.ack = some (f.src, .pieceAck y.cmd y.tgt true false))
      ∧ (y.last = true → bDtile c.cmd.block = true → fits T (entryGen (own c)) es → y.width = fmtBits (tileFmt T) → all ≠ [] → y.put = false → bOp c.cmd.block = 5 →
        Completes i s fun t => t.net = net ∧ (coll t fun _ => True) ∧ ∃ ds, t.deps = s.deps ++ ds ∧ words T ds (fun _ => blockKind c.cmd.block) es
          ∧ (∀ d ∈ ds, d.core = y.core ∧ d.handle = entryHandle (own c) ∧ d.gen = entryGen (own c))
          ∧ owes t ds (.pieceAck y.cmd y.tgt true false))
    (∀ i ∈ ([.flitReceive k, .signalApply k, .collectiveAnnounce k, .memberWithdraw k, .remoteRowArrival k] : List Instr),
        (arrivalOf s k = .again → Completes i s fun t => t = { s with net := dropAt s.net k })
        ∧ (arrivalOf s k = .notYet → Completes i s fun t => t = s))
    ∧ (arrivalOf s k = .next f →
      (∀ y, f.body = .piece y → y.put = true → y.bad = [] → y.elems ≠ [] → y.ranked = false →
        let T := tileOf (getCore s y.core) y.handle.toNat
        let es := y.elems.map (fun e => (e.1 / tileCols T, e.1 % tileCols T, e.2))
        let ok := fits T y.gen es ∧ y.width = fmtBits (tileFmt T) ∧ (y.kind = .write ∨ y.fmt = tileFmt T)
        (ok → Completes (.flitReceive k) s fun t =>
          SameBytes s t ∧ t.net = dropAt s.net k ∧ ∃ ds, t.deps = s.deps ++ ds ∧ words T ds (fun _ => y.kind) es
            ∧ (∀ d ∈ ds, d.core = y.core ∧ d.handle = y.handle ∧ d.gen = y.gen) ∧ owes t ds (.pieceAck y.cmd y.tgt y.last false))
        ∧ (¬ok → Completes (.flitReceive k) s fun t =>
          SameBytes s t ∧ t.deps = s.deps ∧ answers t (dropAt s.net k) (.pieceAck y.cmd y.tgt y.last true)))
      ∧ (∀ y, f.body = .piece y → y.put = false → collAt s y.group y.collid y.tgt y.core = none → Completes (.flitReceive k) s fun t =>
          SameBytes s t ∧ t.deps = s.deps ∧ answers t (dropAt s.net k) (.pieceAck y.cmd y.tgt y.last false))
      ∧ (∀ y c, f.body = .piece y → y.put = false → collAt s y.group y.collid y.tgt y.core = some c → collOf s c.cmd.id = some c → c.op ≠ 5 →
        let b := c.cmd.block
        let T := tile c y.core
        let es := y.elems.map (fun e => (e.1 / tileCols T, e.1 % tileCols T, e.2))
        let ok := fits T (entryGen (own c)) es ∧ y.width = fmtBits (tileFmt T)
        let ack : FlitBody := .pieceAck y.cmd y.tgt y.last false
        let got (t : State) (P : Coll → Prop) : Prop :=
          SameBytes s t ∧ ∃ c', collOf t c.cmd.id = some c' ∧ c'.coming = c.coming - y.elems.length ∧ P c'
        let all (i : Nat) (v : Nat) : Prop := Reduces (bRanked b) (blockKind b) (contributions c y i) v
        -- a tile: every contribution a deposit
        (bDtile b = true → oneTree c = false ∨ bRanked b = true → bOp b ≠ 5 →
          (ok → y.elems ≠ [] → Completes (.flitReceive k) s fun t =>
            t.net = dropAt s.net k ∧ (got t fun _ => True) ∧ ∃ ds, t.deps = s.deps ++ ds
              ∧ words T ds (fun w => if c.op ≤ 1 ∧ (if bRanked b then y.rank = 0 else w ∉ c.written) then .write else blockKind b) es
              ∧ (∀ d ∈ ds, d.core = y.core ∧ d.handle = entryHandle (own c) ∧ d.gen = entryGen (own c)
                  ∧ d.ranked = if bRanked b then some y.rank else none)
              ∧ owes t ds ack)
          ∧ (¬ok → Completes (.flitReceive k) s fun t => (got t fun _ => True) ∧ t.deps = s.deps
            ∧ answers t (dropAt s.net k) (.pieceAck y.cmd y.tgt y.last true)))
        -- a tile whose ranks all combine by one tree: deposited once all is in
        ∧ (bDtile b = true → oneTree c = true → bRanked b = false → bOp b ≠ 5 →
          (y.elems.length < c.coming → Completes (.flitReceive k) s fun t => t.net = dropAt s.net k ∧ t.deps = s.deps ∧ got t fun c' =>
            c'.kept.map (fun e => (e.1, e.2.elems)) = c.kept.map (fun e => (e.1, e.2.elems)) ++ [(f.src, y.elems)]
            ∧ ∀ i, mapGet [] c'.contrib i = contributions c y i)
          ∧ (c.coming ≤ y.elems.length → ok → (∀ e ∈ c.kept, e.2.core = y.core ∧ e.2.handle = entryHandle (own c)
              ∧ e.2.gen = entryGen (own c) ∧ e.2.width = y.width ∧ e.2.put = false
              ∧ ∀ x ∈ e.2.elems, x.1 / tileCols T < tileRows T ∧ x.1 % tileCols T < tileCols T) →
            Completes (.flitReceive k) s fun t => (got t fun c' => c'.kept = []) ∧ ∃ (ds : List Deposit) (v : Nat → Nat), t.deps = s.deps ++ ds ∧ (∀ d ∈ ds, d.kind = .write)
              ∧ (∀ i, all i (v i))
              ∧ ∀ xs ∈ c.kept.map (fun e => e.2.elems) ++ [y.elems],
                  words T ds (fun _ => .write) (xs.map (fun e => (e.1 / tileCols T, e.1 % tileCols T, v e.1)))))
        -- memory
        ∧ (bDtile b = false → 2 ≤ c.op → Completes (.flitReceive k) s fun t => t.net = dropAt s.net k ∧ t.deps = s.deps ∧ got t fun c' =>
            ∃ j, c'.jobs = c.jobs ++ [j] ∧ j.elems = y.elems ∧ j.bad = y.bad ∧ j.row = none ∧ j.ack = some (f.src, ack))
        ∧ (bDtile b = false → c.op ≤ 1 →
          (y.elems.length < c.coming → Completes (.flitReceive k) s fun t => t.deps = s.deps ∧ answers t (dropAt s.net k) ack
            ∧ got t fun c' => c'.jobs = c.jobs ∧ ∀ i, mapGet [] c'.contrib i = contributions c y i)
          ∧ (c.coming ≤ y.elems.length → Completes (.flitReceive k) s fun t => t.net = dropAt s.net k ∧ t.deps = s.deps ∧ got t fun c' =>
            ∃ j, c'.jobs = c.jobs ++ [j] ∧ j.row = none ∧ j.ack = some (f.src, ack)
              ∧ ∀ i, contributions c y i ≠ [] → ∃ v, all i v ∧ (i, v) ∈ j.elems)))
      ∧ (∀ y c, f.body = .piece y → y.put = false → collAt s y.group y.collid y.tgt y.core = some c → collOf s c.cmd.id = some c → c.op = 5 →
        let u := takeFlit s k f
        let room := (rowsUsed s c).length + winners u c f y.srcCore < c.rows
        let rival := rowRival u c f.arrived f.src y.srcCore = true
        (y.newRow = true → ¬room → Completes (.flitReceive k) s fun t =>
          SameBytes s t ∧ t.net = dropAt s.net k ∧ t.back = s.back ++ [f] ∧ t.colls = s.colls ∧ t.deps = s.deps)
        ∧ (y.newRow = true → room → rival → Completes (.flitReceive k) s fun t => t = s)
        ∧ (y.newRow = false ∨ (room ∧ ¬rival) → joins (.flitReceive k) (dropAt s.net k) c y))
      ∧ (∀ core va value add cls cmd p pa leaf, f.body = .signal core va value add cls cmd → corePart s core = some p →
        translateHub s p va .write = .ok pa leaf → inletChan pa = none → migratingAt s leaf pa = false →
        Completes (.signalApply k) s fun t =>
          SameBytesBut s t pa 8 ∧ memNat t.mem pa 8 = ((if add then memNat s.mem pa 8 else 0) + value.toNat) % 2 ^ 64
          ∧ answers t (dropAt s.net k) (.signalAck cmd 0))
      ∧ (∀ core va value add cls cmd p cause, f.body = .signal core va value add cls cmd → corePart s core = some p →
        translateHub s p va .write = .fail cause → Completes (.signalApply k) s fun t =>
          SameBytes s t ∧ answers t (dropAt s.net k) (.signalAck cmd cause))
      ∧ (∀ a, f.body = .announce a →
        let kept : Prop := Completes (.collectiveAnnounce k) s fun t => SameBytes s t ∧ t.anns = s.anns ++ [f] ∧ t.colls = s.colls
        (annKey a ∈ s.spent → Completes (.collectiveAnnounce k) s fun t =>
          SameBytes s t ∧ t.net = dropAt s.net k ∧ t.anns = s.anns ∧ t.colls = s.colls ∧ t.spent = s.spent.erase (annKey a))
        ∧ (annKey a ∉ s.spent → annAt s a = none → kept)
        ∧ ∀ c, annKey a ∉ s.spent → annAt s a = some c → collOf s c.cmd.id = some c →
          let agrees : Prop := a.agree = c.ann.agree ∧ a.members = c.ann.members
          let from_ := if a.rank ∈ c.toHear ∧ peerKey c a.rank = annKey a then some a.rank
            else c.toHear.find? (fun q => peerKey c q == annKey a)
          let seen : State := { s with mem := overlaid c.fore s.mem }
          (c.announced = false ∨ c.fail ≠ none ∨ (agrees ∧ a.rank ∉ c.toHear) → kept)
          ∧ (c.announced = true → c.fail = none → ¬agrees → Completes (.collectiveAnnounce k) s fun t =>
            SameBytes s t ∧ t.net = dropAt s.net k ∧ collOf t c.cmd.id = some { c with
              fail := some (0x06, 2, a.rank), queued := [], toHear := c.toHear.filter (fun q => some q ≠ from_) })
          ∧ (c.announced = true → c.fail = none → agrees → a.rank ∈ c.toHear → (∃ q ∈ c.toHear, q ≠ a.rank) →
            Completes (.collectiveAnnounce k) s fun t =>
              SameBytes s t ∧ t.net = dropAt s.net k ∧ collOf t c.cmd.id = some { c with
                toHear := c.toHear.filter (fun q => q != a.rank), heard := c.heard ++ [(a.rank, a.dst)] })
          ∧ (c.announced = true → c.fail = none → agrees → a.rank ∈ c.toHear → (∀ q ∈ c.toHear, q = a.rank) → c.shared = false →
            Completes (.collectiveAnnounce k) s fun t => SameBytes s t ∧ ∃ c', collOf t c.cmd.id = some c' ∧ c'.toHear = [] ∧ c'.shared = true
              ∧ c'.fail = none ∧ (c.op ≠ 5 → c'.queued = c.queued)
              ∧ ∀ q, q < bNrank c.cmd.block → q = c.rank ∨ q = a.rank ∨ (∃ d, (q, d) ∈ c.heard) →
                  ∀ x ∈ shareOf c.cmd.block c.rank q, ∀ l bit, c.cmd.layouts.head? = some l →
                    elemAt l ((unflat l.ext x.2).map (fun (n : Nat) => (n : Int))) = some bit →
                    ∃ y : Piece, (x.1, (pinBits seen c.cmd.pins bit.toNat l.bits).1) ∈ y.elems ∧ y.put = false ∧ y.tgt = q ∧ y.rank = c.rank
                      ∧ y.collid = c.ann.collid ∧ y.kind = blockKind c.cmd.block
                      ∧ ((∃ g ∈ t.net, g.dst = entryPkg (entryAt c.ann.members q) ∧ g.body = .piece y)
                        ∨ (c.op = 5 ∧ ∃ ys, (q, ys) ∈ c'.queued ∧ y ∈ ys))))
      ∧ (∀ group collid rank tgt core, f.body = .withdraw group collid rank tgt core →
        let forgets (t : State) : Prop := SameBytes s t ∧ ∀ g, g ∈ t.anns ↔ g ∈ s.anns ∧
          ∀ a, g.body = .announce a → ¬(a.members = group ∧ a.collid = collid ∧ a.rank = rank ∧ a.tgt = tgt ∧ a.core = core)
        (∀ c, collAt s group collid tgt core = some c → collOf s c.cmd.id = some c → c.fail = none → Completes (.memberWithdraw k) s fun t =>
          forgets t ∧ collOf t c.cmd.id = some { c with fail := some (0x13, 6, rank), queued := [] })
        ∧ (collAt s group collid tgt core = none → Completes (.memberWithdraw k) s fun t => forgets t ∧ t.colls = s.colls))
      ∧ (∀ r, f.body = .row r →
        let T := tileOf (getCore s r.core) r.handle.toNat
        let es := r.elems.map (fun e => (e.r.toNat, e.c.toNat, e.bits.toNat))
        let ok := fits T r.gen es ∧ T.fmt = r.fmt ∧ ∀ e ∈ r.elems, 0 ≤ e.r ∧ 0 ≤ e.c
        r.ranked = false → r.add = false → r.elems ≠ [] →
        (ok → Completes (.remoteRowArrival k) s fun t =>
          SameBytes s t ∧ t.net = dropAt s.net k ∧ ∃ ds, t.deps = s.deps ++ ds ∧ words T ds (fun _ => .write) es
            ∧ (∀ d ∈ ds, d.core = r.core ∧ d.handle = r.handle ∧ d.gen = r.gen) ∧ owes t ds (.rowAck r false))
        ∧ (¬ok → Completes (.remoteRowArrival k) s fun t =>
          SameBytes s t ∧ t.deps = s.deps ∧ answers t (dropAt s.net k) (.rowAck r true))))
    ∧ (∀ c n b g ha r rs, subOf (getCore s c) n = some b →
      b.flights.find? (fun f => match f.effect with
        | .epiRemote _ (_ :: _) => true
        | _ => false) = some g →
      g.effect = .epiRemote ha (r :: rs) → preempting s c g.slot = false →
      egressOk (getCore s c) ((corePart s c).getD 0) (destOf r.dstPkg) = true →
      let due := g.issue + g.late + 8 + (r.srcRow + 1) * ceilDiv r.elems.length 128
      (s.clk < due ∨ rowMeetsFull s r = true ∨ g.stuck = true → Completes (.remoteRowHandoff c n) s fun t => t = s)
      ∧ (due ≤ s.clk → rowMeetsFull s r = false → g.stuck = false → Completes (.remoteRowHandoff c n) s fun t =>
        SameBytes s t ∧ (∃ h, t.net = s.net ++ [h] ∧ h.dst = r.dstPkg ∧ h.body = .row r) ∧ t.rowsOut = s.rowsOut ++ [(s.cmdSeq, r)]
        ∧ ∃ b', subOf (getCore t c) n = some b' ∧ b'.erow = BitVec.ofNat 12 (r.srcRow + 1)
            ∧ ∀ x ∈ b'.flights, x.id = g.id → ∃ y ∈ b.flights,
                x = { y with effect := .epiRemote ha rs, unacked := y.unacked + 1, late := y.late + (s.clk - due) }))
    ∧ ∀ y, nth s.back k = some f → f.body = .piece y →
      (collAt s y.group y.collid y.tgt y.core = none → Completes (.flitReoffer k) s fun t =>
        SameBytes s t ∧ t.back = dropAt s.back k ∧ answers t s.net (.pieceAck y.cmd y.tgt y.last false))
      ∧ ∀ c, collAt s y.group y.collid y.tgt y.core = some c →
        let rival := rowRival { s with back := dropAt s.back k } c s.clk f.src y.srcCore
        (c.rows ≤ (rowsUsed s c).length ∨ rival = true → Completes (.flitReoffer k) s fun t => t = s)
        ∧ ((rowsUsed s c).length < c.rows → rival = false → collOf s c.cmd.id = some c →
          (Completes (.flitReoffer k) s fun t => t.back = dropAt s.back k) ∧ joins (.flitReoffer k) s.net c y)

/-- R237, R258, R263, R271, R343, R344, R352, R354, R357, R360: a turn of a splice command that has its rows and has announced itself. It carries on the first of
the jobs that write its memory destination: one element is written and no other bit changes, one on a page under migration waits with those after it, and after the last the sender is
acknowledged. Of a transposing all-to-all the next piece for a rank goes once none is unacknowledged there. With no job left a command that has failed ends once everything it sent is acknowledged, with its status; one that has not failed ends once its destination is final too;
else nothing changes. The model's own readings (log 41) are these: a failed command takes its announcement back from its peers by a flit of the model's own, or, where members disagree, leaves it to
them and is done with what it has not heard; COUNT is the payload sent under DIRECT; the members pruned of a tree are DETAIL, where R360 has zero. -/
def Obligations.SpliceCommandsEnd : Prop :=
  ∀ (s : State) (k : Nat) (r : Run) (c : Coll),
    let id := r.cmd.id
    let l := c.ann.dst
    let does (P : State → Prop) : Prop := Completes (.commandEnd k) s P
    let now (c' : Coll) (t : State) : Prop :=
      t = { s with mem := t.mem, poison := t.poison, net := t.net, sendSeq := t.sendSeq, cores := t.cores
                   colls := s.colls.map (fun x => if x.cmd.id = id then c' else x) }
      ∧ ∀ p, getCore t p = { getCore s p with journal := (getCore t p).journal }
    let ends (st sub : BitVec 8) (d : Nat) (t : State) : Prop :=
      SameBytes s t ∧ (∀ p i, unitAt t p i = unitAt s p i) ∧ t.deps = s.deps ∧ t.colls = s.colls.filter (fun x => x.cmd.id ≠ id)
      ∧ ∃ n, t.cmds = s.cmds.map (fun z => if z.cmd.id = id then
            { r with worked := true, status := st, sub := sub, detail := d, count := n } else z)
          ∧ (4 ≤ c.op ∨ algOf c.cmd.block = 3 → n = ceilDiv c.sent 8)
    nth s.cmds k = some r → runById s id = some r → r.more = [] → r.worked = false → r.cmd.eng = 2 → collOf s id = some c → c.cmd = r.cmd →
    c.announced = true → c.holds = true → (∀ q y ys, c.fail = none → c.jobs = [] → c.queued = [(q, y :: ys)] → q ∉ c.unacked →
        egressOk (getCore s c.core) c.cmd.part (destOf (entryPkg (entryAt c.ann.members q))) = true → does fun t => SameBytes s t
          ∧ now { c with queued := if ys = [] then [] else [(q, ys)], unacked := c.unacked ++ [q], sent := c.sent + pieceBits c.rank [y] } t
          ∧ ∃ f, t.net = s.net ++ [f] ∧ f.dst = entryPkg (entryAt c.ann.members y.tgt) ∧ f.body = .piece y)
    ∧ (c.queued = [] →
      (∀ j js x xs, c.jobs = j :: js → j.elems = x :: xs →
      let e := elemAt l (dstIndex c.cmd.block l x.1)
      (e = none → does fun t => now { c with jobs := { j with elems := xs } :: js } t ∧ SameBytes s t ∧ t.net = s.net ∧ t.cores = s.cores)
      ∧ (∀ bit, e = some bit → pinsMigrate s c.cmd.pins (bit.toNat / 8) (bytesOver bit.toNat l.bits) = true → does fun t => t = s)
      ∧ ∀ bit, e = some bit → 0 ≤ bit → pinsMigrate s c.cmd.pins (bit.toNat / 8) (bytesOver bit.toNat l.bits) = false → s.poison = [] → s.migs = [] → j.bad.contains x.1 = false →
        (∀ f g a u v, pinPa c.cmd.pins f = some (a, u) → pinPa c.cmd.pins g = some (a, v) → f = g) →
        (∀ i, i < l.bits → ∃ pa leaf, pinPa c.cmd.pins ((bit.toNat + i) / 8) = some (pa, leaf) ∧ inletChan pa = none) →
        does fun t => (∃ out cover, now { c with jobs := { j with elems := xs, out := out, cover := cover } :: js } t) ∧ t.net = s.net ∧ t.cores = s.cores
          ∧ (pinBits t c.cmd.pins bit.toNat l.bits).1 = x.2 % 2 ^ l.bits
          ∧ ∀ a z, z < 8 → (∀ i leaf, i < l.bits → z = (bit.toNat + i) % 8 →
                pinPa c.cmd.pins ((bit.toNat + i) / 8) ≠ some (a, leaf)) →
              (memByte t.mem a).getLsbD z = (memByte s.mem a).getLsbD z)
    ∧ (∀ j js p b, c.jobs = j :: js → j.elems = [] → j.out = [] → j.ack = some (p, b) →
      js ≠ [] ∨ c.unacked ≠ [] → does fun t => now { c with jobs := js } t ∧ SameBytes s t ∧ ∃ f, t.net = s.net ++ [f] ∧ f.dst = p ∧ f.body = b)
    ∧ (c.jobs = [] → c.unacked ≠ [] ∨ (c.fail = none ∧ spliceOver s c = false) → does fun t => t = s)
    ∧ (∀ st sub d, c.jobs = [] → c.unacked = [] → c.fail = some (st, sub, d) → does fun t => ends st sub d t
        ∧ (c.kept = [] → 6 ≤ c.op → t.net = s.net)
        ∧ (c.op ≤ 5 → st = 0x06 → sub = 2 → (c.kept = [] → t.net = s.net) ∧ (c.toHear = [] → t.anns = s.anns ∧ t.spent = s.spent)
          ∧ ∀ q, c.toHear = [q] → if s.anns.any (announces (peerKey c q)) then t.spent = s.spent ∧ t.anns = s.anns.eraseP (announces (peerKey c q))
              else t.anns = s.anns ∧ t.spent = s.spent ++ [peerKey c q])
        ∧ (c.op ≤ 5 → st ≠ 0x06 ∨ sub ≠ 2 → ∀ q ∈ peersOf c.cmd.block, ∃ f ∈ t.net, f.dst = entryPkg (entryAt c.ann.members q)
            ∧ f.body = .retract c.ann.members c.ann.collid c.rank q (entryCore (entryAt c.ann.members q))))
    ∧ (c.fail = none → spliceOver s c = true → does fun t =>
        ends r.status r.sub (if r.status = 0 then c.pruned else r.detail) t ∧ (c.kept = [] → t.net = s.net)))

/-- R356, R357, R359, R386: a port replays, and counts it; after more than sixteen replays in a millisecond it retrains to 112 Gb/s, and at
112 Gb/s it goes down; a link failure takes its port down at once; retraining and a port that goes down signal vector 4. While another
port is up nothing else changes; with the last port a signal not yet acknowledged by another package fails with ENGINE, and the root of a
TREE broadcast that has sent its shares prunes the members of other packages that have not acknowledged theirs, and counts them. -/
def Obligations.PortsFail : Prop :=
  ∀ (s : State) (p : Nat),
    let f := fportOf s p
    let recent := f.replays.filter (fun x => s.tb.tns < x + 1000000)
    let only (t : State) (g : FPort) : Prop :=
      t = { s with fports := t.fports, pfEv := t.pfEv } ∧ fportOf t p = g ∧ ∀ q, q ≠ p → fportOf t q = fportOf s q
    let lost (i : Instr) : Prop :=
      ((∃ q, q < 16 ∧ q ≠ p ∧ (fportOf s q).up = true) → Completes i s fun t =>
        only t { f with up := false, replays := [] } ∧ t.pfEv = s.pfEv ||| 16)
      ∧ ((∀ q, q < 16 → q ≠ p → (fportOf s q).up = false) → ∀ c, s.colls = [c] → c.fail = none →
          let foreign (q : Nat) : Prop := entryPkg (entryAt c.ann.members q) ≠ ownPkg
          (c.op = 7 → c.unacked = [bPeer c.cmd.block] → foreign (bPeer c.cmd.block) → Completes i s fun t =>
            (fportOf t p).up = false ∧ t.colls = [{ c with fail := some (0x0C, 4, bPeer c.cmd.block), queued := [], unacked := [] }])
          ∧ (castRoot c = true → c.announced = true → c.shared = true → c.toHear = [] → c.heard = [] →
            (∀ q ∈ c.unacked, q < bNrank c.cmd.block ∧ q ≠ c.rank) → Completes i s fun t =>
              (fportOf t p).up = false ∧ t.colls = [{ c with
                unacked := c.unacked.filter (fun q => decide (¬foreign q))
                pruned := c.pruned + (List.range (bNrank c.cmd.block)).countP (fun q => decide (q ∈ c.unacked ∧ foreign q)) }]))
    p < 16 → f.up = true →
    (Completes (.linkReplay p) s fun t => only t { f with replays := recent ++ [s.tb.tns] } ∧ t.pfEv = s.pfEv)
    ∧ (f.fast = true → 16 < recent.length → Completes (.linkRetrain p) s fun t =>
        only t { f with fast := false, replays := [] } ∧ t.pfEv = s.pfEv ||| 16)
    ∧ (f.fast = false → 16 < recent.length → lost (.portDown p))
    ∧ (recent.length ≤ 16 → (Completes (.linkRetrain p) s fun t => t = s) ∧ Completes (.portDown p) s fun t => t = s)
    ∧ lost (.linkFailure p)
/-! ## Vector words (R90 to R93, R96, R204 to R230) -/

/-- R23, R90 to R93, R96, R227, R259: a word of the forked vector stream whose fields, tile and shape are right and whose queues the unit owns issues
once its tokens, its tile, its pipe and its rows allow, a VLDT behind the stream's own deposits into what it reads: it is in flight with its operands and VSHAPE as they are now, its tokens are moved, and
the next word follows in the next clock; VNOP only moves its tokens, and gives in its issue clock, which is the model's choice (log 62). A knot that is clear skips it, a condition that does not hold leaves
everything as it was, a field that breaks its limits faults the stream with OPERAND at the word, and a tile it may not name with TILE. Where the checker core disagrees on
the word, CHECK takes the place of everything else (R23, R369). -/
def Obligations.VectorWordsIssue : Prop :=
  ∀ (s : State) (slot : Nat) (w : VWord) (x : VTile) (src knot take give target : BitVec 4) (f : BitVec 16) (course : Bool),
    let c := s.focus.core
    let k := getCore s c
    let u := unitAt s c slot
    let m := k.vec.strm
    let at' := ctxOf s c slot 8 false
    vecSlot k = some slot → plainForked s c slot 8 = true →
    let onward : Strm := { m with pc := m.pc + 1, issueAt := s.clk + 1 }
    let good (v : VIn) : Prop :=
      vinFieldsOk v = true ∧ vinShapeOk u k.vec v 0 m.rotb.toNat = true ∧ ownsQueue k u.uid v.take = true ∧ ownsQueue k u.uid v.give = true
    let tokens (v : VIn) (t : State) : Prop :=
      ∀ q, q < 16 → (tokOf (getCore t c) q).owner = (tokOf k q).owner
        ∧ (tokOf (getCore t c) q).count = (tokOf k q).count - (if v.take ≠ 0xF ∧ v.take.toNat = q then 1 else 0)
            + (if v.op = .nop ∧ v.give ≠ 0xF ∧ v.give.toNat = q then 1 else 0)
        ∧ (tokOf (getCore t c) q).rsv = (tokOf k q).rsv + (if v.op ≠ .nop ∧ v.give ≠ 0xF ∧ v.give.toNat = q then 1 else 0)
    let issues (i : Instr) (v : VIn) (dest : BitVec 4) : Prop :=
      (k.mismatch = true → Completes i s fun t =>
        SameBytes s t ∧ (∀ r, vrow (getCore t c) r = vrow k r) ∧ (getCore t c).mismatch = false
        ∧ (getCore t c).vec.strm = { m with mode := .faulted, cause := 0x0D }
        ∧ (unitAt t c slot).pending = addPending { stream := 8, cause := 0x0D, eval := m.pc.setWidth 64 } u.pending)
      ∧ (k.mismatch = false →
      (good v → (v.knot = 0xF ∨ k.knots.getLsbD v.knot.toNat = true) → vinFault k u at' v = none → tokensReady k v.take v.give = true →
        tileReady k s.clk v = true → loadBehind s at' v = false → pipeFreeAt k.vec v.op ≤ s.clk → vinLanded k u s.clk at' v = true →
        (v.op ≠ .nop → Completes i s fun t =>
          OnlyCore s t c ∧ (∀ j, unitAt t c j = unitAt s c j) ∧ tokens v t
          ∧ getCore t c = { k with
              tokq := (getCore t c).tokq
              vec := { k.vec with
                strm := onward, nextId := k.vec.nextId + 1, flights := k.vec.flights ++ [flightOf k u s.clk at' v dest]
                pipeA := if vclassPipe (vopClass v.op) = some 0 then s.clk + k.vec.rows else k.vec.pipeA
                pipeB := if vclassPipe (vopClass v.op) = some 1 then s.clk + k.vec.rows else k.vec.pipeB } })
        ∧ (v.op = .nop → Completes i s fun t =>
          OnlyCore s t c ∧ (∀ j, unitAt t c j = unitAt s c j) ∧ tokens v t
          ∧ getCore t c = { k with tokq := (getCore t c).tokq, vec := { k.vec with strm := onward } }))
      ∧ (good v → v.knot ≠ 0xF → k.knots.getLsbD v.knot.toNat = false → Completes i s fun t =>
        OnlyCore s t c ∧ getCore t c = { k with vec := { k.vec with strm := onward } })
      ∧ (good v → (v.knot = 0xF ∨ k.knots.getLsbD v.knot.toNat = true) → vinFault k u at' v = none →
        tokensReady k v.take v.give = false ∨ tileReady k s.clk v = false ∨ loadBehind s at' v = true ∨ s.clk < pipeFreeAt k.vec v.op
          ∨ vinLanded k u s.clk at' v = false → Completes i s fun t => t = s)
      ∧ (∀ ev, good v → (v.knot = 0xF ∨ k.knots.getLsbD v.knot.toNat = true) → vinFault k u at' v = some (0x07, ev) →
        Completes i s fun t => StreamFaulted s t slot 8 0x07 ev)
      ∧ (¬good v → Completes i s fun t => StreamFaulted s t slot 8 0x06 (m.pc.setWidth 64)))
    (∀ p ∈ ([(.vadd w, .add), (.vsub w, .sub), (.vmul w, .mul), (.vfma w, .fma), (.vfms w, .fms), (.vnfma w, .nfma), (.vmin w, .min),
        (.vmax w, .max), (.vabs w, .abs), (.vneg w, .neg), (.vscale w, .scale), (.vrcp w, .rcp), (.vrsq w, .rsq), (.vexp2 w, .exp2),
        (.vlog2 w, .log2), (.vtanh w, .tanh), (.vsigm w, .sigm), (.vsinpi w, .sinpi), (.vcospi w, .cospi)] : List (Instr × VOp)),
      issues p.1 (vinOf p.2 0 w) 0)
    ∧ (∀ p ∈ ([(.vand w, .and), (.vor w, .or), (.vxor w, .xor), (.vnot w, .not), (.vshl w, .shl), (.vshr w, .shr), (.vsra w, .sra),
        (.vclmul w, .clmul), (.vclmulh w, .clmulh), (.vpopc w, .popc), (.vcmpeq w, .cmpeq), (.vcmplt w, .cmplt), (.vcmple w, .cmple),
        (.vsel w, .sel), (.vclass w, .cls), (.vrnd w, .rnd), (.vrsum w, .rsum), (.vrmax w, .rmax), (.vrmin w, .rmin),
        (.vrarg w, .rarg), (.vcsum w, .csum)] : List (Instr × VOp)), issues p.1 (vinOf p.2 0 w) 0)
    ∧ (∀ p ∈ ([(.vmov w, .mov), (.vbcastElem w, .bcastElem), (.vbcastRow0 w, .bcastRow0), (.vtrn w, .trn), (.vrot w, .rot),
        (.vpackCat w, .packCat), (.vpackZip w, .packZip), (.vunpkLo w, .unpkLo), (.vunpkHi w, .unpkHi), (.vunpkEven w, .unpkEven),
        (.vunpkOdd w, .unpkOdd), (.vperm w, .perm)] : List (Instr × VOp)), issues p.1 (vinOf p.2 0 w) 0)
    ∧ issues (.vcvt src w) (vinOf .cvt src w) 0
    ∧ issues (.vldt x) (vinTile .ldt x) 0 ∧ issues (.vstt x) (vinTile .stt x) 0
    ∧ issues (.vknotAny target f course) (vinCtl .knotAny f 0xF 0xF 0xF course) target
    ∧ issues (.vknotAll target f course) (vinCtl .knotAll f 0xF 0xF 0xF course) target
    ∧ issues (.vnop knot take give course) (vinCtl .nop 0 knot take give course) 0

/-- R97, R100 to R104, R110, R113, R206: the control words of the forked vector stream take one clock: VSHAPE sets ROWS and LANES, VLOOP
a counter, a branch goes to its target by its knot or by its counter counted down, VBR.END stops the stream, VKNOT.SET and VKNOT.CLR
write a knot for the next clock, VWAIT waits for its knot or for the words and rows in flight, REP makes the next word repeat, and VMOD begins
its loop, passes over a body of no trips, or faults with OPERAND. -/
def Obligations.VectorControlWords : Prop :=
  ∀ (s : State) (slot : Nat) (rows len ii : BitVec 6) (lanes : BitVec 5) (lc : BitVec 2) (value : BitVec 16) (knot : BitVec 4)
      (target : BitVec 13) (sense course : Bool),
    let c := s.focus.core
    let k := getCore s c
    let m := k.vec.strm
    vecSlot k = some slot → plainForked s c slot 8 = true → k.mismatch = false →
    let sets (i : Instr) (m' : Strm) : Prop := Completes i s fun t =>
      OnlyCore s t c ∧ getCore t c = { k with vec := { k.vec with strm := { m' with issueAt := s.clk + 1 } } }
    let next : Strm := { m with pc := m.pc + 1 }
    let goTo : Strm := { m with pc := target.setWidth 14 }
    let lcs (n : BitVec 2) (v : BitVec 16) (y : Strm) : Strm :=
      if n = 0 then { y with lc0 := v } else if n = 1 then { y with lc1 := v } else if n = 2 then { y with lc2 := v } else { y with lc3 := v }
    let lcv (n : BitVec 2) : BitVec 16 := if n = 0 then m.lc0 else if n = 1 then m.lc1 else if n = 2 then m.lc2 else m.lc3
    let set := k.knots.getLsbD knot.toNat
    let faults (i : Instr) : Prop := Completes i s fun t => StreamFaulted s t slot 8 0x06 (m.pc.setWidth 64)
    (Completes (.vshape rows lanes course) s fun t => OnlyCore s t c ∧ getCore t c = { k with vec := { k.vec with
        rows := rows.toNat + 1, lanes := lanes.toNat + 1, strm := { next with issueAt := s.clk + 1 } } })
    ∧ sets (.vloop lc false value course) (lcs lc value next)
    ∧ (value.toNat < 4 → sets (.vloop lc true value course) (lcs lc (lcv (value.setWidth 2)) next))
    ∧ (4 ≤ value.toNat → faults (.vloop lc true value course))
    ∧ sets (.vbrAlways target course) goTo
    ∧ sets (.vbrKset knot target course) (if set = true then goTo else next)
    ∧ sets (.vbrKclr knot target course) (if set = true then next else goTo)
    ∧ sets (.vbrLoop lc target course) (lcs lc (lcv lc - 1) (if lcv lc - 1 = 0 then next else goTo))
    ∧ sets (.vbrEnd course) { m with mode := if inFlight k 8 = true then .stopping else .idle }
    ∧ (∀ p ∈ ([(.vknotSet knot course, true), (.vknotClr knot course, false)] : List (Instr × Bool)), Completes p.1 s fun t =>
        OnlyCore s t c ∧ getCore t c = { k with
          vec := { k.vec with strm := { next with issueAt := s.clk + 1 } }
          knotw := k.knotw ++ [{ due := s.clk + 1, order := 0, knot := knot, value := p.2 }] })
    ∧ (if set = true then sets (.vwaitSet knot course) next else Completes (.vwaitSet knot course) s fun t => t = s)
    ∧ (if set = true then Completes (.vwaitClr knot course) s (fun t => t = s) else sets (.vwaitClr knot course) next)
    ∧ (if inFlight k 8 = true then Completes (.vwaitDrain course) s (fun t => t = s) else sets (.vwaitDrain course) next)
    ∧ sets (.rep rows course) { next with repn := rows.setWidth 7 + 1, repcnt := rows.setWidth 7 + 1 }
    ∧ (let L := len.toNat + 1
      let I := ii.toNat + 1
      let body := (span (m.pc.toNat + 1) L).map (rawWord k 8)
      let opc (x : Nat) : Nat := (nth body x).getD 0 / 2 ^ 88 % 256
      let clash := ∃ a b, a < b ∧ b < L ∧ a % I = b % I ∧ opc a ≠ 0x77 ∧ opc b ≠ 0x77
      let inner := ∃ a, a < L ∧ 0x70 ≤ opc a ∧ opc a ≤ 0x76
      let bad := L < I ∨ 8191 < m.pc.toNat + L ∨ inner ∨ clash
      let loop (T : Nat) (ctr : Option (BitVec 2)) : ModState :=
        { len := L, ii := I, tcur := T, t := 0, exk := knot, exs := sense, ctr := ctr, begun := false, body := body }
      k.badWords = [] →
      (bad ∨ 4 ≤ value.toNat → faults (.vmod len ii true value knot sense course))
      ∧ (bad → faults (.vmod len ii false value knot sense course))
      ∧ (¬bad → value = 0 → sets (.vmod len ii false value knot sense course) { m with pc := m.pc + 1 + BitVec.ofNat 14 L })
      ∧ (¬bad → value ≠ 0 → sets (.vmod len ii false value knot sense course) { m with mod := some (loop value.toNat none) })
      ∧ (¬bad → value.toNat < 4 → lcv (value.setWidth 2) = 0 →
          sets (.vmod len ii true value knot sense course) { m with pc := m.pc + 1 + BitVec.ofNat 14 L })
      ∧ (¬bad → value.toNat < 4 → lcv (value.setWidth 2) ≠ 0 →
          sets (.vmod len ii true value knot sense course)
            { m with mod := some (loop (lcv (value.setWidth 2)).toNat (some (value.setWidth 2))) }))

/-- R63, R91, R95, R97, R204, R208, R210 to R226, R228, R229, R373: the row that is due first lands: its active elements are what its operation makes of its source
rows, the elements beyond keep their bits, and no other row changes; a special function's value is the model's own correct rounding, its table's
edges and VRCP's quotient stated outright; VLDT's row is what its tile row holds. A row write of a latency shadow lands first, in the lanes it names.
 VSTT's row becomes deposits of its active words into its tile,
and VKNOT.ANY and VKNOT.ALL write their knot. Once no row is due, a source row of a word that reads T2 elements is checked in its read
clock: the reserved code ends the word's writes before that row and faults the stream with OPERAND; no row changes. -/
def Obligations.RowsLand : Prop :=
  ∀ (s : State) (c : Nat) (f : VFlight),
    let k := getCore s c
    let t' := f.typ
    let n := fmtBits t'
    let i := f.next
    let E := 32 * f.lanes / n
    let row (o : Opnd) (ty : Fmt) : Row := opndRow k o ty i (f.issue + i)
    let a (j : Nat) : Nat := (row f.a t').toNat / 2 ^ (n * j) % 2 ^ n
    let b (j : Nat) : Nat := (row f.b t').toNat / 2 ^ (n * j) % 2 ^ n
    let d (j : Nat) : Nat := (row f.c t').toNat / 2 ^ (n * j) % 2 ^ n
    let col (r j : Nat) : Nat := (opndRow k f.a t' r (f.issue + r)).toNat / 2 ^ (n * j) % 2 ^ n
    let A (j : Nat) := floatVal t' (a j)
    let B (j : Nat) := floatVal t' (b j)
    let float := fmtFloat t' = true
    let C (j : Nat) := floatVal t' (d j)
    let V (j : Nat) := elemVal t' (a j)
    let I (j : Nat) := intVal t' (a j)
    let rnd := roundFloat t' f.rnd f.sat
    let ty := f.src.getD .f32
    let wide := max n (fmtBits ty)
    let best (l : Nat) (before : Nat → Nat → Prop) : Prop := l < E ∧ ∀ h, h < E → ¬before l h
    (∀ w, nextShadow k s.clk = some w → Completes (.rowLanding c) s fun t =>
        OnlyCore s t c ∧ (∀ j, unitAt t c j = unitAt s c j) ∧ (∀ r, r ≠ w.row → vrow (getCore t c) r = vrow k r)
        ∧ (getCore t c).vec.shadow = k.vec.shadow.erase w
        ∧ ∀ l, l < 32 → (vrow (getCore t c) w.row).extractLsb' (32 * l) 32
            = (if w.lanes.getLsbD l then w.value else vrow k w.row).extractLsb' (32 * l) 32)
    ∧ (nextShadow k s.clk = none → nextLanding k s.clk = some f → f.lanes ≤ 32 →
    (∀ key, rowKey f.dst i = some key → vopWrites f.op = true → Completes (.rowLanding c) s fun t =>
        OnlyCore s t c ∧ (∀ j, unitAt t c j = unitAt s c j) ∧ (∀ r, r ≠ key → vrow (getCore t c) r = vrow k r)
        ∧ (f.op ≠ .ldt → f.op ≠ .cvt → (vrow (getCore t c) key).toNat / 2 ^ (n * E) = (vrow k key).toNat / 2 ^ (n * E))
        ∧ ∀ j, j < E →
          let got := (vrow (getCore t c) key).toNat / 2 ^ (n * j) % 2 ^ n
          (f.op = .and → got = a j &&& b j) ∧ (f.op = .or → got = a j ||| b j) ∧ (f.op = .xor → got = a j ^^^ b j)
          ∧ (f.op = .not → got = 2 ^ n - 1 - a j)
          ∧ (f.op = .shl → got = if b j < n then a j * 2 ^ b j % 2 ^ n else 0)
          ∧ (f.op = .shr → got = if b j < n then a j / 2 ^ b j else 0)
          ∧ (f.op = .sra → signedNat n got = signedNat n (a j) / 2 ^ min (b j) n)
          ∧ (f.op = .clmul → got = (List.range n).foldl (fun x q => if (b j).testBit q then x ^^^ a j * 2 ^ q else x) 0 % 2 ^ n)
          ∧ (f.op = .clmulh → got = (List.range n).foldl (fun x q => if (b j).testBit q then x ^^^ a j * 2 ^ q else x) 0 / 2 ^ n)
          ∧ (f.op = .popc → got = ((List.range n).filter (fun q => (a j).testBit q)).length)
          ∧ (f.op = .sel → got = if d j ≠ 0 then a j else b j)
          ∧ (let x := V j
            let y := elemVal t' (b j)
            let ones (p : Prop) : Prop := (p → got = 2 ^ n - 1) ∧ (¬p → got = 0)
            let number := isNan x = false ∧ isNan y = false
            (f.op = .cmpeq → ones (number ∧ xeq x y = true)) ∧ (f.op = .cmplt → ones (number ∧ xlt x y = true))
            ∧ (f.op = .cmple → ones (number ∧ (xlt x y = true ∨ xeq x y = true))))
          ∧ (f.op = .cls → got = (match A j with
              | .nan => 8
              | .inf neg => if neg then 0 else 7
              | .fin neg p _ => if p = 0 then (if neg then 3 else 4)
                  else if a j / 2 ^ (fparams t').1 % 2 ^ (fparams t').2.1 = 0 then (if neg then 2 else 5) else (if neg then 1 else 6)) % 2 ^ n)
          ∧ (f.op = .mov → got = a j) ∧ (f.op = .bcastElem → got = a 0) ∧ (f.op = .bcastRow0 → got = col 0 j)
          ∧ (f.op = .trn → got = if j < f.rows then col j i else (vrow k key).toNat / 2 ^ (n * j) % 2 ^ n)
          ∧ (f.op = .rot → ∀ r : Int, r = (if f.b.level = 3 then (constInt f.b.base).getD 0 else signedNat n (b 0)) → got = a ((j + r) % E).toNat)
          ∧ (f.op = .perm → ∀ z : Nat, z = (if f.b.level = 3 then (match constInt f.b.base with
                | some v => if v < 0 then E else v.toNat
                | none => E) else b j) → got = if z < E then a z else 0)
          ∧ (f.op = .packCat → got = if j < E / 2 then a j else b (j - E / 2))
          ∧ (f.op = .packZip → got = if j % 2 = 0 then a (j / 2) else b (j / 2))
          ∧ (f.op = .unpkLo → got = if j < E / 2 then a j else 0) ∧ (f.op = .unpkHi → got = if j < E / 2 then a (j + E / 2) else 0)
          ∧ (f.op = .unpkEven → got = if j < E / 2 then a (2 * j) else 0)
          ∧ (f.op = .unpkOdd → got = if j < E / 2 then a (2 * j + 1) else 0)
          ∧ (float → f.op = .add → got = rnd (xadd f.rnd (A j) (B j)) % 2 ^ n)
          ∧ (float → f.op = .sub → got = rnd (xadd f.rnd (A j) (xneg (B j))) % 2 ^ n)
          ∧ (float → f.op = .min → got = rnd (if isNan (A j) ∨ isNan (B j) then .nan else if xltStrict (B j) (A j) then B j else A j) % 2 ^ n)
          ∧ (float → f.op = .max → got = rnd (if isNan (A j) ∨ isNan (B j) then .nan else if xltStrict (A j) (B j) then B j else A j) % 2 ^ n)
          ∧ (float → f.op = .abs → got = rnd (xabs (A j)) % 2 ^ n) ∧ (float → f.op = .neg → got = rnd (xneg (A j)) % 2 ^ n)
          ∧ (float → f.op = .mul → got = rnd (xmul (A j) (B j)) % 2 ^ n)
          ∧ (f.op = .fma → got = rnd (xadd f.rnd (xmul (A j) (B j)) (C j)) % 2 ^ n)
          ∧ (f.op = .fms → got = rnd (xadd f.rnd (xmul (A j) (B j)) (xneg (C j))) % 2 ^ n)
          ∧ (f.op = .nfma → got = rnd (xadd f.rnd (xneg (xmul (A j) (B j))) (C j)) % 2 ^ n)
          ∧ (f.op = .scale → (isNan (A j) ∨ isNan (B j) → got = canonNan t' % 2 ^ n)
            ∧ ∀ e : Int, isNan (B j) = false → e = scaleAmount (B j) → (∀ neg, A j = .inf neg → got = rnd (.inf neg) % 2 ^ n)
              ∧ ∀ neg p q, A j = .fin neg p q → got = rnd (.fin neg (p * 2 ^ e.toNat) (q * 2 ^ (-e).toNat)) % 2 ^ n)
          ∧ (f.op ∈ ([.rcp, .rsq, .exp2, .log2, .tanh, .sigm, .sinpi, .cospi] : List VOp) →
            got = special f.op t' f.rnd f.sat (A j) % 2 ^ n ∧ (A j = .nan → got = canonNan t' % 2 ^ n))
          ∧ (let one : XVal := .fin false 1 1
            let zero (neg : Bool) : XVal := .fin neg 0 1
            ∀ e ∈ ([(.rcp, zero true, .inf true, .inf false, zero false), (.rsq, .nan, .inf true, .inf false, zero false),
                (.exp2, zero false, one, one, .inf false), (.log2, .nan, .inf true, .inf true, .inf false),
                (.tanh, .fin true 1 1, zero true, zero false, one), (.sigm, zero false, .fin false 1 2, .fin false 1 2, one),
                (.sinpi, .nan, zero true, zero false, .nan), (.cospi, .nan, one, one, .nan)] : List (VOp × XVal × XVal × XVal × XVal)),
              f.op = e.1 → (A j = .inf true → got = rnd e.2.1 % 2 ^ n) ∧ (∀ q, A j = .fin true 0 q → got = rnd e.2.2.1 % 2 ^ n)
                ∧ (∀ q, A j = .fin false 0 q → got = rnd e.2.2.2.1 % 2 ^ n) ∧ (A j = .inf false → got = rnd e.2.2.2.2 % 2 ^ n))
          ∧ (f.op = .rcp → ∀ neg p q, A j = .fin neg p q → p ≠ 0 → got = rnd (.fin neg q p) % 2 ^ n)
          ∧ (f.op = .rnd → (∀ neg p q, A j = .fin neg p q → got = roundFloat t' 0 f.sat (.fin neg (roundInt f.rnd neg p q).natAbs 1) % 2 ^ n)
            ∧ ((∀ neg p q, A j ≠ .fin neg p q) → got = roundFloat t' 0 f.sat (A j) % 2 ^ n))
          ∧ (¬float → f.op = .add → got = packInt t' f.sat (intVal t' (a j) + intVal t' (b j)) % 2 ^ n)
          ∧ (¬float → f.op = .sub → got = packInt t' f.sat (intVal t' (a j) - intVal t' (b j)) % 2 ^ n)
          ∧ (¬float → f.op = .mul → got = packInt t' f.sat (intVal t' (a j) * intVal t' (b j)) % 2 ^ n)
          ∧ (¬float → f.op = .max → got = packInt t' f.sat (max (intVal t' (a j)) (intVal t' (b j))) % 2 ^ n)
          ∧ (¬float → f.op = .abs → got = packInt t' f.sat (intVal t' (a j)).natAbs % 2 ^ n)
          ∧ (¬float → f.op = .neg → got = packInt t' f.sat (-intVal t' (a j)) % 2 ^ n)
          ∧ (¬float → f.op = .min → got = packInt t' f.sat (min (intVal t' (a j)) (intVal t' (b j))) % 2 ^ n)
          ∧ (f.op = .rmax → ¬float → 0 < E → ∃ l, best l (fun l h => I l < I h) ∧ got = packInt t' false (I l) % 2 ^ n)
          ∧ (f.op = .rmin → ¬float → 0 < E → ∃ l, best l (fun l h => I h < I l) ∧ got = packInt t' false (I l) % 2 ^ n)
          ∧ (f.op = .rmax ∨ f.op = .rmin → float → (∃ h, h < E ∧ isNan (A h) = true) → got = canonNan t' % 2 ^ n)
          ∧ (f.op = .rmax → float → 0 < E → (∀ h, h < E → isNan (A h) = false) →
              ∃ l, best l (fun l h => xltStrict (A l) (A h) = true) ∧ got = roundFloat t' 0 false (A l) % 2 ^ n)
          ∧ (f.op = .rmin → float → 0 < E → (∀ h, h < E → isNan (A h) = false) →
              ∃ l, best l (fun l h => xltStrict (A h) (A l) = true) ∧ got = roundFloat t' 0 false (A l) % 2 ^ n)
          ∧ (f.op = .rarg → ∃ l, l < E ∧ got = l % 2 ^ n ∧ ((isNan (V l) = true ∧ ∀ h, h < l → isNan (V h) = false)
              ∨ ((∀ h, h < E → isNan (V h) = false) ∧ (∀ h, h < E → xltStrict (V l) (V h) = false)
                ∧ ∀ h, h < l → ∃ g, g < E ∧ xltStrict (V h) (V g) = true)))
          ∧ (f.op = .rsum → ¬float → got = packInt t' f.sat ((List.range E).map I).sum % 2 ^ n)
          ∧ (f.op = .rsum → float → ∃ T : Nat → Nat → Nat,
              (∀ h, T 0 h = if h < E then deliver .f32 0 false (A h) else 0)
              ∧ (∀ m h, T (m + 1) h = f32Add (T m (2 * h)) (floatVal .f32 (T m (2 * h + 1))))
              ∧ ∀ m, E ≤ 2 ^ m → (∀ m', m' < m → 2 ^ m' < E) → got = rnd (floatVal .f32 (T m 0)) % 2 ^ n)
          ∧ (f.op = .csum → ¬float → got = packInt t' f.sat ((List.range f.rows).map (fun r => intVal t' (col r j))).sum % 2 ^ n)
          ∧ (f.op = .csum → float → ∃ T : Nat → Nat, T 0 = deliver .f32 0 false (floatVal t' (col 0 j))
              ∧ (∀ r, T (r + 1) = f32Add (T r) (floatVal t' (col (r + 1) j))) ∧ got = rnd (floatVal .f32 (T (f.rows - 1))) % 2 ^ n))
    ∧ (∀ key, rowKey f.dst i = some key → f.op = .cvt → Completes (.rowLanding c) s fun t =>
        let old := (vrow k key).toNat
        let new := (vrow (getCore t c) key).toNat
        let cnt := 32 * f.lanes / wide
        (∀ j, j < cnt → new / 2 ^ (n * j) % 2 ^ n = convert ty t' f.rnd f.sat ((row f.a ty).toNat / 2 ^ (fmtBits ty * j) % 2 ^ fmtBits ty) % 2 ^ n)
        ∧ new / 2 ^ (n * cnt) = old / 2 ^ (n * cnt))
    ∧ (∀ key, rowKey f.dst i = some key → f.op = .ldt → Completes (.rowLanding c) s fun t =>
        let old := (vrow k key).toNat
        let new := (vrow (getCore t c) key).toNat
        (∀ l, l < f.lanes →
          let at_ := 128 * f.tseg + 4 * l
          let lane := (tileWordAt k f.tile (((f.trow + i) * pitch f.tile + at_) / 4) (f.issue + i)).toNat
          new / 2 ^ (32 * l) % 2 ^ 32 = if rowBytes f.tile ≤ at_ then 0 else lane % 2 ^ (8 * min 4 (rowBytes f.tile - at_)))
        ∧ new / 2 ^ (32 * f.lanes) = old / 2 ^ (32 * f.lanes))
    ∧ (f.op = .stt → Completes (.rowLanding c) s fun t =>
        SameBytes s t ∧ (∀ r, vrow (getCore t c) r = vrow k r) ∧ ∃ ds, t.deps = s.deps ++ ds
          ∧ (∀ x ∈ ds, x.core = c ∧ x.handle = f.handle ∧ x.gen = f.gen ∧ x.kind = .write)
          ∧ ∀ l, l < f.lanes → 128 * f.tseg + 4 * l + 4 ≤ rowBytes f.tile → ∃ x ∈ ds,
              x.word = ((f.trow + i) * pitch f.tile + 128 * f.tseg + 4 * l) / 4 ∧ x.mask = BitVec.allOnes 32
              ∧ x.data = (row f.a t').extractLsb' (32 * l) 32)
    ∧ (f.op = .knotAny ∨ f.op = .knotAll → Completes (.rowLanding c) s fun t =>
        OnlyCore s t c ∧ (∀ r, vrow (getCore t c) r = vrow k r)
        ∧ (let byte (r j : Nat) : BitVec 8 := (opndRow k f.a .f32 r (f.issue + r)).extractLsb' (8 * j) 8
          let any := ∃ r j, r < f.rows ∧ j < 4 * f.lanes ∧ byte r j ≠ 0
          let all := ∀ r j, r < f.rows → j < 4 * f.lanes → byte r j ≠ 0
          ∃ v, (getCore t c).knotw = k.knotw ++ [{ due := f.issue + f.rows, order := 0, knot := f.knot, value := v }]
            ∧ (v = true ↔ if f.op = .knotAny then any else all))))
    ∧ (nextShadow k s.clk = none → nextLanding k s.clk = none → nextCheck k s.clk = some f →
      (readsReserved k f f.checked = false → Completes (.rowLanding c) s fun t =>
        OnlyCore s t c ∧ (∀ j, unitAt t c j = unitAt s c j) ∧ (∀ r, vrow (getCore t c) r = vrow k r)
        ∧ ∀ g ∈ (getCore t c).vec.flights, g.id = f.id → g = { f with checked := f.checked + 1 })
      ∧ (readsReserved k f f.checked = true → vecSlot k = some f.slot → k.vec.strm.mode = .forked → Completes (.rowLanding c) s fun t =>
        SameBytes s t ∧ t.deps = s.deps ∧ (∀ r, vrow (getCore t c) r = vrow k r)
        ∧ (∀ g ∈ (getCore t c).vec.flights, g.id = f.id → g = { f with last := f.checked })
        ∧ (getCore t c).vec.strm = { k.vec.strm with mode := .faulted, cause := 0x06 }
        ∧ (unitAt t c f.slot).pending =
            addPending { stream := 8, cause := 0x06, eval := f.pc.setWidth 64 } (unitAt s c f.slot).pending))
/-! ## Courses, repeats, modulo loops and decode faults (R19, R21, R105 to R107, R111, R113, R364) -/

/-- R87, R105, R106, R107, R109, R364: a course issues one word of every stream of the group, each moved past its word, or none of them: a
fault of the first stream that has one is raised, a word not ready waits, and branches that differ break the schedule. A stream in a
modulo loop gives its slot to the course. A VWAIT ends the bound run, and a group that is to leave issues no further course. R113, R114: a REP step issues the repeated word with its step, and a control word there faults. R110, R111: a slot of a
modulo loop issues its body word, a slot without one passes, and after the last the loop ends. R19, R21: a word that is no
instruction, or that cannot be fetched, raises ILLEGAL or FETCH in its stream. -/
def Obligations.SequencersStep : Prop :=
  ∀ (s : State) (core slot : Nat),
    let k := getCore s core
    let u := unitAt s core slot
    (vecSlot k = some slot → u.leaving = true → Completes (.courseIssue core) s fun t => t = s)
    ∧ (vecSlot k = some slot → groupMayIssue s core slot = true → courseStops s core slot = false → u.leaving = false →
      let leave := endsCourse (fetchWord k 8 k.vec.strm.pc.toNat)
      let b := beginCourse core slot (maskStreams u.group) s
      let x := courseActs core slot leave (maskStreams u.group) { state := b, acts := [] }
      ((∀ n ∈ maskStreams u.group, (strmOf k u.uid n).mod = none) → b = s)
      ∧ (∀ c cause eval, courseFault x.acts = some (c, cause, eval) → cause ≠ 0x0D → cause ≠ 0x0E →
        Completes (.courseIssue core) s fun t => StreamFaultedAt b t core slot c.strm cause eval)
      ∧ (courseFault x.acts = none → courseWaits x.acts = true → Completes (.courseIssue core) s fun t => t = b)
      ∧ (courseFault x.acts = none → courseWaits x.acts = false → branchesDiffer x.acts = true →
        Completes (.courseIssue core) s fun t => StreamFaultedAt b t core slot 8 0x09 (k.vec.strm.pc.setWidth 64))
      ∧ (courseFault x.acts = none → courseWaits x.acts = false → branchesDiffer x.acts = false → courseViol x.acts = none →
        Completes (.courseIssue core) s fun t =>
          SameBytes s t ∧ x.acts.map (fun a => a.1.strm) = maskStreams u.group
          ∧ (∀ a ∈ x.acts,
              let m := strmOf (getCore t core) u.uid a.1.strm
              let z := strmOf (getCore b core) u.uid a.1.strm
              (z.mod = none → m.pc = (match a.2.2 with
                | .go _ _ (some n) => n
                | _ => z.pc + 1))
              ∧ (z.mod ≠ none → a.2.2 = .skipped → m.pc = (slotAdv none z).pc ∧ m.mod = (slotAdv none z).mod)
              ∧ m.mode = (if leave = true then .forked else .bound) ∧ m.issueAt = s.clk + actOcc a.2.2 + actStretch b a
              ∧ (a.1.strm ≠ 8 → m.stampoff = if leave = true then 0
                  else (strmOf k u.uid a.1.strm).stampoff + BitVec.ofNat 40 (courseStretch b x.acts)))
          ∧ unitAt t core slot = { u with group := if leave = true then 0 else u.group }
          ∧ (∀ c i, c ≠ core ∨ i ≠ slot → unitAt t c i = unitAt s c i) ∧ ∀ c, c ≠ core → getCore t c = getCore s c))
    ∧ (let m := k.vec.strm
      let at' := ctxOf s core slot 8 false
      vecSlot k = some slot → mayIssue s core slot 8 = true → m.mode = .forked → m.mod = none → m.repcnt ≠ 0 → k.mismatch = false →
      let w := rawWord k 8 m.pc.toNat
      let onward : Strm := { m with
        repcnt := m.repcnt - 1, issueAt := s.clk + 1, pc := if m.repcnt = 1 then m.pc + 1 else m.pc }
      (m.pc.toNat < 8192 → 0x70 ≤ w / 2 ^ 88 % 256 → w / 2 ^ 88 % 256 ≤ 0x76 →
        Completes (.repStep core) s fun t => StreamFaultedAt s t core slot 8 0x06 (m.pc.setWidth 64))
      ∧ ∀ (i : Instr) (v : VIn) (dest : BitVec 4), fetchWord k 8 m.pc.toNat = .instr i → vinOfInstr i = some (v, dest) →
        (w / 2 ^ 88 % 256 < 0x70 ∨ 0x76 < w / 2 ^ 88 % 256) → loadBehind s at' v = false → v.op ≠ .nop → v.take = 0xF → v.give = 0xF →
        vinFieldsOk v = true → vinShapeOk u k.vec v (m.repn.toNat - m.repcnt.toNat) m.rotb.toNat = true → vinFault k u at' v = none →
        (v.knot ≠ 0xF → k.knots.getLsbD v.knot.toNat = false → Completes (.repStep core) s fun t =>
          OnlyCore s t core ∧ getCore t core = { k with vec := { k.vec with strm := onward } })
        ∧ ((v.knot = 0xF ∨ k.knots.getLsbD v.knot.toNat = true) → tileReady k s.clk v = true → pipeFreeAt k.vec v.op ≤ s.clk →
          vinLanded k u s.clk at' v = true → Completes (.repStep core) s fun t =>
            OnlyCore s t core ∧ (∀ j, unitAt t core j = unitAt s core j) ∧ (getCore t core).vec.strm = onward
            ∧ (getCore t core).vec.flights = k.vec.flights ++ [flightOf k u s.clk at' v dest]))
    ∧ (∀ (n : Nat) (x : ModState),
      let m := strmOf k u.uid n
      let step := x.begun = false ∧ x.t % x.ii = 0
      let stops := x.t / x.ii < x.tcur ∧ x.exk ≠ 0xF ∧ k.knots.getLsbD x.exk.toNat = x.exs
      let y : ModState := { x with begun := true, tcur := if step ∧ stops then x.t / x.ii else x.tcur }
      let begun : Strm := { m with rotb := if step ∧ n = 8 ∧ 0 < x.t / x.ii then m.rotb - 1 else m.rotb, mod := some y }
      let lcs (r : BitVec 2) (v : BitVec 16) (z : Strm) : Strm :=
        if r = 0 then { z with lc0 := v } else if r = 1 then { z with lc1 := v } else if r = 2 then { z with lc2 := v }
        else { z with lc3 := v }
      let last := y.t + y.ii + 1 ≥ y.tcur * y.ii + y.len
      let ended : Strm := { m with mod := none, rotb := 0, pc := m.pc + 1 + BitVec.ofNat 14 x.len }
      let past : Strm :=
        if last then (match x.ctr with
          | some r => lcs r (BitVec.ofNat 16 y.tcur) ended
          | none => ended)
        else { begun with mod := some { y with t := x.t + 1, begun := false } }
      n ≤ 8 → (if n = 8 then vecSlot k = some slot else matSlot k n = some slot) → mayIssue s core slot n = true → m.mode = .forked →
      m.mod = some x →
      (slotWord n y = none → Completes (.moduloSlot core n) s fun t =>
        OnlyCore s t core ∧ (∀ j, unitAt t core j = unitAt s core j) ∧ (∀ j, j ≠ n → strmOf (getCore t core) u.uid j = strmOf k u.uid j)
        ∧ strmOf (getCore t core) u.uid n = { past with issueAt := s.clk + 1 })
      ∧ ∀ (b : Nat) (i : Instr) (v : VIn) (dest : BitVec 4),
        let at' := { ctxOf s core slot 8 false with pc := m.pc + 1 + BitVec.ofNat 14 b, rotb := begun.rotb.toNat, step := 0 }
        n = 8 → k.mismatch = false → slotWord 8 y = some b → fetchRaw 8 ((nth x.body b).getD 0) = .instr i → vinOfInstr i = some (v, dest) → v.op ≠ .nop →
        loadBehind s at' v = false → v.knot = 0xF → v.take = 0xF → v.give = 0xF → vinFieldsOk v = true → vinShapeOk u k.vec v 0 begun.rotb.toNat = true →
        vinFault k u at' v = none → tileReady k s.clk v = true → pipeFreeAt k.vec v.op ≤ s.clk → vinLanded k u s.clk at' v = true →
        Completes (.moduloSlot core n) s fun t =>
          OnlyCore s t core ∧ (∀ j, unitAt t core j = unitAt s core j) ∧ (getCore t core).vec.strm = { past with issueAt := s.clk + 1 }
          ∧ (getCore t core).vec.flights = k.vec.flights ++ [flightOf k u s.clk at' v dest])
    ∧ (scalarRuns s = true →
      let v := getUnit s
      (Completes (.illegal .scalar) s fun t => Raises s t 0x01 0 v.pc) ∧ Completes (.fetch .scalar) s fun t => Raises s t 0x0F v.pc v.pc)
    ∧ ∀ (st : Stream) (n : Nat), core = s.focus.core → (st = .vector ∧ n = 8 ∧ vecSlot k = some slot ∧ k.mismatch = false)
        ∨ (st = .matrix ∧ n = s.focus.sub ∧ n < 8 ∧ matSlot k n = some slot) →
      mayIssue s core slot n = true → (strmOf k u.uid n).mode = .forked → (strmOf k u.uid n).mod = none →
      (Completes (.illegal st) s fun t => StreamFaultedAt s t core slot n 0x01 ((strmOf k u.uid n).pc.setWidth 64))
      ∧ Completes (.fetch st) s fun t => StreamFaultedAt s t core slot n 0x0F ((strmOf k u.uid n).pc.setWidth 64)

/-! ## Matrix words (R90, R93, R96, R100 to R104, R109, R110, R183 to R203) -/

/-- R90, R93, R96, R109, R186, R188 to R200, R302: a matrix data word of a forked stream is checked in one order: its fields and queues,
its stamp, its knot, its operands, and then what it needs; unstamped it waits for that, stamped it raises SCHEDMISS. It issues into its
sub-array's words in flight and replay window with its retirement clock, moves its tokens, and occupies the sequencer for its clocks
and the throttle's. MSWAP exchanges the weight sets; MLDW holds the load port; MMAC adds to its elements of the pool the products of
its activations and weights in ascending depth, as 32-bit integers or in F32 by R78; MEPI makes its rows deposits or remote rows and
zeroes its source where ZACC says so. An MMAC or an MEPI that reads an uncorrectable operand issues, and its sub-array is to answer for it;
an MLDW answers in the clocks in which it reads. The cause of an MMAC while AFMT is none is the model's reading (log 63). -/
def Obligations.MatrixWordsIssue : Prop :=
  ∀ (s : State) (slot : Nat) (b : Sub) (f : MIssue) (hw : BitVec 12) (dprec : BitVec 4) (clr : Bool) (br0 : BitVec 3) (bc0 : BitVec 4)
      (g : MmacF) (e : MepiF) (d : MDest),
    let c := s.focus.core
    let n := s.focus.sub
    let k := getCore s c
    let u := unitAt s c slot
    let m := matOf k n
    let at' := ctxOf s c slot n false
    let pc : Word := m.pc.setWidth 64
    n < 8 → matSlot k n = some slot → subOf k n = some b → plainForked s c slot n = true →
    let queues := ownsQueue k u.uid f.take = true ∧ ownsQueue k u.uid f.give = true
    let gap := (f.stamp + m.stampoff - BitVec.ofNat 40 s.clk).toNat
    let inTime := f.stampen = true → gap = 0
    let lets := f.knot = 0xF ∨ k.knots.getLsbD f.knot.toNat = true
    let faults (i : Instr) (cause : BitVec 8) (eval : Word) : Prop := Completes i s fun t => StreamFaulted s t slot n cause eval
    let tokens (t : State) : Prop :=
      ∀ q, q < 16 → (tokOf (getCore t c) q).owner = (tokOf k q).owner
        ∧ (tokOf (getCore t c) q).count = (tokOf k q).count - (if f.take ≠ 0xF ∧ f.take.toNat = q then 1 else 0)
        ∧ (tokOf (getCore t c) q).rsv = (tokOf k q).rsv + (if f.give ≠ 0xF ∧ f.give.toNat = q then 1 else 0)
    let goes (i : Instr) (occ : Nat) (b' : Sub) (l : MLaunch) (ds : List Deposit) : Prop := Completes i s fun t =>
      SameBytes s t ∧ t = { s with cores := t.cores, deps := s.deps ++ ds } ∧ (∀ h, h ≠ c → getCore t h = getCore s h)
      ∧ (∀ j, unitAt t c j = unitAt s c j) ∧ tokens t
      ∧ getCore t c = { k with
          tokq := (getCore t c).tokq, subs := (getCore t c).subs, mats := (getCore t c).mats, dirty := (getCore t c).dirty }
      ∧ (∀ j, j ≠ n → subOf (getCore t c) j = subOf k j ∧ matOf (getCore t c) j = matOf k j)
      ∧ matOf (getCore t c) n = { m with pc := m.pc + 1, issueAt := s.clk + occ + stretchOf s c n }
      ∧ subOf (getCore t c) n = some (launchWord b' at' s.clk f.give i l)
    let issues (i : Instr) (ok : Bool) (chk : Option (BitVec 8 × Word)) (ready : Prop) (occ : Nat) (b' : Sub) (l : MLaunch)
        (ds : List Deposit) : Prop :=
      (ok = false ∨ ¬queues → faults i 0x06 pc)
      ∧ (ok = true → queues → f.stampen = true → 2 ^ 39 ≤ gap → faults i 0x08 pc)
      ∧ (ok = true → queues → f.stampen = true → 0 < gap → gap < 2 ^ 39 → Completes i s fun t => t = s)
      ∧ (ok = true → queues → inTime → ¬lets → Completes i s fun t => OnlyCore s t c
          ∧ getCore t c = { k with mats := (getCore t c).mats } ∧ (∀ j, j ≠ n → matOf (getCore t c) j = matOf k j)
          ∧ matOf (getCore t c) n = { m with pc := m.pc + 1, issueAt := s.clk + 1 + stretchOf s c n })
      ∧ (∀ cause eval, ok = true → queues → inTime → lets → chk = some (cause, eval) → faults i cause eval)
      ∧ (ok = true → queues → inTime → lets → chk = none → ¬(ready ∧ tokensReady k f.take f.give = true) →
          if f.stampen = true then faults i 0x08 pc else Completes i s fun t => t = s)
      ∧ (ok = true → queues → inTime → lets → chk = none → ready → tokensReady k f.take f.give = true → goes i occ b' l ds)
    let ok := f.stampen || f.stamp == 0
    let plain (mark : Bool) : MLaunch :=
      { due := s.clk + 1, mark := mark, handles := [], effect := .none, blocks := [], accdis := false, mepi := false, out := 0
        sets := [], clears := [], dirt := [], bad := false }
    let answers (bad : Bool) (t : State) : Prop :=
      (getCore t c).upset = k.upset ++ (if bad = true then [{ sub := n, due := s.clk, block := none, cause := 0x0E }] else [])
    issues (.mnop f) ok none True 1 b (plain f.mark) [] ∧ issues (.mmark f) ok none True 1 b (plain true) []
    ∧ issues (.mswap f) ok none (b.loadFree ≤ s.clk) 1
        { b with actsel := !b.actsel, afmt := b.sfmt, sfmt := b.afmt, atag := b.stag, stag := b.atag } (plain f.mark) []
    ∧ (let x := tileOf k hw.toNat
      let i := Instr.mldw f hw dprec clr br0 bc0
      let handle : Word := hw.setWidth 64 <<< 16 ||| pc
      let named := x.valid = true ∧ (x.ownerUid = u.uid ∨ x.share = true) ∧ x.acc = false ∧ x.pl ≠ 0
      let placed := br0.toNat + tileRows x / 32 ≤ b.h ∧ bc0.toNat + tileCols x / 32 ≤ b.w ∧ (clr = true ∨ b.sfmt = x.fmt)
      let L := if dprec = 0 then x.pl.toNat else min dprec.toNat x.pl.toNat
      let bytes := 3 * L * tileRows x * tileCols x / 8 + (if fmtFloat (tileFmt x) = true then 2 * tileRows x * tileCols x else 0)
      let due := s.clk + (6 + 16 * (if b.kind = .loc then 0 else 1) + ceilDiv bytes (64 * x.p1))
      let chk : Option (BitVec 8 × Word) → Prop := fun r =>
        (¬named → r = some (0x07, handle)) ∧ (named → ¬placed → r = some (0x06, pc)) ∧ (named → placed → r = none)
      ∀ r, chk r → issues i (ok && dprec.toNat < 13) r
        (x.full = true ∧ x.fullAt ≤ s.clk ∧ x.clearing = none ∧ x.p1 ≠ 0 ∧ b.loadFree ≤ s.clk) 1
        { b with loadFree := due, sfmt := if clr = true then x.fmt else b.sfmt }
        { due := due, mark := f.mark, handles := [hw], effect := .load x hw L clr br0.toNat bc0.toNat, blocks := [], accdis := false
          mepi := false, out := 0, sets := [], clears := [], dirt := [], bad := false } [])
    ∧ (let i := Instr.mmac f g
      let wf := (fmtOfCode b.afmt).getD .f32
      let af := (fmtOfCode g.fmt).getD .f32
      let P := if g.dprec = 0 ∨ digitCount wf ≤ g.dprec.toNat then digitCount wf else g.dprec.toNat
      let M := g.mm1.toNat + 1
      let K := 32 * (g.krm1.toNat + 1)
      let N := 32 * (g.ncm1.toNat + 1)
      let xa := tileOf k g.ha.toNat
      let xc := tileOf k g.hc.toNat
      let key (i j : Nat) : Nat := accKeyAt xc (shapeOf k g.shc.toNat) i j
      let A (i dep : Nat) : XVal :=
        let v := elemVal af (shapedElem k xa (shapeOf k g.sha.toNat) i dep)
        if g.nega = true then xneg v else v
      let W (dep j : Nat) : XVal := macWeight b wf P g.negw (32 * g.kr0.toNat + dep) (32 * g.nc0.toNat + j)
      let prev (i j : Nat) : Nat := if g.accdis = true then 0 else (accElem b (key i j)).toNat
      let keys := (span 0 M).flatMap (fun i => (span 0 N).map (key i))
      let blocks := distinct (keys.map blockOf)
      let occ := M * P
      let ready := isFull xa s.clk = true ∧ storageIn xa = true ∧ storageIn xc = true ∧ b.arrayFree ≤ s.clk ∧ epiReads b g.hc = false
      let due := s.clk + occ + 2 * b.h + 2 * b.w + 4 + (if b.kind = .loc then 0 else 6)
      (∀ cause eval, ok = true → mmacFieldsOk g = true → queues → inTime → lets → macCheck k b at' g = some (cause, eval) →
        faults i cause eval)
      ∧ (ok = true → mmacFieldsOk g = true → queues → inTime → lets → macCheck k b at' g = none → f.stampen = false → ¬ready →
        Completes i s fun t => t = s)
      ∧ (ok = true → mmacFieldsOk g = true → queues → inTime → lets → macCheck k b at' g = none → ready →
        tokensReady k f.take f.give = true → 32 * xc.p2 + tileCols xc ≤ 512 → Completes i s fun t =>
          SameBytes s t ∧ OnlyCore s t c ∧ (∀ j, unitAt t c j = unitAt s c j) ∧ tokens t ∧ answers (macSpoilt k g) t
          ∧ matOf (getCore t c) n = { m with pc := m.pc + 1, issueAt := s.clk + occ + stretchOf s c n }
          ∧ (∀ j, j ≠ n → subOf (getCore t c) j = subOf k j ∧ matOf (getCore t c) j = matOf k j)
          ∧ ∃ b', subOf (getCore t c) n = some b' ∧ b'.arrayFree = s.clk + occ ∧ b'.set0 = b.set0 ∧ b'.set1 = b.set1 ∧ b'.mcnt = b.mcnt ∧ b'.inv = b.inv
            ∧ (∃ fl bad clears, b'.flights = b.flights ++ [fl] ∧ fl.due = due ∧ fl.mark = f.mark ∧ fl.effect = .mac g.hc blocks bad clears
                ∧ fl.retired = false ∧ fl.uid = u.uid)
            ∧ (∀ i j, i < M → j < N →
                (integerPath wf af = true → accElem b' (key i j) = BitVec.ofInt 32
                  ((span 0 K).foldl (fun (a : Int) dep => a + xtoInt (A i dep) * xtoInt (W dep j)) (prev i j : Int)))
                ∧ (integerPath wf af = false → accElem b' (key i j) = BitVec.ofNat 32
                  ((span 0 K).foldl (fun (a : Nat) dep => f32Add a (cellProduct (A i dep) (W dep j))) (prev i j))))
            ∧ ∀ x, x ∉ keys → accElem b' x = accElem b x))
    ∧ ∀ (dest : Option MDest) (i : Instr), (i = .mepi f e ∧ dest = none) ∨ (i = .mepiRemote f e d ∧ dest = some d) →
      let xa := tileOf k e.ha.toNat
      let xc := tileOf k e.hc.toNat
      let xw := tileOf k e.hw.toNat
      let R := (epiExtent k e).1
      let C := (epiExtent k e).2
      let due := s.clk + (8 + R * ceilDiv C 128)
      let keys := (span 0 R).flatMap (fun i => (span 0 C).map (accKeyAt xa (shapeOf k e.sha.toNat) i))
      let ready := (e.hw = 0 ∨ isFull xw s.clk = true ∧ storageIn xw = true) ∧ storageIn xa = true ∧ b.drainFree ≤ s.clk
        ∧ (∀ g ∈ b.flights, ∀ h rows, g.effect = .epiRemote h rows → rows = [])
        ∧ (dest = none → isFull xc s.clk = false ∧ storageIn xc = true) ∧ macWritesTile b e.ha = false
      ok = true → mepiFieldsOk e = true → queues → inTime → lets →
      (∀ cause eval, epiCheck s k b at' e dest = some (cause, eval) → faults i cause eval)
      ∧ (epiCheck s k b at' e dest = none → f.stampen = false → ¬ready → Completes i s fun t => t = s)
      ∧ (epiCheck s k b at' e dest = none → ready → tokensReady k f.take f.give = true → Completes i s fun t =>
          SameBytes s t ∧ (∀ h, h ≠ c → getCore t h = getCore s h) ∧ (∀ j, unitAt t c j = unitAt s c j) ∧ tokens t ∧ answers (epiSpoilt k e) t
          ∧ t.deps = s.deps ++ (if dest = none then epiDeposits k b at' e s.clk else [])
          ∧ matOf (getCore t c) n = { m with pc := m.pc + 1, issueAt := s.clk + 1 + stretchOf s c n }
          ∧ ∃ b', subOf (getCore t c) n = some b' ∧ b'.drainFree = (if dest = none then due else b.drainFree) ∧ b'.set0 = b.set0
            ∧ b'.set1 = b.set1 ∧ b'.mcnt = b.mcnt
            ∧ (∃ fl, b'.flights = b.flights ++ [fl] ∧ fl.due = due ∧ fl.mark = f.mark ∧ fl.retired = false ∧ fl.uid = u.uid
                ∧ fl.effect = (match dest with
                  | none => .epi e.ha
                  | some d => .epiRemote e.ha (epiRows k b at' e d)))
            ∧ ∀ x, accElem b' x = if e.zacc = true ∧ x ∈ keys then 0 else accElem b x)

/-- R97, R100 to R102, R104, R109, R110, R186, R200, R203: the control words of a forked matrix stream take one clock and are words in
flight themselves, with MARK: MLOOP sets a counter, a branch goes to its target by its knot or its counter counted down, MBR.END stops
the stream, MWAIT waits for its knot or for the words in flight, once past its stamp whatever the clock (log 52), and MMOD begins its
loop, passes over a body of no trips, or faults with OPERAND; a stamp holds each until its clock, and a stamp that has passed faults. -/
def Obligations.MatrixControlWords : Prop :=
  ∀ (s : State) (slot : Nat) (b : Sub) (f : MCtl) (len ii : BitVec 6) (lc : BitVec 2) (value : BitVec 16) (knot : BitVec 4)
      (target : BitVec 13) (sense : Bool),
    let c := s.focus.core
    let n := s.focus.sub
    let k := getCore s c
    let m := matOf k n
    let at' := ctxOf s c slot n false
    n < 8 → matSlot k n = some slot → subOf k n = some b → plainForked s c slot n = true →
    let faults (i : Instr) (cause : BitVec 8) : Prop := Completes i s fun t => StreamFaulted s t slot n cause (m.pc.setWidth 64)
    let gap := (f.stamp + m.stampoff - BitVec.ofNat 40 s.clk).toNat
    let sets (i : Instr) (m' : Strm) : Prop := Completes i s fun t =>
      OnlyCore s t c ∧ (∀ j, j ≠ n → subOf (getCore t c) j = subOf k j ∧ matOf (getCore t c) j = matOf k j)
      ∧ getCore t c = { k with subs := (getCore t c).subs, mats := (getCore t c).mats }
      ∧ matOf (getCore t c) n = { m' with issueAt := s.clk + 1 + stretchOf s c n }
      ∧ subOf (getCore t c) n = some (launchWord b at' s.clk 0xF i
          { due := s.clk + 1, mark := f.mark, handles := [], effect := .none, blocks := [], accdis := false, mepi := false, out := 0
            sets := [], clears := [], dirt := [], bad := false })
    let waits (i : Instr) : Prop := Completes i s fun t =>
      if f.stampen = true ∧ m.passed = false then
        OnlyCore s t c ∧ getCore t c = { k with mats := (getCore t c).mats } ∧ (∀ j, j ≠ n → matOf (getCore t c) j = matOf k j)
        ∧ matOf (getCore t c) n = { m with passed := true, issueAt := s.clk + 1 + stretchOf s c n }
      else t = s
    let next : Strm := { m with pc := m.pc + 1 }
    let goTo : Strm := { m with pc := target.setWidth 14 }
    let lcs (r : BitVec 2) (v : BitVec 16) (y : Strm) : Strm :=
      if r = 0 then { y with lc0 := v } else if r = 1 then { y with lc1 := v } else if r = 2 then { y with lc2 := v } else { y with lc3 := v }
    let lcv (r : BitVec 2) : BitVec 16 := if r = 0 then m.lc0 else if r = 1 then m.lc1 else if r = 2 then m.lc2 else m.lc3
    let up := k.knots.getLsbD knot.toNat
    let past : Strm := { next with passed := false }
    let waited : Prop :=
      (if up = true then sets (.mwaitSet f knot) past else waits (.mwaitSet f knot))
      ∧ (if up = true then waits (.mwaitClr f knot) else sets (.mwaitClr f knot) past)
      ∧ (if ∀ g ∈ b.flights, g.retired = true then sets (.mwaitDrain f) past else waits (.mwaitDrain f))
    (m.passed = true → waited)
    ∧ (m.passed = false → (∀ i ∈ ([.mloop f lc false value, .mbrAlways f target, .mbrKset f knot target, .mbrKclr f knot target, .mbrLoop f lc target,
        .mbrEnd f, .mmod f len ii false value knot sense, .mwaitSet f knot, .mwaitClr f knot, .mwaitDrain f] : List Instr),
      (f.stampen = false → f.stamp ≠ 0 → faults i 0x06) ∧ (f.stampen = true → 2 ^ 39 ≤ gap → faults i 0x08)
      ∧ (f.stampen = true → 0 < gap → gap < 2 ^ 39 → Completes i s fun t => t = s))
    ∧ ((if f.stampen = true then gap = 0 else f.stamp = 0) →
      sets (.mloop f lc false value) (lcs lc value next)
      ∧ (value.toNat < 4 → sets (.mloop f lc true value) (lcs lc (lcv (value.setWidth 2)) next))
      ∧ (4 ≤ value.toNat → faults (.mloop f lc true value) 0x06)
      ∧ sets (.mbrAlways f target) goTo
      ∧ sets (.mbrKset f knot target) (if up = true then goTo else next)
      ∧ sets (.mbrKclr f knot target) (if up = true then next else goTo)
      ∧ sets (.mbrLoop f lc target) (lcs lc (lcv lc - 1) (if lcv lc - 1 = 0 then next else goTo))
      ∧ sets (.mbrEnd f) { m with mode := .stopping }
      ∧ waited
      ∧ (let L := len.toNat + 1
        let I := ii.toNat + 1
        let body := (span (m.pc.toNat + 1) L).map (rawWord k n)
        let opc (x : Nat) : Nat := (nth body x).getD 0 / 2 ^ 184 % 256
        let clash := ∃ p q, p < q ∧ q < L ∧ p % I = q % I ∧ opc p ≠ 0x0C ∧ opc q ≠ 0x0C
        let inner := ∃ p, p < L ∧ 0x08 ≤ opc p ∧ opc p ≤ 0x0B
        let bad := L < I ∨ 8191 < m.pc.toNat + L ∨ inner ∨ clash
        let loop (T : Nat) (ctr : Option (BitVec 2)) : ModState :=
          { len := L, ii := I, tcur := T, t := 0, exk := knot, exs := sense, ctr := ctr, begun := false, body := body }
        k.badWords = [] →
        (bad → faults (.mmod f len ii false value knot sense) 0x06)
        ∧ (¬bad → value = 0 → sets (.mmod f len ii false value knot sense) { m with pc := m.pc + 1 + BitVec.ofNat 14 L })
        ∧ (¬bad → value ≠ 0 → sets (.mmod f len ii false value knot sense) { m with mod := some (loop value.toNat none) })
        ∧ (¬bad → value.toNat < 4 → lcv (value.setWidth 2) = 0 →
            sets (.mmod f len ii true value knot sense) { m with pc := m.pc + 1 + BitVec.ofNat 14 L })
        ∧ (¬bad → value.toNat < 4 → lcv (value.setWidth 2) ≠ 0 →
            sets (.mmod f len ii true value knot sense)
              { m with mod := some (loop (lcv (value.setWidth 2)).toNat (some (value.setWidth 2))) }))))

/-- R93, R146, R152, R153, R155, R156, R186, R188, R189, R199, R200, R203, R348, R370, R371: a matrix word that is due retires: it leaves
the words in flight, a marked one advances MCNT, an MLDW writes the SHADOW set and its tags, and a word that met a reserved code raises
OPERAND without advancing; one that waits for acknowledgements, or for contributions held in landing rows, stays in flight, retired, until
they are in. A retired MMAC marks the blocks it wrote INV, or clears their marks. A sub-array with an upset issues its words
since the mark again at their distances, where it may replay, those that had retired among them, and else marks the blocks written since
INV and faults at the oldest of them, which deposit nothing more. A
deposit waits for its clock, for those of its agent before it and behind a TSETF or TINFO of the clock; its turn come it writes or adds
its word and is counted, and the count that reaches TARGET fills the tile for the next clock; refused, it is discarded; at a FULL tile it
is held, and where it is to fill the tile it waits for what it releases. A clearing that is due ends. -/
def Obligations.MatrixWordsRetire : Prop :=
  (∀ (s : State) (c n : Nat) (b : Sub) (f : MFlight),
    let k := getCore s c
    let u := unitAt s c f.slot
    n < 8 → subOf k n = some b →
    let held := (k.parked.filter (fun p => p.src == .mat c n f.id)).length
    (firstDue (b.flights.filter (mayRetire s c n)) = some f → 0 < f.unacked + held → (f.effect = .none ∨ ∃ h, f.effect = .epi h) →
      Completes (.wordRetirement c n) s fun t =>
        SameBytes s t ∧ (∀ j, j ≠ c → getCore t j = getCore s j) ∧ (getCore t c).tokq = k.tokq ∧ t.deps = s.deps
        ∧ subOf (getCore t c) n = some { b with
            flights := b.flights.map (fun g => if g.id = f.id then { g with retired := true, unacked := f.unacked + held } else g),
            mcnt := if f.mark = true then b.mcnt + 1 else b.mcnt, age := if f.mark = true then 0 else b.age,
            touched := if f.mark = true then [] else b.touched })
    ∧ (firstDue (b.flights.filter (mayRetire s c n)) = some f → f.unacked + held = 0 → f.give = 0xF →
      let gone := b.flights.filter (fun g => g.id != f.id)
      let rests (t : State) : Prop := SameBytes s t ∧ (∀ j, j ≠ c → getCore t j = getCore s j)
        ∧ (∀ j, j ≠ n → subOf (getCore t c) j = subOf k j ∧ matOf (getCore t c) j = matOf k j)
        ∧ (getCore t c).scratch = k.scratch ∧ (getCore t c).tiles = k.tiles ∧ t.deps = s.deps
      let retired (x : Sub) : Sub :=
        { x with flights := gone, mcnt := if f.mark = true then b.mcnt + 1 else b.mcnt, age := if f.mark = true then 0 else b.age,
                  touched := if f.mark = true then [] else b.touched }
      let moves (t : State) : Prop := rests t ∧ (∀ j, unitAt t c j = unitAt s c j)
        ∧ (matOf (getCore t c) n).mode = (if (matOf k n).mode = .stopping ∧ ∀ g ∈ gone, g.retired = true then .idle else (matOf k n).mode)
      let raises (t : State) : Prop := rests t ∧ (matOf (getCore t c) n).mode = .faulted ∧ (matOf (getCore t c) n).cause = 0x06
        ∧ (unitAt t c f.slot).pending = addPending { stream := n, cause := 0x06, eval := f.pc.setWidth 64 } u.pending
      (f.effect = .none ∨ (∃ h, f.effect = .epi h) ∨ f.effect = .again false → Completes (.wordRetirement c n) s fun t =>
        moves t ∧ subOf (getCore t c) n = some (retired b))
      ∧ (∀ h bl cl, f.effect = .mac h bl false cl → Completes (.wordRetirement c n) s fun t =>
        moves t ∧ ∃ inv, subOf (getCore t c) n = some (retired { b with inv := inv }) ∧ ∀ x, x ∈ inv ↔ x ∈ b.inv ∧ x ∉ cl)
      ∧ (∀ h, f.effect = .epiRemote h [] → Completes (.wordRetirement c n) s fun t =>
        moves t ∧ subOf (getCore t c) n = some (retired { b with erow := 0 }))
      ∧ (f.effect = .again true → (matOf k n).mode ≠ .stopping → Completes (.wordRetirement c n) s fun t =>
        raises t ∧ subOf (getCore t c) n = some { b with flights := gone })
      ∧ (∀ h bl cl, f.effect = .mac h bl true cl → (matOf k n).mode ≠ .stopping → Completes (.wordRetirement c n) s fun t =>
        raises t ∧ ∃ inv, subOf (getCore t c) n = some { b with flights := gone, inv := inv }
          ∧ ∀ x, x ∈ inv ↔ (x ∈ b.inv ∨ x ∈ bl) ∧ x ∉ cl)
      ∧ ∀ x hw L clr br0 bc0, f.effect = .load x hw L clr br0 bc0 → 32 * bc0 + tileCols x ≤ 512 →
        let cell (i j : Nat) := loadedCell k x f.issue L i j
        let inside (y : Nat) : Prop := ∃ i j, i < tileRows x ∧ j < tileCols x ∧ y = cellKey (32 * br0 + i) (32 * bc0 + j)
        let wrote (b' : Sub) (tag : Tag) : Prop :=
          activeSet b' = activeSet b ∧ b'.atag = b.atag ∧ b'.acc = b.acc ∧ b'.flights = gone
          ∧ (∀ i j, i < tileRows x → j < tileCols x → mapGet 0 (shadowSet b') (cellKey (32 * br0 + i) (32 * bc0 + j)) = cell i j)
          ∧ (∀ y, ¬inside y → mapGet 0 (shadowSet b') y = if clr = true then 0 else mapGet 0 (shadowSet b) y)
          ∧ ∀ y, mapGet noTag b'.stag y =
              if y ∈ loadedBricks x br0 bc0 then tag else if clr = true then noTag else mapGet noTag b.stag y
        ((∀ i j, i < tileRows x → j < tileCols x → cellReserved (tileFmt x) (cell i j) = false) →
          Completes (.wordRetirement c n) s fun t => moves t ∧ ∃ b', subOf (getCore t c) n = some b'
            ∧ b'.mcnt = (if f.mark = true then b.mcnt + 1 else b.mcnt) ∧ wrote b' { valid := true, handle := hw, gen := x.gen })
        ∧ ((∃ i j, i < tileRows x ∧ j < tileCols x ∧ cellReserved (tileFmt x) (cell i j) = true) → (matOf k n).mode ≠ .stopping →
          Completes (.wordRetirement c n) s fun t => raises t ∧ ∃ b', subOf (getCore t c) n = some b' ∧ b'.mcnt = b.mcnt ∧ wrote b' noTag))
    ∧ ∀ (e : SubUpset) (ups : List SubUpset) (slot : Nat),
      let cause := e.cause
      let m := matOf k n
      let ws := sinceMark b
      let first := (ws.head?.map (·.pc)).getD m.pc
      let v := unitAt s c slot
      let again (id : Nat) : Prop := ∃ x ∈ ws, x.id = id
      k.upset = e :: ups → e.sub = n → e.due ≤ s.clk → slotOfUid k b.holder = some slot →
      ((s.clk < b.replayTo ∨ mayReplay s c n b = false) → bypasses s v cause = false → m.mode ≠ .stopping →
        Completes (.subArrayReplay c n) s fun t =>
          SameBytes s t ∧ (getCore t c).upset = ups.filter (fun x => x.sub != n || decide (x.due ≤ s.clk))
          ∧ (∀ d, d ∈ t.deps ↔ d ∈ s.deps ∧ ∀ id, d.src = .mat c n id → ¬again id)
          ∧ (matOf (getCore t c) n).mode = .faulted ∧ (matOf (getCore t c) n).cause = cause
          ∧ (matOf (getCore t c) n).pc = (if m.mod = none then first else m.pc)
          ∧ (unitAt t c slot).pending = addPending { stream := n, cause := cause, eval := first.setWidth 64 } v.pending
          ∧ ∃ b', subOf (getCore t c) n = some b'
            ∧ b' = { b with inv := b'.inv, flights := b'.flights, replayTo := min b.replayTo s.clk }
            ∧ (∀ x, x ∈ b'.inv ↔ x ∈ b.inv ∨ e.block = some x ∨ x ∈ b.touched)
            ∧ b'.flights.map (·.id) = b.flights.map (·.id)
            ∧ ∀ f ∈ b'.flights, again f.id → ∀ h rows, f.effect = .epiRemote h rows → rows = [])
      ∧ (∀ w ws', b.replayTo ≤ s.clk → mayReplay s c n b = true → ws = w :: ws' → v.group.getLsbD n = false →
        let start := b.flights.foldl (fun x f => if f.retired = true then x else max x f.due) (s.clk + 1)
        Completes (.subArrayReplay c n) s fun t =>
          SameBytes s t ∧ (∀ j, unitAt t c j = unitAt s c j)
          ∧ (getCore t c).upset = ups ++ (ws.filter (·.bad)).map
              (fun x => { sub := n, due := x.issue + (start - w.issue), block := none, cause := 0x0E })
          ∧ matOf (getCore t c) n = { m with issueAt := m.issueAt + (start - w.issue) }
          ∧ ∃ b', subOf (getCore t c) n = some b' ∧ b'.acc = b.acc ∧ b'.set0 = b.set0 ∧ b'.set1 = b.set1 ∧ b'.mcnt = b.mcnt
            ∧ b'.replayTo = m.issueAt + (start - w.issue)
            ∧ b'.flights.map (·.id) = b.flights.map (·.id) ++ (ws.filter (fun x => !b.flights.any (fun f => f.id == x.id))).map (·.id)
            ∧ (∀ f ∈ b'.flights, (∀ g ∈ b.flights, g.id ≠ f.id) → ∃ x ∈ ws, f.id = x.id ∧ f.due = x.due + (start - w.issue)
                ∧ f.effect = x.effect ∧ f.mark = x.mark ∧ f.give = 0xF ∧ f.retired = false)
            ∧ ∀ j f f', nth b.flights j = some f → nth b'.flights j = some f' →
                (again f.id → f.retired = false → f'.due = f.due + (start - w.issue)) ∧ (¬again f.id → f' = f)))
  ∧ (∀ (s : State) (j : Nat) (d : Deposit) (held : Bool) (i : Instr),
    let k := getCore s d.core
    let x := tileOf k d.handle.toNat
    let key := tileKey x d.word
    let old := mapGet 0 k.scratch key
    let dropped (t : State) : Prop := SameBytes s t ∧ t.deps = dropAt s.deps j
    (i = .deposit j ∧ held = false) ∨ (i = .heldDepositRelease j ∧ held = true) →
    nth s.deps j = some d → d.held = held →
    (s.clk < d.due ∨ (∃ e ∈ s.deps.take j, ordered e d = true ∨ (e.src = d.src ∧ e.cls = d.cls))
        ∨ mapFind k.seen d.handle.toNat = some s.clk → Completes i s fun t => t = s)
    ∧ (d.due ≤ s.clk → (∀ e ∈ s.deps.take j, ordered e d = false) → mapFind k.seen d.handle.toNat ≠ some s.clk →
    (x.valid = false ∨ x.gen ≠ d.gen ∨ x.acc = true ∨ ceilDiv (tileSize x) 4 ≤ d.word → Completes i s fun t =>
      dropped t ∧ ∀ c, (getCore t c).scratch = (getCore s c).scratch ∧ (getCore t c).tiles = (getCore s c).tiles)
    ∧ (handleRefused k d = false → d.ranked = none → (x.clearing ≠ none ∨ x.p1 = 0) → Completes i s fun t => t = s)
    ∧ (handleRefused k d = false → d.ranked = none → x.clearing = none → x.p1 ≠ 0 → x.full = true → x.fullAt ≤ s.clk →
      Completes i s fun t => t = if held = true then s else { s with deps := setAt s.deps j { d with held := true } })
    ∧ (handleRefused k d = false → d.ranked = none → x.clearing = none → x.p1 ≠ 0 → (x.full = false ∨ s.clk < x.fullAt) →
      (codeRefused k d = true → Completes i s fun t =>
        dropped t ∧ ∀ c, (getCore t c).scratch = (getCore s c).scratch ∧ (getCore t c).tiles = (getCore s c).tiles)
      ∧ (codeRefused k d = false → releaseWaits s d = true → Completes i s fun t => t = s)
      ∧ (codeRefused k d = false → releaseWaits s d = false →
      Completes i s fun t =>
        let k' := getCore t d.core
        let got := mapGet 0 k'.scratch key
        dropped t ∧ (∀ y, y ≠ key → mapGet 0 k'.scratch y = mapGet 0 k.scratch y)
        ∧ (∀ h, h ≠ d.handle.toNat → tileOf k' h = tileOf k h) ∧ (∀ c, c ≠ d.core → (getCore t c).scratch = (getCore s c).scratch)
        ∧ tileOf k' d.handle.toNat = (if x.arrival + 1 = x.target then { x with arrival := x.arrival + 1, full := true, fullAt := s.clk + 1 }
            else { x with arrival := x.arrival + 1 })
        ∧ (d.kind = .write → got = (old &&& ~~~d.mask) ||| (d.data &&& d.mask))
        ∧ ∀ f, d.kind = .sum f →
          let n := fmtBits f
          ∀ l, l < 32 / n →
            let p := old.toNat / 2 ^ (n * l) % 2 ^ n
            let q := d.data.toNat / 2 ^ (n * l) % 2 ^ n
            got.toNat / 2 ^ (n * l) % 2 ^ n =
              if d.mask.toNat / 2 ^ (n * l) % 2 = 0 then p
              else if fmtFloat f = true then roundFloat f 0 false (xadd 0 (floatVal f p) (floatVal f q)) % 2 ^ n
              else packInt f false (intVal f p + intVal f q) % 2 ^ n))))
  ∧ ∀ (s : State) (c h due : Nat),
    let k := getCore s c
    (tileOf k h).clearing = some due →
    (due ≤ s.clk → Completes (.tileClearEnd c h) s fun t =>
      OnlyCore s t c ∧ getCore t c = { k with tiles := (getCore t c).tiles } ∧ tileOf (getCore t c) h = { tileOf k h with clearing := none }
      ∧ ∀ j, j ≠ h → tileOf (getCore t c) j = tileOf k j)
    ∧ (s.clk < due → Completes (.tileClearEnd c h) s fun t => t = s)

/-! ## Quads in test, spares, page migration and invalidations (R10, R237, R242, R274, R381 to R383) -/

/-- R10, R237, R242, R274, R310, R381 to R383: a quad's test stops dispatch to it and asks its units to stop, and begins once it is empty; after 2 ms it
passes, with its journals cleared, or fails, with a notice for each partition its cores sent data to, and leaves service; a spare takes
over a failed core's number. R237, R274, R310: a migration sets MIG on its page's leaf, one out of groups that go into retention only to
LPDDR-6, and its remap moves the bytes, the leaf, and every translation in use to the new frame at once and makes the writes that waited
there, in their order. R242: an invalidation drops the cached translations of its range, or reports a bad record,
and its record's STATUS becomes 1 once nothing uses the range. -/
def Obligations.QuadsAndPages : Prop :=
  (∀ (s : State) (q core : Nat),
    let x := quadAt s q
    let others (t : State) : Prop := ∀ j, j ≠ q → quadAt t j = quadAt s j
    (q < 128 → x.test = none → x.failed = [] →
      (∀ c i, c / 4 = q → i < 4 → (unitAt s c i).live = true → (unitAt s c i).ending = none → Completes (.quadTest q) s fun t =>
        t = { s with quads := t.quads, preempts := t.preempts, cores := t.cores } ∧ others t ∧ quadAt t q = { x with stopping := true }
        ∧ preempting t c i = true ∧ (∀ d, d / 4 ≠ q → getCore t d = getCore s d)
        ∧ ∀ d j, unitAt t d j = unitAt s d j ∨ unitAt t d j = { unitAt s d j with evl := true })
      ∧ ((∀ c, c / 4 = q → ∀ e ∈ (getCore s c).units, e.2.live = false) → Completes (.quadTest q) s fun t =>
        t = { s with quads := t.quads } ∧ others t ∧ quadAt t q = { x with stopping := true, test := some s.tb.tns }))
    ∧ (∀ since, x.test = some since → since + 2000000 ≤ s.tb.tns →
      (Completes (.quadTestPass q) s fun t =>
        t = { s with quads := t.quads, cores := t.cores, pfEv := if x.serving = true then s.pfEv else s.pfEv ||| 8 } ∧ others t
        ∧ quadAt t q = { x with serving := true, stopping := false, test := none, passed := s.tb.tns }
        ∧ (∀ c, c / 4 = q → getCore t c = { getCore s c with journal := [] }) ∧ ∀ c, c / 4 ≠ q → getCore t c = getCore s c)
      ∧ Completes (.quadTestFail q) s fun t =>
        others t ∧ (quadAt t q).serving = false ∧ (quadAt t q).test = none ∧ (quadAt t q).failed ≠ []
        ∧ (∀ j ∈ (quadAt t q).failed, j < 4) ∧ t.pfEv = s.pfEv ||| 8
        ∧ (∀ c e, c / 4 = q → e ∈ (getCore s c).journal → mapHas s.parts e.part = true → (mapGet 0 t.vfEv e.part).getLsbD 1 = true)
        ∧ ((∀ c, c / 4 = q → (getCore s c).journal = []) → SameBytes s t ∧ t.vfEv = s.vfEv))
    ∧ (∀ since, x.test = some since → s.tb.tns < since + 2000000 →
      (Completes (.quadTestPass q) s fun t => t = s) ∧ Completes (.quadTestFail q) s fun t => t = s)
    ∧ (q = core / 4 → core < 512 → core % 4 ∈ x.failed →
      let die := core / 128
      let used := (s.spares.filter (fun e => e.1 / 4 == die)).length
      (∀ e ∈ (getCore s core).units, e.2.live = false) → lentTo s core = none →
      (used < 4 → Completes (.spareSubstitution core) s fun t =>
        t = { s with spares := t.spares, quads := t.quads } ∧ others t ∧ mapFind t.spares (4 * die + used) = some core
        ∧ quadAt t q = { x with failed := x.failed.filter (fun j => j != core % 4) })
      ∧ (4 ≤ used → Completes (.spareSubstitution core) s fun t => t = s)))
  ∧ (∀ (s : State) (p : Nat) (va : Word) (frame a sh : Nat),
    let pt := partOf s p
    let leaf : Word := BitVec.ofNat 64 (memNat s.mem a 8)
    leafPlace s.mem va.toNat walkLevels pt.root = some (a, sh) →
    let new := 65536 * frame
    mapHas s.parts p = true → va.toNat < 2 ^ 55 → new % 2 ^ sh = 0 →
    inWindows pt new = true → inWindows pt (new + 2 ^ sh - 1) = true →
    (runOver (retentionRanges s) (65536 * pteBits leaf 0 36) (2 ^ sh) = true → pageTier new = 2) →
    (leaf.getLsbD 38 = false → Completes (.pageMigration p va frame) s fun t =>
      t = { s with mem := t.mem, migs := t.migs } ∧ SameBytesBut s t a 8
      ∧ BitVec.ofNat 64 (memNat t.mem a 8) = leaf ||| (1#64 <<< 38)
      ∧ t.migs = s.migs ++ [{ part := p, va := va.toNat / 2 ^ sh * 2 ^ sh, span := 2 ^ sh, old := 65536 * pteBits leaf 0 36, new := new }])
    ∧ (leaf.getLsbD 38 = true → Completes (.pageMigration p va frame) s fun t => t = s))
  ∧ (∀ (s : State) (j : Nat) (m : Mig),
    MemoryCanonical s → nth s.migs j = some m → 0 < m.span → m.old + m.span ≤ m.new ∨ m.new + m.span ≤ m.old →
    let onOld (pa : Nat) : Prop := m.old ≤ pa ∧ pa < m.old + m.span
    let moved (pa : Nat) : Nat := if onOld pa then m.new + (pa - m.old) else pa
    let inNew (pa : Nat) : Prop := m.new ≤ pa ∧ pa < m.new + m.span
    let mid := copyPage m s.mem
    let stays (w : Held) : Prop := ¬onOld w.pa ∧ ∃ m' ∈ dropAt s.migs j, m'.old ≤ w.pa ∧ w.pa < m'.old + m'.span
    (∀ y, memByte mid y = memByte s.mem (if inNew y then m.old + (y - m.new) else y))
    ∧ Completes (.migrationRemap j) s fun t =>
      t.migs = dropAt s.migs j ∧ (s.migs = [m] → t.heldw = []) ∧ ((∀ w ∈ s.heldw, stays w) → t.heldw = s.heldw)
      ∧ (∀ w, s.migs = [m] → s.heldw = [w] → ∀ i b, nth w.bytes i = some b → memByte t.mem (moved w.pa + i) = b)
      ∧ (∀ a sh sp lf, leafPlace mid m.va walkLevels (partOf s m.part).root = some (a, sh) → 65536 * pteBits (BitVec.ofNat 64 (memNat mid a 8)) 0 36 = m.old →
          pagesIn { s with mem := mid } (partOf s m.part) (fun f => decide (onOld f)) = [(m.va, sp, lf)] → (∀ w ∈ s.heldw, stays w) →
          (∀ y, y < a ∨ a + 8 ≤ y → memByte t.mem y = memByte mid y)
          ∧ (let e : Word := BitVec.ofNat 64 (memNat t.mem a 8)
            e.getLsbD 38 = false ∧ pteBits e 0 36 = m.new / 65536 % 2 ^ 36
            ∧ ∀ b, 36 ≤ b → b < 64 → b ≠ 38 → e.getLsbD b = (BitVec.ofNat 64 (memNat mid a 8)).getLsbD b))
      ∧ (∀ id y, taskOf s id = some y → ∃ y', taskOf t id = some y' ∧ y'.pa = moved y.pa ∧ y'.body = y.body ∧ y'.state = y.state)
      ∧ (∀ i r, nth s.cmds i = some r → ∃ r', nth t.cmds i = some r' ∧ r'.cmd.pins.map (·.pa) = r.cmd.pins.map (fun z => moved z.pa))
      ∧ (∀ c i a, nth (getCore s c).accs i = some a → ∃ a', nth (getCore t c).accs i = some a' ∧ a'.pa = moved a.pa)
      ∧ ∀ c e, e ∈ (getCore s c).tlb → e.part = m.part → 65536 * pteBits e.leaf 0 36 = m.old →
          ∃ e' ∈ (getCore t c).tlb, e'.part = e.part ∧ e'.vpage = e.vpage ∧ pteBits e'.leaf 0 36 = m.new / 65536 % 2 ^ 36
            ∧ e'.leaf.getLsbD 38 = false)
  ∧ ∀ (s : State) (p : Nat) (addr : Word),
    let a := addr.toNat
    let r := memBytes s.mem a 16
    let lo := fieldNat r 0 8
    let n := fieldNat r 8 4
    let x : Inval := { part := p, addr := a, lo := if n = 0 then 0 else lo, hi := if n = 0 then 2 ^ 55 else lo + 65536 * n }
    let bad := a % 16 ≠ 0 ∨ lo % 65536 ≠ 0 ∨ 2 ^ 55 ≤ lo ∨ fieldNat r 13 3 ≠ 0
    (mapHas s.parts p = false → Completes (.invalidation p addr) s fun t => t = s)
    ∧ (mapHas s.parts p = true → bad → Completes (.invalidation p addr) s fun t =>
      memByte t.mem (a + 12) = 2 ∧ SameBytesBut s t (a + 12) 1 ∧ t.invals = s.invals ∧ t.cores = s.cores)
    ∧ (mapHas s.parts p = true → ¬bad → Completes (.invalidation p addr) s fun t =>
      t = { s with cores := t.cores, invals := s.invals ++ [x] }
      ∧ ∀ c, getCore t c = { getCore s c with tlb := (getCore t c).tlb }
        ∧ ∀ e, e ∈ (getCore t c).tlb ↔ e ∈ (getCore s c).tlb ∧ ¬(e.part = p ∧ e.vpage < x.hi ∧ x.lo < e.vpage + e.span))
    ∧ (∀ y ys, s.invals = y :: ys → y.part = p →
      (usesRange s p y.lo y.hi = false → Completes (.invalidationDone p) s fun t =>
        memByte t.mem (y.addr + 12) = 1 ∧ SameBytesBut s t (y.addr + 12) 1 ∧ t.invals = ys ∧ t.cores = s.cores))
    ∧ ((∀ y ∈ s.invals, y.part = p → usesRange s p y.lo y.hi = true) → Completes (.invalidationDone p) s fun t => t = s)

/-! ## Mailboxes of the physical function (R310, R311, R385 to R390, R395 to R397) -/

/-- R385, R386: a mailbox serves its doorbell only with verified firmware, recovery always; a doorbell that meets a pending command is
discarded and sets bit 0 of PFERR; an operation no row names, or a malformed record, ends with STATUS 2; a command that ends writes
STATUS and its payload into the window and signals its vector. R310, R311, R388 to R390, R395, R397, R386: what each operation does, when
it is refused with STATUS 3, and which of them stay pending, STATUS 0 standing in the window. R96, R165: a core a partition is given has
its knots clear and its shape records natural. A pending DESTROY waits for the units of its partition, then stops its runs and closes its
channels, and is over once nothing of it is left. The model's readings: what ends with STATUS 2, 3 or 1 where no row says so (ATTEST of a
partition that does not exist, PREEMPT of a slot without a unit of the partition) and the stages of DESTROY (log 48); an entry into
retention with mask 0 ends at once, and one is refused where its pages cannot be placed one after the other (log 54); the values of a
report, of telemetry and of an image are open (logs 5 and 19). -/
def Obligations.MailboxCommands : Prop :=
  ∀ (s : State) (m : Window),
    let r := windowBytes m
    let ended (t : State) (n : Nat) (status : BitVec 8) (payload : List Byte) : Prop :=
      windowBytes (boxOf t n).window = r.take 4 ++ [status] ++ (r.drop 5).take 3 ++ payload ++ r.drop (8 + payload.length)
      ∧ (boxOf t n).cmd = none ∧ t.pfEv.getLsbD n = true ∧ ∀ j, j ≠ n → boxOf t j = boxOf s j
    let pends (t : State) (n : Nat) : Prop := (boxOf t n).cmd = some m ∧ windowBytes (boxOf t n).window = r.take 4 ++ [0] ++ r.drop 5 ∧ t.pfEv = s.pfEv
    let passed (t : State) (quads : List Nat) : Prop := ∀ c ∈ coresOf quads, (getCore t c).knots = 0 ∧ (getCore t c).shapes = []
    let p := fieldNat r 1 1
    let dpa := fieldNat r 8 8
    let arg := fieldNat r 16 8
    let clean := p < 16 ∧ fieldNat r 5 3 = 0 ∧ fieldNat r 24 40 = 0
    let ready (n op : Nat) : Prop := (n = 2 ∨ s.fw.verified = true) ∧ (boxOf s n).cmd = none ∧ fieldNat r 0 1 = op
    let stack := fieldNat r 1 1
    (∀ x ∈ ([(.create m, 0, 1, 6), (.resize m, 0, 2, 6), (.destroy m, 0, 3, 6), (.preempt m, 0, 4, 6), (.linkup m, 0, 5, 6),
        (.attest m, 0, 6, 6), (.telemetry m, 1, 1, 4), (.scrub m, 1, 2, 4), (.retain m, 1, 3, 4), (.repairlog m, 1, 4, 4),
        (.recover m, 2, 1, 1)] : List (Instr × Nat × Nat × Nat)),
      let n := x.2.1
      (n ≠ 2 → s.fw.verified = false → fieldNat r 0 1 = x.2.2.1 → Completes x.1 s fun t => t = s)
      ∧ ((n = 2 ∨ s.fw.verified = true) → (boxOf s n).cmd.isSome = true → fieldNat r 0 1 = x.2.2.1 → Completes x.1 s fun t =>
        t = { s with boxes := t.boxes, pfErr := s.pfErr ||| 1 } ∧ boxOf t n = { boxOf s n with window := m }
        ∧ ∀ j, j ≠ n → boxOf t j = boxOf s j)
      ∧ ((n = 2 ∨ s.fw.verified = true) → (boxOf s n).cmd = none → fieldNat r 0 1 = 0 ∨ x.2.2.2 < fieldNat r 0 1 →
        Completes x.1 s fun t => SameBytes s t ∧ ended t n 2 [] ∧ t.parts = s.parts)
      ∧ (ready n x.2.2.1 → n = 0 → ¬clean → Completes x.1 s fun t => SameBytes s t ∧ ended t n 2 [] ∧ t.parts = s.parts)
      ∧ (ready n x.2.2.1 → n = 1 → 3 < stack → Completes x.1 s fun t => SameBytes s t ∧ ended t n 2 [] ∧ t.parts = s.parts))
    ∧ (let b := memBytes s.mem dpa 256
      let d := partOfBytes b
      let old := partOf s p
      clean → arg = 0 → dpa % 256 = 0 →
      (ready 0 1 →
        (partBad b p = true ∨ armsBad s p d = true → Completes (.create m) s fun t => ended t 0 2 [] ∧ t.parts = s.parts)
        ∧ (partBad b p = false → armsBad s p d = false → mapHas s.parts p = true ∨ partRefused s p d = true →
          Completes (.create m) s fun t => ended t 0 3 [] ∧ t.parts = s.parts)
        ∧ (partBad b p = false → armsBad s p d = false → mapHas s.parts p = false → partRefused s p d = false →
          Completes (.create m) s fun t => SameBytes s t ∧ ended t 0 1 [] ∧ partOf t p = d ∧ mapHas t.parts p = true ∧ passed t d.quads
            ∧ ∀ j, j ≠ p → partOf t j = partOf s j))
      ∧ (ready 0 2 → partBad b p = false → armsBad s p d = false →
        (mapHas s.parts p = true → fixedChanged old.raw b = true → Completes (.resize m) s fun t => ended t 0 2 [] ∧ t.parts = s.parts)
        ∧ (mapHas s.parts p = false ∨ (fixedChanged old.raw b = false ∧ partRefused s p d = true) → Completes (.resize m) s fun t =>
          ended t 0 3 [] ∧ t.parts = s.parts)
        ∧ (mapHas s.parts p = true → fixedChanged old.raw b = false → partRefused s p d = false →
          (∀ j ∈ barsLost old d, barHeld s j = false) → (∀ j ∈ nodesLost old d, (nodeOf s j).live = 0) →
          Completes (.resize m) s fun t => SameBytes s t ∧ pends t 0 ∧ (boxOf t 0).resize = some (old, d)
            ∧ partOf t p = { d with wins := d.wins ++ old.wins, quadsOut := old.quads.filter (fun q => !d.quads.contains q) }
            ∧ passed t (d.quads.filter (fun q => !old.quads.contains q))
            ∧ (∀ j, j ≠ p → partOf t j = partOf s j) ∧ ∀ j ∈ nodesLost old d, (nodeOf t j).live = 0))
      ∧ (ready 0 6 → mapHas s.parts p = false → Completes (.attest m) s fun t => SameBytes s t ∧ ended t 0 3 [])
      ∧ (ready 0 6 → mapHas s.parts p = true → Completes (.attest m) s fun t =>
        let head := memBytes s.mem dpa 32 ++ leBytes 4 s.fw.running.toNat ++ leBytes 48 (Config.sha384 s.fw.image).toNat
          ++ leBytes 48 (Config.sha384 old.raw).toNat ++ leBytes 8 s.tb.tns
        ended t 0 1 [] ∧ memBytes t.mem dpa 140 = head ∧ memBytes t.mem (dpa + 140) 384 = leBytes 384 (Config.rsaSign head).toNat
        ∧ memBytes t.mem (dpa + 524) 16224 = leBytes 16224 (Config.slhSign head).toNat ∧ SameBytesBut s t dpa 16748))
    ∧ (clean →
      (ready 0 3 → arg = 0 → mapHas s.parts p = false → Completes (.destroy m) s fun t => SameBytes s t ∧ ended t 0 3 [])
      ∧ (ready 0 3 → arg = 0 → mapHas s.parts p = true → Completes (.destroy m) s fun t =>
        pends t 0 ∧ (∀ d ∈ partNodes (partOf s p), (nodeOf t d).cxl = true) ∧ (boxOf t 0).freeing = (boxOf s 0).freeing
        ∧ t.parts = s.parts)
      ∧ (ready 0 4 → 2048 ≤ arg → Completes (.preempt m) s fun t => ended t 0 2 [] ∧ t.preempts = s.preempts)
      ∧ (ready 0 4 → arg < 2048 →
        let u := unitAt s (arg % 512) (arg / 512)
        (u.live = true → u.ending = none → u.part = p → Completes (.preempt m) s fun t =>
          SameBytes s t ∧ ended t 0 1 [] ∧ preempting t (arg % 512) (arg / 512) = true)
        ∧ (u.part ≠ p → Completes (.preempt m) s fun t => SameBytes s t ∧ ended t 0 1 [] ∧ t.preempts = s.preempts))
      ∧ (ready 0 5 → 16 ≤ arg → Completes (.linkup m) s fun t => ended t 0 2 [] ∧ t.fports = s.fports)
      ∧ (ready 0 5 → arg < 16 → Completes (.linkup m) s fun t =>
        SameBytes s t ∧ ended t 0 1 [] ∧ t.pfEv.getLsbD 4 = true ∧ fportOf t arg = { up := true, fast := true, replays := [] }
        ∧ ∀ j, j ≠ arg → fportOf t j = fportOf s j))
    ∧ (stack < 4 →
      let x := stackOf s stack
      let others (t : State) : Prop := ∀ j, j ≠ stack → stackOf t j = stackOf s j
      let mask : BitVec 4 := BitVec.ofNat 4 (fieldNat r 8 1)
      (ready 1 1 → Completes (.telemetry m) s fun t =>
        SameBytes s t ∧ ∃ w, w.length = 22 ∧ ended t 1 1 (w ++ [x.retained.setWidth 8]))
      ∧ (ready 1 2 →
        let n := if fieldNat r 8 4 = 0 then Config.scrubDefault.toNat else fieldNat r 8 4
        Completes (.scrub m) s fun t =>
          SameBytes s t ∧ ended t 1 1 (leBytes 4 n) ∧ stackOf t stack = { x with scrub := n } ∧ others t)
      ∧ (ready 1 3 → 15 < fieldNat r 8 1 ∨ 1 < fieldNat r 9 1 → Completes (.retain m) s fun t => SameBytes s t ∧ ended t 1 2 [])
      ∧ (ready 1 3 → fieldNat r 8 1 = 0 → fieldNat r 9 1 = 1 → Completes (.retain m) s fun t =>
        SameBytes s t ∧ ended t 1 1 [x.retained.setWidth 8] ∧ stackOf t stack = x)
      ∧ (ready 1 3 → fieldNat r 8 1 < 16 → fieldNat r 8 1 ≠ 0 → fieldNat r 9 1 = 1 →
        let refused := ∃ e ∈ s.parts, cannotTake s e.2 (groupRanges stack mask) = true
        (refused → Completes (.retain m) s fun t => SameBytes s t ∧ ended t 1 3 [] ∧ stackOf t stack = x)
        ∧ (¬refused → Completes (.retain m) s fun t => SameBytes s t ∧ pends t 1 ∧ stackOf t stack = x))
      ∧ (ready 1 3 → fieldNat r 8 1 < 16 → fieldNat r 9 1 = 0 → Completes (.retain m) s fun t =>
        let out := groupRanges stack (mask &&& x.retained)
        ended t 1 1 [(x.retained &&& ~~~mask).setWidth 8] ∧ stackOf t stack = { x with retained := x.retained &&& ~~~mask } ∧ others t
        ∧ ∀ y, memByte t.mem y = if inRanges out y = true then 0 else memByte s.mem y)
      ∧ (ready 1 4 →
        let first := fieldNat r 8 2
        let n := min 6 (Config.repairCount stack - first)
        Completes (.repairlog m) s fun t => SameBytes s t ∧ ∃ w, w.length = 8 * n ∧ ended t 1 1 w
          ∧ ∀ i, i < n → fieldNat w (8 * i) 8 = (Config.repairEntry stack (first + i)).toNat))
    ∧ (∀ d, d < 4 →
      let x := stackOf s d
      let all : BitVec 4 := x.retained ||| x.leaving
      let used := usesPhysical s (runOver (groupRanges d x.leaving))
      (x.leaving = 0 ∨ used = true → Completes (.retentionPowerOff d) s fun t => t = s)
      ∧ (x.leaving ≠ 0 → used = false → (boxOf s 1).window = m → Completes (.retentionPowerOff d) s fun t =>
        SameBytes s t ∧ ended t 1 1 [all.setWidth 8] ∧ stackOf t d = { x with retained := all, leaving := 0 }
        ∧ ∀ j, j ≠ d → stackOf t j = stackOf s j))
    ∧ (ready 2 1 →
      let bad := p ≠ 0 ∨ fieldNat r 5 3 ≠ 0 ∨ fieldNat r 20 44 ≠ 0 ∨ dpa % 4096 ≠ 0
      let img := Config.hostBytes s.fresh (fieldNat r 16 4)
      let good := Config.firmwareVerifies img = true ∧ s.fw.fused.toNat ≤ (Config.firmwareSeq img).toNat
      (bad → Completes (.recover m) s fun t => SameBytes s t ∧ ended t 2 2 [] ∧ t.fw = s.fw)
      ∧ (¬bad → s.parts ≠ [] ∨ ¬good → Completes (.recover m) s fun t => SameBytes s t ∧ ended t 2 3 [] ∧ t.fw = s.fw)
      ∧ (¬bad → s.parts = [] → good → Completes (.recover m) s fun t =>
        SameBytes s t ∧ ended t 2 1 [] ∧ t.fw = { s.fw with image := img, resetAt := some (s.clk + ceilDiv 21000000000 s.tb.period) }))
    ∧ ((boxOf s 0).cmd = some m → fieldNat r 0 1 = 3 →
      let t := mgmtTick s
      ((boxOf s 0).freeing = false → unitsOver s p = false → t = s)
      ∧ ((boxOf s 0).freeing = false → unitsOver s p = true →
        SameBytes s t ∧ (boxOf t 0).freeing = true ∧ (boxOf t 0).cmd = some m ∧ t.parts = s.parts
        ∧ (∀ c, c < 16 → (partOf s p).gatmask.getLsbD c = true → (chanOf s c).owes = none → (chanOf t c).opened = false)
        ∧ ∀ i it, (partOf s p).itbase ≤ i → i < (partOf s p).itbase + (partOf s p).itcnt → mapFind s.itins i = some it →
            mapFind t.itins i = some (stopItin it false))
      ∧ ((boxOf s 0).freeing = true → partQuiet s p = true → (boxOf s 0).window = m → MemoryCanonical s →
        ended t 0 1 [] ∧ mapHas t.parts p = false ∧ ∀ y, inWins (partOf s p).wins y = true → memByte t.mem y = 0))

/-! ## Registers of the host's functions, resets and the time base (R386, R393, R394, R396, R398, R399, R405) -/

/-- R386, R393: a one written to PFEVSTAT, PFERR or EVSTAT clears its bit; a write into a mailbox window changes its eight bytes and a
write elsewhere nothing. R396, R386: a cold reset, at once or 1 ms after an accepted RECOVER, leaves the reset state with what flash
holds; without a good image no port is up and TNS does not run. That the state it leaves is State.reset (memory that reads zero, TNS 0, every
port up: logs 3, 4 and 38), what other packages hold staying (log 15), and that the schedule and the count of free values go on, is the
model's own. R394: a function level reset cancels every node of its
partition. R398, R399, R405: a frequency change changes the time of a clock alone; the reference disciplines TNS, by a step forward when
it is more than 1 ms ahead, which TNS makes as the next clock begins, and else by a slew, and a change of the time base's state signals
vector 5; time is kept in 1/21000 ns, which is the model's choice (log 9). -/
def Obligations.ResetsAndTime : Prop :=
  ∀ (s : State) (value : Word) (p off ps : Nat) (offset : Int),
    (Completes (.pfevstatClear value) s fun t =>
      t = { s with pfEv := t.pfEv } ∧ ∀ b, t.pfEv.getLsbD b = (s.pfEv.getLsbD b && !value.getLsbD b))
    ∧ (Completes (.pferrClear value) s fun t =>
      t = { s with pfErr := t.pfErr } ∧ ∀ b, t.pfErr.getLsbD b = (s.pfErr.getLsbD b && !value.getLsbD b))
    ∧ (mapHas s.parts p = true → Completes (.evstatClear p value) s fun t =>
      t = { s with vfEv := t.vfEv } ∧ (∀ q, q ≠ p → mapGet 0 t.vfEv q = mapGet 0 s.vfEv q)
      ∧ ∀ b, (mapGet 0 t.vfEv p).getLsbD b = ((mapGet 0 s.vfEv p).getLsbD b && !value.getLsbD b))
    ∧ (mapHas s.parts p = false → Completes (.evstatClear p value) s fun t => t = s)
    ∧ (let n := off / 256
      let at' := off % 256
      (off % 8 = 0 → n < 3 → at' < 64 → n = 2 ∨ s.fw.verified = true → Completes (.registerWrite off value) s fun t =>
        t = { s with boxes := t.boxes } ∧ (∀ j, j ≠ n → boxOf t j = boxOf s j) ∧ (boxOf t n).cmd = (boxOf s n).cmd
        ∧ windowBytes (boxOf t n).window =
            (windowBytes (boxOf s n).window).take at' ++ leBytes 8 value.toNat ++ (windowBytes (boxOf s n).window).drop (at' + 8))
      ∧ (3 ≤ n ∨ 64 ≤ at' → Completes (.registerWrite off value) s fun t => t = s))
    ∧ (∀ i ∈ ([.coldReset, .recoverReset] : List Instr),
      (i = .recoverReset → ∃ at', s.fw.resetAt = some at' ∧ at' ≤ s.clk) → Completes i s fun t =>
        t = { State.reset with
          fw := t.fw, turns := s.turns, fresh := s.fresh, mem := t.mem, poison := t.poison, fports := t.fports }
        ∧ (MemoryCanonical s → ∀ y, memByte t.mem y = if farAddr y = true then memByte s.mem y else 0)
        ∧ (∀ l, l ∈ t.poison ↔ l ∈ s.poison ∧ farAddr (64 * l) = true)
        ∧ (∀ q, q < 16 → fportOf t q = { up := t.fw.verified, fast := true, replays := [] }) ∧ t.fw.timed = false
        ∧ t.fw.fused = s.fw.fused ∧ t.fw.image = s.fw.image ∧ t.fw.running = Config.firmwareSeq s.fw.image ∧ t.fw.resetAt = none
        ∧ (t.fw.verified = true ↔ Config.firmwareVerifies s.fw.image = true ∧ s.fw.fused.toNat ≤ (Config.firmwareSeq s.fw.image).toNat))
    ∧ ((∀ at', s.fw.resetAt = some at' → s.clk < at') → Completes .recoverReset s fun t => t = s)
    ∧ (mapHas s.parts p = true → Completes (.functionLevelReset p) s fun t =>
      (∀ d ∈ partNodes (partOf s p), (nodeOf t d).cxl = true) ∧ t.parts = s.parts)
    ∧ (mapHas s.parts p = true → (∀ d ∈ partNodes (partOf s p), tasksUnder s d = []) → Completes (.functionLevelReset p) s fun t =>
      t = { s with nodes := t.nodes } ∧ ∀ d ∈ partNodes (partOf s p), nodeOf t d = { nodeOf s d with cxl := true })
    ∧ (0 < ps → Completes (.dvfsChange ps) s fun t => t = { s with tb := { s.tb with period := 21 * ps } })
    ∧ (s.parts = [] →
      let sync (t : State) (st tns : Nat) (slew : Int) : Prop :=
        t = { s with
          tb := { s.tb with tns := tns, slew := slew, st := st, jump := 0 }, pfEv := if s.tb.st = st then s.pfEv else s.pfEv ||| 32 }
      let to' (t : State) (d : Int) : Prop :=
        if 1000000 < d then t = { s with tb := { s.tb with slew := 0, jump := d.toNat } } else sync t (if d = 0 then 2 else 1) s.tb.tns (d * 21000)
      let past := s.tb.tns % 1000000000
      (Completes (.ptpSync offset) s fun t => to' t offset)
      ∧ (past < 500000000 → Completes .ppsEdge s fun t => to' t (-(past : Int)))
      ∧ (500000000 ≤ past → Completes .ppsEdge s fun t => to' t (1000000000 - (past : Int)))
      ∧ (Completes .referenceLost s fun t => sync t 0 s.tb.tns 0)
      ∧ let t := tick s
        t.clk = s.clk + 1 ∧ (s.fw.verified = false → t.tb.tns = s.tb.tns)
        ∧ (s.fw.verified = true → s.tb.slew = 0 → t.tb.tns = s.tb.tns + s.tb.jump + (s.tb.frac + s.tb.period) / 21000
          ∧ t.tb.frac = (s.tb.frac + s.tb.period) % 21000 ∧ t.tb.jump = 0
          ∧ (0 < s.tb.jump → t.tb.st = 3 ∧ t.pfEv = if s.tb.st = 3 then s.pfEv else s.pfEv ||| 32)))

/-! ## Encodings (R18, R20, R23 to R44) -/

/-- R20, R24 to R41: words that the spec writes out decode to the instructions it gives them, and the all-zero word to none in any
stream. -/
def Obligations.LiteralWords : Prop :=
  let vw (typ : BitVec 4) (dst a b c : BitVec 16) : VWord :=
    { typ := typ, dst := dst, a := a, b := b, c := c, kpred := 0xF, take := 0xF, give := 0xF, rnd := 0, sat := false, course := false }
  let mi : MIssue := { mark := false, take := 0xF, give := 0xF, knot := 0xF, stampen := false, stamp := 0 }
  let mc : MCtl := { mark := false, stampen := false, stamp := 0 }
  (∀ x ∈ ([(0x04642800, .add 3 4 5), (0x04C42814, .div 6 4 5), (0x6CE20010, .ldd 7 2 0 16), (0x4420FFFC, .bne 1 0 0xFFFC),
      (0x24838000, .hset 4 3 0x8000), (0x00000001, .nop), (0x00000006, .eret), (0xA0A00011, .getsr 5 0x11),
      (0xA0051010, .putsr 5 0x10), (0xBC000053, .tokTake 3)] : List (Nat × Instr)), decodeTableWord 32 x.1 = some x.2)
  ∧ (∀ x ∈ ([(0xB0C50001, .talloc 6 5), (0xB0042805, .twait 4 5), (0xC0040200, .fabDrain 4), (0xC0E00300, .fabQuery 7 0)]
      : List (Nat × Instr)), decodeTableWord 32 x.1 = some x.2)
  ∧ (∀ x ∈ ([(0x0108_0508_0104_0180_000F_FF00, .vadd (vw 0 0x8050 0x8010 0x4018 0)),
      (0x4008_0D08_0C00_0000_000F_FF00, .vrsum (vw 0 0x80D0 0x80C0 0 0)), (0x7000_4600_0000_0000_000F_FF00, .vshape 1 3 false),
      (0x7203_0003_6000_0000_000F_FF00, .vbrLoop 0 0x36 false), (0x7301_4100_01F8_0000_000F_FF00, .vmod 5 1 false 3 0xF false false),
      (0x0608_0808_1808_5008_080F_FF00, .vnfma (vw 0 0x8080 0x8180 0x8500 0x8080))] : List (Nat × Instr)),
      decodeTableWord 96 x.1 = some x.2)
  ∧ (∀ x ∈ ([(0x0100_2800_0000_0000_000F_FF00_0000_0000_1000_0000_0000_0000, .mldw mi 0x28 0 true 0 0),
      (0x0200_0000_0000_0000_000F_FF00_0000_0000_0000_0000_0000_0000, .mswap mi),
      (0x0B00_0000_0000_0000_000F_FF00_0000_0000_0080_0000_0000_0000, .mwaitSet mc 1),
      (0x0C00_0000_0000_0000_000F_FF20_0000_0200_0000_0000_0000_0000, .mnop { mi with stampen := true, stamp := 0x1000 }),
      (0x0320_0200_1004_0100_020F_FF00_0000_0000_001C_0000_0000_0000,
        .mmac mi { fmt := 2, hw := 2, ha := 1, hc := 4, sha := 1, shc := 0, dprec := 0, nega := false, negw := false, accdis := true
                   mm1 := 7, kr0 := 0, krm1 := 0, nc0 := 0, ncm1 := 0 })] : List (Nat × Instr)), decodeTableWord 192 x.1 = some x.2)
  ∧ decodeTableWord 32 0 = none ∧ decodeTableWord 96 0 = none ∧ decodeTableWord 192 0 = none

/-- R18, R23 to R44: the word of every well-formed scalar, vector or matrix instruction fits its stream's width and decodes to that
instruction, with every operand at every value its encoding admits; the instructions that a register's value alone tells apart share one
word, which decodes to the first of them (the model's choice, log 24). -/
def Obligations.DecodeUndoesEncode : Prop :=
  ∀ (i : Instr) (n w : Nat), i.wf = true → encode i = some (n, w) →
    (n = 32 ∨ n = 96 ∨ n = 192) ∧ w < 2 ^ n ∧ decodeTableWord n w = some (wordRow i)

/-! ## Steps (R19, R80, R82, R102, R276) -/

/-- R19, R80, R82, R95, R276: what falls due by the clock goes first. Where nothing does, a step gives the next turn: a scalar turn issues the
word at the counter of the first unit in order that may issue, fetched through its translation and decoded; a turn of a forked sequencer
issues the word at its counter; an engine's turn starts the command at the head of its queue; a turn that names a step of the part takes
it; all where nothing of the clock must go before, as nothing must before what moves no token, installs no bond and waits at no TALLOC.
With no turn, and nothing that could be done, a clock goes by. What the schedule of turns is, is the model's own (log 1), and so is the
order of what it gives (log 58). -/
def Obligations.StepRunsDecodedInstruction : Prop :=
  ∀ (s : State) (x : Instr) (ts : List Turn) (c slot n : Nat),
    let s1 := { s with turns := ts }
    let k := getCore s c
    let u := unitAt s c slot
    (∀ o, dueNow s = some o → step s = o) ∧ (dueNow s = none → c < 512 →
    (∀ place o, atTalloc (unitAt s c (place - 9)) = false →
      (∀ t, o = .next t → (getCore t c).tokq = k.tokq ∧ bondSeen c t = bondSeen c s) → rivalOf c place s o = none)
    ∧ (∀ j pa leaf t0, s.turns = .scalar c :: ts → k.issuedAt ≠ some s.clk → 1 ≤ j → j ≤ 4 → slot = (k.lastSlot + j) % 4 →
      (∀ i, 1 ≤ i → i < j → slotMayIssue s1 c ((k.lastSlot + i) % 4) = false) → slotMayIssue s1 c slot = true →
      u.pc.toNat % 4 = 0 → walkHeld (takeIssue (focusOn s1 c slot 0)) u.pc = false →
      translate (takeIssue (focusOn s1 c slot 0)) u.pc .fetch = (.ok pa leaf, t0) → poisoned t0 pa 4 = false →
      (homeOk t0 pa = true ∨ (pa / 64, false) ∈ (curCore t0).icache) → (pa / 64, true) ∉ (curCore t0).icache →
      let t := fetchLine t0 (pa / 64)
      decodeScalar (memNat t.mem pa 4) = .instr x → regsUsable k u s.clk x = true → heldWord x t (exec x t) = false →
      (unitAt t c slot).diverged = false → checkHeld c slot (comparedAs x) t (exec x t) = false →
      rivalOf c (9 + issuedSlot c s1 (exec x t)) s1 (exec x t) = none → step s = exec x t)
    ∧ (s.turns = .vector c :: ts → vecSlot k = some slot → k.vec.strm.mode = .forked → k.vec.strm.mod = none → k.vec.strm.repcnt = 0 →
      mayIssue s1 c slot 8 = true → k.vec.strm.pc.toNat < 8192 → k.badWords.contains k.vec.strm.pc.toNat = false →
      decodeVector (mapGet 0 k.imemV k.vec.strm.pc.toNat).toNat = .instr x →
      rivalOf c 0 s1 (exec x (focusOn s1 c slot 0)) = none → step s = exec x (focusOn s1 c slot 0))
    ∧ (s.turns = .matrix c n :: ts → n < 8 → matSlot k n = some slot → (matOf k n).mode = .forked → (matOf k n).mod = none →
      mayIssue s1 c slot n = true → (matOf k n).pc.toNat < 8192 → k.badWords.contains (8192 + (matOf k n).pc.toNat) = false →
      decodeMatrix (mapGet 0 k.imemM (matOf k n).pc.toNat).toNat = .instr x →
      rivalOf c (1 + n) s1 (exec x (focusOn s1 c slot n)) = none → step s = exec x (focusOn s1 c slot n))
    ∧ (∀ cmd cs, s.turns = .engine n c slot :: ts → n < 5 → slot < 4 → queueAt s1 { core := c, slot := slot } n = cmd :: cs →
      cmdInstr { cmd with core := c, slot := slot } = some x → step s = exec x s1)
    ∧ (s.turns = .occur x :: ts → isStep x = true →
      (∀ a b, x = .scalarWaitResume a b → rivalOf a (9 + b) s1 (exec x s1) = none) →
      (∀ a, x = .batchDeadline a → (chanOf s1 a).owes.isSome = true) → step s = exec x s1)
    ∧ (s.turns = [] → (∀ m ∈ partMoves s ++ s.cores.flatMap (fun e => coreMoves s e.1 e.2), m s = .next s) → step s = .next (clockStep s)))

/-- R2, R19: every step from a state whose memory stands in its canonical form leaves it in that form. -/
def Obligations.MemoryStaysCanonical : Prop :=
  ∀ s t : State, MemoryCanonical s → step s = .next t → MemoryCanonical t

/-- R93, R94: every step keeps COUNT + RSV of each token queue at most 32: TOK words and the words of the streams, their giving as they
finish, their releases, stops, ends and pre-emptions among them. A unit that is away returns with the COUNT its image in memory holds
(R374), so none is away here. -/
def Obligations.TokenQueuesStayBounded : Prop :=
  ∀ s t : State, s.aways = [] → (∀ c, TokensBounded (getCore s c)) → step s = .next t → ∀ c, TokensBounded (getCore t c)

/-- R83, R96, R147, R205, R279, R396, R399, R400: after reset no partition, unit or task exists, memory stands in its canonical form, CYC and
TNS read zero, and on every core the knots are clear, every stream and sequence counter is at its reset value, VSHAPE is 1 row of 32
lanes, every handle has GEN 0 and names no tile. That TNS starts from 0 and memory lists nothing is the model's choice (log 3, log 4). -/
def Obligations.ResetState : Prop :=
  let s := State.reset
  MemoryCanonical s ∧ s.clk = 0 ∧ s.tb.tns = 0 ∧ s.parts = [] ∧ s.tasks = [] ∧ s.cmds = [] ∧ s.deps = [] ∧ s.pfEv = 0 ∧ s.pfErr = 0
  ∧ (∀ c i, (unitAt s c i).live = false)
  ∧ ∀ c, let k := getCore s c
    k.knots = 0 ∧ k.hodSeq = 0 ∧ k.vec.owner = none ∧ k.vec.rows = 1 ∧ k.vec.lanes = 32 ∧ (∀ n, subOf k n = none)
    ∧ (∀ u n, strmOf k u n = Strm.reset) ∧ (∀ q, (tokOf k q).owner = none ∧ (tokOf k q).count = 0) ∧ TokensBounded k ∧ SlotsBounded k
    ∧ ∀ h, (tileOf k h).valid = false ∧ (tileOf k h).gen = 0
end

