-- ==== Sys2Proof/Laws/Dispatch.lean ====
section
/-! SUPPORT. What `exec` does of each constructor: the meaning its arm calls. -/
namespace Sys2Proof.Machine

@[simp] theorem exec_trap (ra : BitVec 5) (s : State) :
    exec (.trap ra) s = execTrap ra s := rfl
@[simp] theorem exec_add (rd : BitVec 5) (ra : BitVec 5) (rb : BitVec 5) (s : State) :
    exec (.add rd ra rb) s = execAdd rd ra rb s := rfl
@[simp] theorem exec_sub (rd : BitVec 5) (ra : BitVec 5) (rb : BitVec 5) (s : State) :
    exec (.sub rd ra rb) s = execSub rd ra rb s := rfl
@[simp] theorem exec_and (rd : BitVec 5) (ra : BitVec 5) (rb : BitVec 5) (s : State) :
    exec (.and rd ra rb) s = execAnd rd ra rb s := rfl
@[simp] theorem exec_or (rd : BitVec 5) (ra : BitVec 5) (rb : BitVec 5) (s : State) :
    exec (.or rd ra rb) s = execOr rd ra rb s := rfl
@[simp] theorem exec_xor (rd : BitVec 5) (ra : BitVec 5) (rb : BitVec 5) (s : State) :
    exec (.xor rd ra rb) s = execXor rd ra rb s := rfl
@[simp] theorem exec_andn (rd : BitVec 5) (ra : BitVec 5) (rb : BitVec 5) (s : State) :
    exec (.andn rd ra rb) s = execAndn rd ra rb s := rfl
@[simp] theorem exec_orn (rd : BitVec 5) (ra : BitVec 5) (rb : BitVec 5) (s : State) :
    exec (.orn rd ra rb) s = execOrn rd ra rb s := rfl
@[simp] theorem exec_sll (rd : BitVec 5) (ra : BitVec 5) (rb : BitVec 5) (s : State) :
    exec (.sll rd ra rb) s = execSll rd ra rb s := rfl
@[simp] theorem exec_srl (rd : BitVec 5) (ra : BitVec 5) (rb : BitVec 5) (s : State) :
    exec (.srl rd ra rb) s = execSrl rd ra rb s := rfl
@[simp] theorem exec_sra (rd : BitVec 5) (ra : BitVec 5) (rb : BitVec 5) (s : State) :
    exec (.sra rd ra rb) s = execSra rd ra rb s := rfl
@[simp] theorem exec_rol (rd : BitVec 5) (ra : BitVec 5) (rb : BitVec 5) (s : State) :
    exec (.rol rd ra rb) s = execRol rd ra rb s := rfl
@[simp] theorem exec_ror (rd : BitVec 5) (ra : BitVec 5) (rb : BitVec 5) (s : State) :
    exec (.ror rd ra rb) s = execRor rd ra rb s := rfl
@[simp] theorem exec_mul (rd : BitVec 5) (ra : BitVec 5) (rb : BitVec 5) (s : State) :
    exec (.mul rd ra rb) s = execMul rd ra rb s := rfl
@[simp] theorem exec_mulh (rd : BitVec 5) (ra : BitVec 5) (rb : BitVec 5) (s : State) :
    exec (.mulh rd ra rb) s = execMulh rd ra rb s := rfl
@[simp] theorem exec_mulhu (rd : BitVec 5) (ra : BitVec 5) (rb : BitVec 5) (s : State) :
    exec (.mulhu rd ra rb) s = execMulhu rd ra rb s := rfl
@[simp] theorem exec_div (rd : BitVec 5) (ra : BitVec 5) (rb : BitVec 5) (s : State) :
    exec (.div rd ra rb) s = execDiv rd ra rb s := rfl
@[simp] theorem exec_divu (rd : BitVec 5) (ra : BitVec 5) (rb : BitVec 5) (s : State) :
    exec (.divu rd ra rb) s = execDivu rd ra rb s := rfl
@[simp] theorem exec_rem (rd : BitVec 5) (ra : BitVec 5) (rb : BitVec 5) (s : State) :
    exec (.rem rd ra rb) s = execRem rd ra rb s := rfl
@[simp] theorem exec_remu (rd : BitVec 5) (ra : BitVec 5) (rb : BitVec 5) (s : State) :
    exec (.remu rd ra rb) s = execRemu rd ra rb s := rfl
@[simp] theorem exec_min (rd : BitVec 5) (ra : BitVec 5) (rb : BitVec 5) (s : State) :
    exec (.min rd ra rb) s = execMin rd ra rb s := rfl
@[simp] theorem exec_max (rd : BitVec 5) (ra : BitVec 5) (rb : BitVec 5) (s : State) :
    exec (.max rd ra rb) s = execMax rd ra rb s := rfl
@[simp] theorem exec_minu (rd : BitVec 5) (ra : BitVec 5) (rb : BitVec 5) (s : State) :
    exec (.minu rd ra rb) s = execMinu rd ra rb s := rfl
@[simp] theorem exec_maxu (rd : BitVec 5) (ra : BitVec 5) (rb : BitVec 5) (s : State) :
    exec (.maxu rd ra rb) s = execMaxu rd ra rb s := rfl
@[simp] theorem exec_slt (rd : BitVec 5) (ra : BitVec 5) (rb : BitVec 5) (s : State) :
    exec (.slt rd ra rb) s = execSlt rd ra rb s := rfl
@[simp] theorem exec_sltu (rd : BitVec 5) (ra : BitVec 5) (rb : BitVec 5) (s : State) :
    exec (.sltu rd ra rb) s = execSltu rd ra rb s := rfl
@[simp] theorem exec_clz (rd : BitVec 5) (ra : BitVec 5) (s : State) :
    exec (.clz rd ra) s = execClz rd ra s := rfl
@[simp] theorem exec_ctz (rd : BitVec 5) (ra : BitVec 5) (s : State) :
    exec (.ctz rd ra) s = execCtz rd ra s := rfl
@[simp] theorem exec_popc (rd : BitVec 5) (ra : BitVec 5) (s : State) :
    exec (.popc rd ra) s = execPopc rd ra s := rfl
@[simp] theorem exec_brev (rd : BitVec 5) (ra : BitVec 5) (s : State) :
    exec (.brev rd ra) s = execBrev rd ra s := rfl
@[simp] theorem exec_clmul (rd : BitVec 5) (ra : BitVec 5) (rb : BitVec 5) (s : State) :
    exec (.clmul rd ra rb) s = execClmul rd ra rb s := rfl
@[simp] theorem exec_clmulh (rd : BitVec 5) (ra : BitVec 5) (rb : BitVec 5) (s : State) :
    exec (.clmulh rd ra rb) s = execClmulh rd ra rb s := rfl
@[simp] theorem exec_sextB (rd : BitVec 5) (ra : BitVec 5) (s : State) :
    exec (.sextB rd ra) s = execSextB rd ra s := rfl
@[simp] theorem exec_sextH (rd : BitVec 5) (ra : BitVec 5) (s : State) :
    exec (.sextH rd ra) s = execSextH rd ra s := rfl
@[simp] theorem exec_sextW (rd : BitVec 5) (ra : BitVec 5) (s : State) :
    exec (.sextW rd ra) s = execSextW rd ra s := rfl
@[simp] theorem exec_zextB (rd : BitVec 5) (ra : BitVec 5) (s : State) :
    exec (.zextB rd ra) s = execZextB rd ra s := rfl
@[simp] theorem exec_zextH (rd : BitVec 5) (ra : BitVec 5) (s : State) :
    exec (.zextH rd ra) s = execZextH rd ra s := rfl
@[simp] theorem exec_zextW (rd : BitVec 5) (ra : BitVec 5) (s : State) :
    exec (.zextW rd ra) s = execZextW rd ra s := rfl
@[simp] theorem exec_addi (rd : BitVec 5) (ra : BitVec 5) (imm : BitVec 16) (s : State) :
    exec (.addi rd ra imm) s = execAddi rd ra imm s := rfl
@[simp] theorem exec_andi (rd : BitVec 5) (ra : BitVec 5) (imm : BitVec 16) (s : State) :
    exec (.andi rd ra imm) s = execAndi rd ra imm s := rfl
@[simp] theorem exec_ori (rd : BitVec 5) (ra : BitVec 5) (imm : BitVec 16) (s : State) :
    exec (.ori rd ra imm) s = execOri rd ra imm s := rfl
@[simp] theorem exec_xori (rd : BitVec 5) (ra : BitVec 5) (imm : BitVec 16) (s : State) :
    exec (.xori rd ra imm) s = execXori rd ra imm s := rfl
@[simp] theorem exec_slti (rd : BitVec 5) (ra : BitVec 5) (imm : BitVec 16) (s : State) :
    exec (.slti rd ra imm) s = execSlti rd ra imm s := rfl
@[simp] theorem exec_sltiu (rd : BitVec 5) (ra : BitVec 5) (imm : BitVec 16) (s : State) :
    exec (.sltiu rd ra imm) s = execSltiu rd ra imm s := rfl
@[simp] theorem exec_slli (rd : BitVec 5) (ra : BitVec 5) (sh : BitVec 6) (s : State) :
    exec (.slli rd ra sh) s = execSlli rd ra sh s := rfl
@[simp] theorem exec_srli (rd : BitVec 5) (ra : BitVec 5) (sh : BitVec 6) (s : State) :
    exec (.srli rd ra sh) s = execSrli rd ra sh s := rfl
@[simp] theorem exec_srai (rd : BitVec 5) (ra : BitVec 5) (sh : BitVec 6) (s : State) :
    exec (.srai rd ra sh) s = execSrai rd ra sh s := rfl
@[simp] theorem exec_hset (rd : BitVec 5) (half : BitVec 2) (imm : BitVec 16) (s : State) :
    exec (.hset rd half imm) s = execHset rd half imm s := rfl
@[simp] theorem exec_hins (rd : BitVec 5) (half : BitVec 2) (imm : BitVec 16) (s : State) :
    exec (.hins rd half imm) s = execHins rd half imm s := rfl
@[simp] theorem exec_beq (ra : BitVec 5) (rb : BitVec 5) (off : BitVec 16) (s : State) :
    exec (.beq ra rb off) s = execBeq ra rb off s := rfl
@[simp] theorem exec_bne (ra : BitVec 5) (rb : BitVec 5) (off : BitVec 16) (s : State) :
    exec (.bne ra rb off) s = execBne ra rb off s := rfl
@[simp] theorem exec_blt (ra : BitVec 5) (rb : BitVec 5) (off : BitVec 16) (s : State) :
    exec (.blt ra rb off) s = execBlt ra rb off s := rfl
@[simp] theorem exec_bge (ra : BitVec 5) (rb : BitVec 5) (off : BitVec 16) (s : State) :
    exec (.bge ra rb off) s = execBge ra rb off s := rfl
@[simp] theorem exec_bltu (ra : BitVec 5) (rb : BitVec 5) (off : BitVec 16) (s : State) :
    exec (.bltu ra rb off) s = execBltu ra rb off s := rfl
@[simp] theorem exec_bgeu (ra : BitVec 5) (rb : BitVec 5) (off : BitVec 16) (s : State) :
    exec (.bgeu ra rb off) s = execBgeu ra rb off s := rfl
@[simp] theorem exec_jal (off : BitVec 26) (s : State) :
    exec (.jal off) s = execJal off s := rfl
@[simp] theorem exec_jalr (rd : BitVec 5) (ra : BitVec 5) (imm : BitVec 16) (s : State) :
    exec (.jalr rd ra imm) s = execJalr rd ra imm s := rfl
@[simp] theorem exec_ldb (rd : BitVec 5) (ra : BitVec 5) (cls : BitVec 4) (off : BitVec 12) (s : State) :
    exec (.ldb rd ra cls off) s = execLdb rd ra cls off s := rfl
@[simp] theorem exec_ldh (rd : BitVec 5) (ra : BitVec 5) (cls : BitVec 4) (off : BitVec 12) (s : State) :
    exec (.ldh rd ra cls off) s = execLdh rd ra cls off s := rfl
@[simp] theorem exec_ldw (rd : BitVec 5) (ra : BitVec 5) (cls : BitVec 4) (off : BitVec 12) (s : State) :
    exec (.ldw rd ra cls off) s = execLdw rd ra cls off s := rfl
@[simp] theorem exec_ldd (rd : BitVec 5) (ra : BitVec 5) (cls : BitVec 4) (off : BitVec 12) (s : State) :
    exec (.ldd rd ra cls off) s = execLdd rd ra cls off s := rfl
@[simp] theorem exec_ldbu (rd : BitVec 5) (ra : BitVec 5) (cls : BitVec 4) (off : BitVec 12) (s : State) :
    exec (.ldbu rd ra cls off) s = execLdbu rd ra cls off s := rfl
@[simp] theorem exec_ldhu (rd : BitVec 5) (ra : BitVec 5) (cls : BitVec 4) (off : BitVec 12) (s : State) :
    exec (.ldhu rd ra cls off) s = execLdhu rd ra cls off s := rfl
@[simp] theorem exec_ldwu (rd : BitVec 5) (ra : BitVec 5) (cls : BitVec 4) (off : BitVec 12) (s : State) :
    exec (.ldwu rd ra cls off) s = execLdwu rd ra cls off s := rfl
@[simp] theorem exec_stb (rs : BitVec 5) (ra : BitVec 5) (cls : BitVec 4) (off : BitVec 12) (s : State) :
    exec (.stb rs ra cls off) s = execStb rs ra cls off s := rfl
@[simp] theorem exec_sth (rs : BitVec 5) (ra : BitVec 5) (cls : BitVec 4) (off : BitVec 12) (s : State) :
    exec (.sth rs ra cls off) s = execSth rs ra cls off s := rfl
@[simp] theorem exec_stw (rs : BitVec 5) (ra : BitVec 5) (cls : BitVec 4) (off : BitVec 12) (s : State) :
    exec (.stw rs ra cls off) s = execStw rs ra cls off s := rfl
@[simp] theorem exec_std (rs : BitVec 5) (ra : BitVec 5) (cls : BitVec 4) (off : BitVec 12) (s : State) :
    exec (.std rs ra cls off) s = execStd rs ra cls off s := rfl
@[simp] theorem exec_amoAdd (rd : BitVec 5) (ra : BitVec 5) (rb : BitVec 5) (cls : BitVec 4) (use : BitVec 3) (size : BitVec 1) (s : State) :
    exec (.amoAdd rd ra rb cls use size) s = execAmoAdd rd ra rb cls use size s := rfl
@[simp] theorem exec_amoAnd (rd : BitVec 5) (ra : BitVec 5) (rb : BitVec 5) (cls : BitVec 4) (use : BitVec 3) (size : BitVec 1) (s : State) :
    exec (.amoAnd rd ra rb cls use size) s = execAmoAnd rd ra rb cls use size s := rfl
@[simp] theorem exec_amoOr (rd : BitVec 5) (ra : BitVec 5) (rb : BitVec 5) (cls : BitVec 4) (use : BitVec 3) (size : BitVec 1) (s : State) :
    exec (.amoOr rd ra rb cls use size) s = execAmoOr rd ra rb cls use size s := rfl
@[simp] theorem exec_amoXor (rd : BitVec 5) (ra : BitVec 5) (rb : BitVec 5) (cls : BitVec 4) (use : BitVec 3) (size : BitVec 1) (s : State) :
    exec (.amoXor rd ra rb cls use size) s = execAmoXor rd ra rb cls use size s := rfl
@[simp] theorem exec_amoMin (rd : BitVec 5) (ra : BitVec 5) (rb : BitVec 5) (cls : BitVec 4) (use : BitVec 3) (size : BitVec 1) (s : State) :
    exec (.amoMin rd ra rb cls use size) s = execAmoMin rd ra rb cls use size s := rfl
@[simp] theorem exec_amoMax (rd : BitVec 5) (ra : BitVec 5) (rb : BitVec 5) (cls : BitVec 4) (use : BitVec 3) (size : BitVec 1) (s : State) :
    exec (.amoMax rd ra rb cls use size) s = execAmoMax rd ra rb cls use size s := rfl
@[simp] theorem exec_amoSwap (rd : BitVec 5) (ra : BitVec 5) (rb : BitVec 5) (cls : BitVec 4) (use : BitVec 3) (size : BitVec 1) (s : State) :
    exec (.amoSwap rd ra rb cls use size) s = execAmoSwap rd ra rb cls use size s := rfl
@[simp] theorem exec_cas (rd : BitVec 5) (ra : BitVec 5) (rb : BitVec 5) (cls : BitVec 4) (use : BitVec 3) (size : BitVec 1) (s : State) :
    exec (.cas rd ra rb cls use size) s = execCas rd ra rb cls use size s := rfl
@[simp] theorem exec_fence (scope : BitVec 2) (ball : BitVec 1) (aall : BitVec 1) (ra : BitVec 5) (rb : BitVec 5) (s : State) :
    exec (.fence scope ball aall ra rb) s = execFence scope ball aall ra rb s := rfl
@[simp] theorem exec_bknotSet (k : BitVec 4) (off : BitVec 16) (s : State) :
    exec (.bknotSet k off) s = execBknotSet k off s := rfl
@[simp] theorem exec_bknotClr (k : BitVec 4) (off : BitVec 16) (s : State) :
    exec (.bknotClr k off) s = execBknotClr k off s := rfl
@[simp] theorem exec_bstatSet (eng : BitVec 4) (flag : BitVec 2) (off : BitVec 16) (s : State) :
    exec (.bstatSet eng flag off) s = execBstatSet eng flag off s := rfl
@[simp] theorem exec_bstatClr (eng : BitVec 4) (flag : BitVec 2) (off : BitVec 16) (s : State) :
    exec (.bstatClr eng flag off) s = execBstatClr eng flag off s := rfl
@[simp] theorem exec_getsr (rd : BitVec 5) (sr : BitVec 12) (s : State) :
    exec (.getsr rd sr) s = execGetsr rd sr s := rfl
@[simp] theorem exec_putsr (ra : BitVec 5) (sr : BitVec 12) (s : State) :
    exec (.putsr ra sr) s = execPutsr ra sr s := rfl
@[simp] theorem exec_rdtime (rd : BitVec 5) (s : State) :
    exec (.rdtime rd) s = execRdtime rd s := rfl
@[simp] theorem exec_rdcyc (rd : BitVec 5) (s : State) :
    exec (.rdcyc rd) s = execRdcyc rd s := rfl
@[simp] theorem exec_sleepuntil (ra : BitVec 5) (s : State) :
    exec (.sleepuntil ra) s = execSleepuntil ra s := rfl
@[simp] theorem exec_talloc (rd : BitVec 5) (ra : BitVec 5) (s : State) :
    exec (.talloc rd ra) s = execTalloc rd ra s := rfl
@[simp] theorem exec_tfree (ra : BitVec 5) (s : State) :
    exec (.tfree ra) s = execTfree ra s := rfl
@[simp] theorem exec_tinfo (rd : BitVec 5) (ra : BitVec 5) (s : State) :
    exec (.tinfo rd ra) s = execTinfo rd ra s := rfl
@[simp] theorem exec_tsetfEmpty (ra : BitVec 5) (rb : BitVec 5) (s : State) :
    exec (.tsetfEmpty ra rb) s = execTsetfEmpty ra rb s := rfl
@[simp] theorem exec_tsetfFull (ra : BitVec 5) (rb : BitVec 5) (s : State) :
    exec (.tsetfFull ra rb) s = execTsetfFull ra rb s := rfl
@[simp] theorem exec_tsetfTarget (ra : BitVec 5) (rb : BitVec 5) (s : State) :
    exec (.tsetfTarget ra rb) s = execTsetfTarget ra rb s := rfl
@[simp] theorem exec_twait (ra : BitVec 5) (rb : BitVec 5) (s : State) :
    exec (.twait ra rb) s = execTwait ra rb s := rfl
@[simp] theorem exec_shapeW (ra : BitVec 5) (rb : BitVec 5) (s : State) :
    exec (.shapeW ra rb) s = execShapeW ra rb s := rfl
@[simp] theorem exec_portW (ra : BitVec 5) (eng : BitVec 4) (word : BitVec 2) (s : State) :
    exec (.portW ra eng word) s = execPortW ra eng word s := rfl
@[simp] theorem exec_portGo (rd : BitVec 5) (eng : BitVec 4) (s : State) :
    exec (.portGo rd eng) s = execPortGo rd eng s := rfl
@[simp] theorem exec_portCut (ra : BitVec 5) (eng : BitVec 4) (s : State) :
    exec (.portCut ra eng) s = execPortCut ra eng s := rfl
@[simp] theorem exec_evqPop (rd : BitVec 5) (ra : BitVec 5) (s : State) :
    exec (.evqPop rd ra) s = execEvqPop rd ra s := rfl
@[simp] theorem exec_tskArm (ra : BitVec 5) (s : State) :
    exec (.tskArm ra) s = execTskArm ra s := rfl
@[simp] theorem exec_tskSigDec (ra : BitVec 5) (s : State) :
    exec (.tskSigDec ra) s = execTskSigDec ra s := rfl
@[simp] theorem exec_tskSigWake (ra : BitVec 5) (s : State) :
    exec (.tskSigWake ra) s = execTskSigWake ra s := rfl
@[simp] theorem exec_tskEnd (ra : BitVec 5) (s : State) :
    exec (.tskEnd ra) s = execTskEnd ra s := rfl
@[simp] theorem exec_tskRetry (ra : BitVec 5) (s : State) :
    exec (.tskRetry ra) s = execTskRetry ra s := rfl
@[simp] theorem exec_hlCancel (ra : BitVec 5) (rb : BitVec 5) (s : State) :
    exec (.hlCancel ra rb) s = execHlCancel ra rb s := rfl
@[simp] theorem exec_hlCancelReset (ra : BitVec 5) (rb : BitVec 5) (s : State) :
    exec (.hlCancelReset ra rb) s = execHlCancelReset ra rb s := rfl
@[simp] theorem exec_hlRead (rd : BitVec 5) (ra : BitVec 5) (rb : BitVec 5) (s : State) :
    exec (.hlRead rd ra rb) s = execHlRead rd ra rb s := rfl
@[simp] theorem exec_knotSet (num : BitVec 4) (s : State) :
    exec (.knotSet num) s = execKnotSet num s := rfl
@[simp] theorem exec_knotClr (num : BitVec 4) (s : State) :
    exec (.knotClr num) s = execKnotClr num s := rfl
@[simp] theorem exec_knotWait (num : BitVec 4) (s : State) :
    exec (.knotWait num) s = execKnotWait num s := rfl
@[simp] theorem exec_tokGive (num : BitVec 4) (s : State) :
    exec (.tokGive num) s = execTokGive num s := rfl
@[simp] theorem exec_tokTake (num : BitVec 4) (s : State) :
    exec (.tokTake num) s = execTokTake num s := rfl
@[simp] theorem exec_barArrive (num : BitVec 4) (s : State) :
    exec (.barArrive num) s = execBarArrive num s := rfl
@[simp] theorem exec_barWait (num : BitVec 4) (s : State) :
    exec (.barWait num) s = execBarWait num s := rfl
@[simp] theorem exec_bobArrive (ra : BitVec 5) (s : State) :
    exec (.bobArrive ra) s = execBobArrive ra s := rfl
@[simp] theorem exec_bobExpect (ra : BitVec 5) (rb : BitVec 5) (s : State) :
    exec (.bobExpect ra rb) s = execBobExpect ra rb s := rfl
@[simp] theorem exec_bobWait (ra : BitVec 5) (s : State) :
    exec (.bobWait ra) s = execBobWait ra s := rfl
@[simp] theorem exec_fabBond (rd : BitVec 5) (ra : BitVec 5) (s : State) :
    exec (.fabBond rd ra) s = execFabBond rd ra s := rfl
@[simp] theorem exec_fabBondNw (rd : BitVec 5) (ra : BitVec 5) (s : State) :
    exec (.fabBondNw rd ra) s = execFabBondNw rd ra s := rfl
@[simp] theorem exec_fabDrain (ra : BitVec 5) (s : State) :
    exec (.fabDrain ra) s = execFabDrain ra s := rfl
@[simp] theorem exec_fabQuery (rd : BitVec 5) (ra : BitVec 5) (s : State) :
    exec (.fabQuery rd ra) s = execFabQuery rd ra s := rfl
@[simp] theorem exec_engStart (ra : BitVec 5) (rb : BitVec 5) (s : State) :
    exec (.engStart ra rb) s = execEngStart ra rb s := rfl
@[simp] theorem exec_engBind (ra : BitVec 5) (s : State) :
    exec (.engBind ra) s = execEngBind ra s := rfl
@[simp] theorem exec_engFork (ra : BitVec 5) (s : State) :
    exec (.engFork ra) s = execEngFork ra s := rfl
@[simp] theorem exec_engStop (ra : BitVec 5) (s : State) :
    exec (.engStop ra) s = execEngStop ra s := rfl
@[simp] theorem exec_engStat (rd : BitVec 5) (ra : BitVec 5) (s : State) :
    exec (.engStat rd ra) s = execEngStat rd ra s := rfl
@[simp] theorem exec_tokCfgClaim (ra : BitVec 5) (rb : BitVec 5) (s : State) :
    exec (.tokCfgClaim ra rb) s = execTokCfgClaim ra rb s := rfl
@[simp] theorem exec_tokCfgRelease (ra : BitVec 5) (rb : BitVec 5) (s : State) :
    exec (.tokCfgRelease ra rb) s = execTokCfgRelease ra rb s := rfl
@[simp] theorem exec_vadd (w : VWord) (s : State) :
    exec (.vadd w) s = execVadd w s := rfl
@[simp] theorem exec_vsub (w : VWord) (s : State) :
    exec (.vsub w) s = execVsub w s := rfl
@[simp] theorem exec_vmul (w : VWord) (s : State) :
    exec (.vmul w) s = execVmul w s := rfl
@[simp] theorem exec_vfma (w : VWord) (s : State) :
    exec (.vfma w) s = execVfma w s := rfl
@[simp] theorem exec_vfms (w : VWord) (s : State) :
    exec (.vfms w) s = execVfms w s := rfl
@[simp] theorem exec_vnfma (w : VWord) (s : State) :
    exec (.vnfma w) s = execVnfma w s := rfl
@[simp] theorem exec_vmin (w : VWord) (s : State) :
    exec (.vmin w) s = execVmin w s := rfl
@[simp] theorem exec_vmax (w : VWord) (s : State) :
    exec (.vmax w) s = execVmax w s := rfl
@[simp] theorem exec_vabs (w : VWord) (s : State) :
    exec (.vabs w) s = execVabs w s := rfl
@[simp] theorem exec_vneg (w : VWord) (s : State) :
    exec (.vneg w) s = execVneg w s := rfl
@[simp] theorem exec_vscale (w : VWord) (s : State) :
    exec (.vscale w) s = execVscale w s := rfl
@[simp] theorem exec_vrcp (w : VWord) (s : State) :
    exec (.vrcp w) s = execVrcp w s := rfl
@[simp] theorem exec_vrsq (w : VWord) (s : State) :
    exec (.vrsq w) s = execVrsq w s := rfl
@[simp] theorem exec_vexp2 (w : VWord) (s : State) :
    exec (.vexp2 w) s = execVexp2 w s := rfl
@[simp] theorem exec_vlog2 (w : VWord) (s : State) :
    exec (.vlog2 w) s = execVlog2 w s := rfl
@[simp] theorem exec_vtanh (w : VWord) (s : State) :
    exec (.vtanh w) s = execVtanh w s := rfl
@[simp] theorem exec_vsigm (w : VWord) (s : State) :
    exec (.vsigm w) s = execVsigm w s := rfl
@[simp] theorem exec_vsinpi (w : VWord) (s : State) :
    exec (.vsinpi w) s = execVsinpi w s := rfl
@[simp] theorem exec_vcospi (w : VWord) (s : State) :
    exec (.vcospi w) s = execVcospi w s := rfl
@[simp] theorem exec_vand (w : VWord) (s : State) :
    exec (.vand w) s = execVand w s := rfl
@[simp] theorem exec_vor (w : VWord) (s : State) :
    exec (.vor w) s = execVor w s := rfl
@[simp] theorem exec_vxor (w : VWord) (s : State) :
    exec (.vxor w) s = execVxor w s := rfl
@[simp] theorem exec_vnot (w : VWord) (s : State) :
    exec (.vnot w) s = execVnot w s := rfl
@[simp] theorem exec_vshl (w : VWord) (s : State) :
    exec (.vshl w) s = execVshl w s := rfl
@[simp] theorem exec_vshr (w : VWord) (s : State) :
    exec (.vshr w) s = execVshr w s := rfl
@[simp] theorem exec_vsra (w : VWord) (s : State) :
    exec (.vsra w) s = execVsra w s := rfl
@[simp] theorem exec_vclmul (w : VWord) (s : State) :
    exec (.vclmul w) s = execVclmul w s := rfl
@[simp] theorem exec_vclmulh (w : VWord) (s : State) :
    exec (.vclmulh w) s = execVclmulh w s := rfl
@[simp] theorem exec_vpopc (w : VWord) (s : State) :
    exec (.vpopc w) s = execVpopc w s := rfl
@[simp] theorem exec_vcmpeq (w : VWord) (s : State) :
    exec (.vcmpeq w) s = execVcmpeq w s := rfl
@[simp] theorem exec_vcmplt (w : VWord) (s : State) :
    exec (.vcmplt w) s = execVcmplt w s := rfl
@[simp] theorem exec_vcmple (w : VWord) (s : State) :
    exec (.vcmple w) s = execVcmple w s := rfl
@[simp] theorem exec_vsel (w : VWord) (s : State) :
    exec (.vsel w) s = execVsel w s := rfl
@[simp] theorem exec_vclass (w : VWord) (s : State) :
    exec (.vclass w) s = execVclass w s := rfl
@[simp] theorem exec_vcvt (src : BitVec 4) (w : VWord) (s : State) :
    exec (.vcvt src w) s = execVcvt src w s := rfl
@[simp] theorem exec_vrnd (w : VWord) (s : State) :
    exec (.vrnd w) s = execVrnd w s := rfl
@[simp] theorem exec_vrsum (w : VWord) (s : State) :
    exec (.vrsum w) s = execVrsum w s := rfl
@[simp] theorem exec_vrmax (w : VWord) (s : State) :
    exec (.vrmax w) s = execVrmax w s := rfl
@[simp] theorem exec_vrmin (w : VWord) (s : State) :
    exec (.vrmin w) s = execVrmin w s := rfl
@[simp] theorem exec_vrarg (w : VWord) (s : State) :
    exec (.vrarg w) s = execVrarg w s := rfl
@[simp] theorem exec_vcsum (w : VWord) (s : State) :
    exec (.vcsum w) s = execVcsum w s := rfl
@[simp] theorem exec_vmov (w : VWord) (s : State) :
    exec (.vmov w) s = execVmov w s := rfl
@[simp] theorem exec_vbcastElem (w : VWord) (s : State) :
    exec (.vbcastElem w) s = execVbcastElem w s := rfl
@[simp] theorem exec_vbcastRow0 (w : VWord) (s : State) :
    exec (.vbcastRow0 w) s = execVbcastRow0 w s := rfl
@[simp] theorem exec_vtrn (w : VWord) (s : State) :
    exec (.vtrn w) s = execVtrn w s := rfl
@[simp] theorem exec_vrot (w : VWord) (s : State) :
    exec (.vrot w) s = execVrot w s := rfl
@[simp] theorem exec_vpackCat (w : VWord) (s : State) :
    exec (.vpackCat w) s = execVpackCat w s := rfl
@[simp] theorem exec_vpackZip (w : VWord) (s : State) :
    exec (.vpackZip w) s = execVpackZip w s := rfl
@[simp] theorem exec_vunpkLo (w : VWord) (s : State) :
    exec (.vunpkLo w) s = execVunpkLo w s := rfl
@[simp] theorem exec_vunpkHi (w : VWord) (s : State) :
    exec (.vunpkHi w) s = execVunpkHi w s := rfl
@[simp] theorem exec_vunpkEven (w : VWord) (s : State) :
    exec (.vunpkEven w) s = execVunpkEven w s := rfl
@[simp] theorem exec_vunpkOdd (w : VWord) (s : State) :
    exec (.vunpkOdd w) s = execVunpkOdd w s := rfl
@[simp] theorem exec_vperm (w : VWord) (s : State) :
    exec (.vperm w) s = execVperm w s := rfl
@[simp] theorem exec_vldt (w : VTile) (s : State) :
    exec (.vldt w) s = execVldt w s := rfl
@[simp] theorem exec_vstt (w : VTile) (s : State) :
    exec (.vstt w) s = execVstt w s := rfl
@[simp] theorem exec_vshape (rowsm1 : BitVec 6) (lanesm1 : BitVec 5) (course : Bool) (s : State) :
    exec (.vshape rowsm1 lanesm1 course) s = execVshape rowsm1 lanesm1 course s := rfl
@[simp] theorem exec_vloop (lc : BitVec 2) (src : Bool) (value : BitVec 16) (course : Bool) (s : State) :
    exec (.vloop lc src value course) s = execVloop lc src value course s := rfl
@[simp] theorem exec_vbrAlways (target : BitVec 13) (course : Bool) (s : State) :
    exec (.vbrAlways target course) s = execVbrAlways target course s := rfl
@[simp] theorem exec_vbrKset (k : BitVec 4) (target : BitVec 13) (course : Bool) (s : State) :
    exec (.vbrKset k target course) s = execVbrKset k target course s := rfl
@[simp] theorem exec_vbrKclr (k : BitVec 4) (target : BitVec 13) (course : Bool) (s : State) :
    exec (.vbrKclr k target course) s = execVbrKclr k target course s := rfl
@[simp] theorem exec_vbrLoop (lc : BitVec 2) (target : BitVec 13) (course : Bool) (s : State) :
    exec (.vbrLoop lc target course) s = execVbrLoop lc target course s := rfl
@[simp] theorem exec_vbrEnd (course : Bool) (s : State) :
    exec (.vbrEnd course) s = execVbrEnd course s := rfl
@[simp] theorem exec_vmod (lenm1 : BitVec 6) (iim1 : BitVec 6) (tsrc : Bool) (trips : BitVec 16) (exk : BitVec 4) (exs : Bool) (course : Bool) (s : State) :
    exec (.vmod lenm1 iim1 tsrc trips exk exs course) s = execVmod lenm1 iim1 tsrc trips exk exs course s := rfl
@[simp] theorem exec_vknotSet (k : BitVec 4) (course : Bool) (s : State) :
    exec (.vknotSet k course) s = execVknotSet k course s := rfl
@[simp] theorem exec_vknotClr (k : BitVec 4) (course : Bool) (s : State) :
    exec (.vknotClr k course) s = execVknotClr k course s := rfl
@[simp] theorem exec_vknotAny (k : BitVec 4) (src : BitVec 16) (course : Bool) (s : State) :
    exec (.vknotAny k src course) s = execVknotAny k src course s := rfl
@[simp] theorem exec_vknotAll (k : BitVec 4) (src : BitVec 16) (course : Bool) (s : State) :
    exec (.vknotAll k src course) s = execVknotAll k src course s := rfl
@[simp] theorem exec_vwaitSet (k : BitVec 4) (course : Bool) (s : State) :
    exec (.vwaitSet k course) s = execVwaitSet k course s := rfl
@[simp] theorem exec_vwaitClr (k : BitVec 4) (course : Bool) (s : State) :
    exec (.vwaitClr k course) s = execVwaitClr k course s := rfl
@[simp] theorem exec_vwaitDrain (course : Bool) (s : State) :
    exec (.vwaitDrain course) s = execVwaitDrain course s := rfl
@[simp] theorem exec_rep (nm1 : BitVec 6) (course : Bool) (s : State) :
    exec (.rep nm1 course) s = execRep nm1 course s := rfl
@[simp] theorem exec_vnop (kpred : BitVec 4) (take : BitVec 4) (give : BitVec 4) (course : Bool) (s : State) :
    exec (.vnop kpred take give course) s = execVnop kpred take give course s := rfl
@[simp] theorem exec_mldw (f : MIssue) (hw : BitVec 12) (dprec : BitVec 4) (clr : Bool) (br0 : BitVec 3) (bc0 : BitVec 4) (s : State) :
    exec (.mldw f hw dprec clr br0 bc0) s = execMldw f hw dprec clr br0 bc0 s := rfl
@[simp] theorem exec_mswap (f : MIssue) (s : State) :
    exec (.mswap f) s = execMswap f s := rfl
@[simp] theorem exec_mmac (f : MIssue) (m : MmacF) (s : State) :
    exec (.mmac f m) s = execMmac f m s := rfl
@[simp] theorem exec_mepi (f : MIssue) (e : MepiF) (s : State) :
    exec (.mepi f e) s = execMepi f e s := rfl
@[simp] theorem exec_mepiRemote (f : MIssue) (e : MepiF) (dest : MDest) (s : State) :
    exec (.mepiRemote f e dest) s = execMepiRemote f e dest s := rfl
@[simp] theorem exec_mmark (f : MIssue) (s : State) :
    exec (.mmark f) s = execMmark f s := rfl
@[simp] theorem exec_mnop (f : MIssue) (s : State) :
    exec (.mnop f) s = execMnop f s := rfl
@[simp] theorem exec_mloop (c : MCtl) (lc : BitVec 2) (src : Bool) (value : BitVec 16) (s : State) :
    exec (.mloop c lc src value) s = execMloop c lc src value s := rfl
@[simp] theorem exec_mbrAlways (c : MCtl) (target : BitVec 13) (s : State) :
    exec (.mbrAlways c target) s = execMbrAlways c target s := rfl
@[simp] theorem exec_mbrKset (c : MCtl) (k : BitVec 4) (target : BitVec 13) (s : State) :
    exec (.mbrKset c k target) s = execMbrKset c k target s := rfl
@[simp] theorem exec_mbrKclr (c : MCtl) (k : BitVec 4) (target : BitVec 13) (s : State) :
    exec (.mbrKclr c k target) s = execMbrKclr c k target s := rfl
@[simp] theorem exec_mbrLoop (c : MCtl) (lc : BitVec 2) (target : BitVec 13) (s : State) :
    exec (.mbrLoop c lc target) s = execMbrLoop c lc target s := rfl
@[simp] theorem exec_mbrEnd (c : MCtl) (s : State) :
    exec (.mbrEnd c) s = execMbrEnd c s := rfl
@[simp] theorem exec_mmod (c : MCtl) (lenm1 : BitVec 6) (iim1 : BitVec 6) (tsrc : Bool) (trips : BitVec 16) (exk : BitVec 4) (exs : Bool) (s : State) :
    exec (.mmod c lenm1 iim1 tsrc trips exk exs) s = execMmod c lenm1 iim1 tsrc trips exk exs s := rfl
@[simp] theorem exec_mwaitSet (c : MCtl) (k : BitVec 4) (s : State) :
    exec (.mwaitSet c k) s = execMwaitSet c k s := rfl
@[simp] theorem exec_mwaitClr (c : MCtl) (k : BitVec 4) (s : State) :
    exec (.mwaitClr c k) s = execMwaitClr c k s := rfl
@[simp] theorem exec_mwaitDrain (c : MCtl) (s : State) :
    exec (.mwaitDrain c) s = execMwaitDrain c s := rfl
@[simp] theorem exec_hodCopyToTile (p : Poster) (q : Quad) (s : State) :
    exec (.hodCopyToTile p q) s = execHodCopyToTile p q s := rfl
@[simp] theorem exec_hodCopyToMemory (p : Poster) (q : Quad) (s : State) :
    exec (.hodCopyToMemory p q) s = execHodCopyToMemory p q s := rfl
@[simp] theorem exec_hodCopyMemory (p : Poster) (q : Quad) (s : State) :
    exec (.hodCopyMemory p q) s = execHodCopyMemory p q s := rfl
@[simp] theorem exec_hodFillTile (p : Poster) (q : Quad) (s : State) :
    exec (.hodFillTile p q) s = execHodFillTile p q s := rfl
@[simp] theorem exec_hodFillMemory (p : Poster) (q : Quad) (s : State) :
    exec (.hodFillMemory p q) s = execHodFillMemory p q s := rfl
@[simp] theorem exec_hodImload (p : Poster) (q : Quad) (s : State) :
    exec (.hodImload p q) s = execHodImload p q s := rfl
@[simp] theorem exec_tierRun (p : Poster) (q : Quad) (s : State) :
    exec (.tierRun p q) s = execTierRun p q s := rfl
@[simp] theorem exec_tierStop (p : Poster) (q : Quad) (s : State) :
    exec (.tierStop p q) s = execTierStop p q s := rfl
@[simp] theorem exec_tierStopDrain (p : Poster) (q : Quad) (s : State) :
    exec (.tierStopDrain p q) s = execTierStopDrain p q s := rfl
@[simp] theorem exec_tierRopeSource (p : Poster) (q : Quad) (s : State) :
    exec (.tierRopeSource p q) s = execTierRopeSource p q s := rfl
@[simp] theorem exec_tierRopeSubscriber (p : Poster) (q : Quad) (s : State) :
    exec (.tierRopeSubscriber p q) s = execTierRopeSubscriber p q s := rfl
@[simp] theorem exec_splCollAllReduce (p : Poster) (q : Quad) (s : State) :
    exec (.splCollAllReduce p q) s = execSplCollAllReduce p q s := rfl
@[simp] theorem exec_splCollReduceScatter (p : Poster) (q : Quad) (s : State) :
    exec (.splCollReduceScatter p q) s = execSplCollReduceScatter p q s := rfl
@[simp] theorem exec_splCollAllGather (p : Poster) (q : Quad) (s : State) :
    exec (.splCollAllGather p q) s = execSplCollAllGather p q s := rfl
@[simp] theorem exec_splCollBroadcast (p : Poster) (q : Quad) (s : State) :
    exec (.splCollBroadcast p q) s = execSplCollBroadcast p q s := rfl
@[simp] theorem exec_splCollAllToAll (p : Poster) (q : Quad) (s : State) :
    exec (.splCollAllToAll p q) s = execSplCollAllToAll p q s := rfl
@[simp] theorem exec_splCollTransposingAllToAll (p : Poster) (q : Quad) (s : State) :
    exec (.splCollTransposingAllToAll p q) s = execSplCollTransposingAllToAll p q s := rfl
@[simp] theorem exec_splPut (p : Poster) (q : Quad) (s : State) :
    exec (.splPut p q) s = execSplPut p q s := rfl
@[simp] theorem exec_splSigSet (p : Poster) (q : Quad) (s : State) :
    exec (.splSigSet p q) s = execSplSigSet p q s := rfl
@[simp] theorem exec_splSigAdd (p : Poster) (q : Quad) (s : State) :
    exec (.splSigAdd p q) s = execSplSigAdd p q s := rfl
@[simp] theorem exec_gatOpen (p : Poster) (q : Quad) (s : State) :
    exec (.gatOpen p q) s = execGatOpen p q s := rfl
@[simp] theorem exec_gatClose (p : Poster) (q : Quad) (s : State) :
    exec (.gatClose p q) s = execGatClose p q s := rfl
@[simp] theorem exec_gatCloseFlush (p : Poster) (q : Quad) (s : State) :
    exec (.gatCloseFlush p q) s = execGatCloseFlush p q s := rfl
@[simp] theorem exec_trcMark (p : Poster) (q : Quad) (s : State) :
    exec (.trcMark p q) s = execTrcMark p q s := rfl
@[simp] theorem exec_wfe (s : State) :
    exec (.wfe) s = execWfe s := rfl
@[simp] theorem exec_evqWait (s : State) :
    exec (.evqWait) s = execEvqWait s := rfl
@[simp] theorem exec_halt (s : State) :
    exec (.halt) s = execHalt s := rfl
@[simp] theorem exec_nop (s : State) :
    exec (.nop) s = execNop s := rfl
@[simp] theorem exec_brk (s : State) :
    exec (.brk) s = execBrk s := rfl
@[simp] theorem exec_eret (s : State) :
    exec (.eret) s = execEret s := rfl
@[simp] theorem exec_courseIssue (core : Nat) (s : State) :
    exec (.courseIssue core) s = execCourseIssue core s := rfl
@[simp] theorem exec_repStep (core : Nat) (s : State) :
    exec (.repStep core) s = execRepStep core s := rfl
@[simp] theorem exec_moduloSlot (core : Nat) (stream : Nat) (s : State) :
    exec (.moduloSlot core stream) s = execModuloSlot core stream s := rfl
@[simp] theorem exec_rowLanding (core : Nat) (s : State) :
    exec (.rowLanding core) s = execRowLanding core s := rfl
@[simp] theorem exec_wordRetirement (core : Nat) (sub : Nat) (s : State) :
    exec (.wordRetirement core sub) s = execWordRetirement core sub s := rfl
@[simp] theorem exec_scalarWaitResume (core : Nat) (slot : Nat) (s : State) :
    exec (.scalarWaitResume core slot) s = execScalarWaitResume core slot s := rfl
@[simp] theorem exec_loadResponse (core : Nat) (k : Nat) (s : State) :
    exec (.loadResponse core k) s = execLoadResponse core k s := rfl
@[simp] theorem exec_requestSlotGrant (core : Nat) (k : Nat) (s : State) :
    exec (.requestSlotGrant core k) s = execRequestSlotGrant core k s := rfl
@[simp] theorem exec_trapEntry (core : Nat) (slot : Nat) (s : State) :
    exec (.trapEntry core slot) s = execTrapEntry core slot s := rfl
@[simp] theorem exec_unitEnd (core : Nat) (slot : Nat) (s : State) :
    exec (.unitEnd core slot) s = execUnitEnd core slot s := rfl
@[simp] theorem exec_depcntDecrement (k : Nat) (s : State) :
    exec (.depcntDecrement k) s = execDepcntDecrement k s := rfl
@[simp] theorem exec_dispatch (core : Nat) (slot : Nat) (s : State) :
    exec (.dispatch core slot) s = execDispatch core slot s := rfl
@[simp] theorem exec_blocking (part : Nat) (s : State) :
    exec (.blocking part) s = execBlocking part s := rfl
@[simp] theorem exec_preemption (core : Nat) (slot : Nat) (s : State) :
    exec (.preemption core slot) s = execPreemption core slot s := rfl
@[simp] theorem exec_resume (core : Nat) (slot : Nat) (k : Nat) (s : State) :
    exec (.resume core slot k) s = execResume core slot k s := rfl
@[simp] theorem exec_deposit (k : Nat) (s : State) :
    exec (.deposit k) s = execDeposit k s := rfl
@[simp] theorem exec_heldDepositRelease (k : Nat) (s : State) :
    exec (.heldDepositRelease k) s = execHeldDepositRelease k s := rfl
@[simp] theorem exec_tileClearEnd (core : Nat) (h : Nat) (s : State) :
    exec (.tileClearEnd core h) s = execTileClearEnd core h s := rfl
@[simp] theorem exec_commandEnd (k : Nat) (s : State) :
    exec (.commandEnd k) s = execCommandEnd k s := rfl
@[simp] theorem exec_hopStart (slot : Nat) (hop : Nat) (s : State) :
    exec (.hopStart slot hop) s = execHopStart slot hop s := rfl
@[simp] theorem exec_hopComplete (slot : Nat) (hop : Nat) (s : State) :
    exec (.hopComplete slot hop) s = execHopComplete slot hop s := rfl
@[simp] theorem exec_latenessRecompute (slot : Nat) (s : State) :
    exec (.latenessRecompute slot) s = execLatenessRecompute slot s := rfl
@[simp] theorem exec_join (k : Nat) (s : State) :
    exec (.join k) s = execJoin k s := rfl
@[simp] theorem exec_ropeSend (slot : Nat) (s : State) :
    exec (.ropeSend slot) s = execRopeSend slot s := rfl
@[simp] theorem exec_consumedReport (k : Nat) (s : State) :
    exec (.consumedReport k) s = execConsumedReport k s := rfl
@[simp] theorem exec_multicastLanding (k : Nat) (s : State) :
    exec (.multicastLanding k) s = execMulticastLanding k s := rfl
@[simp] theorem exec_subscriberLeave (slot : Nat) (pkg : Nat) (s : State) :
    exec (.subscriberLeave slot pkg) s = execSubscriberLeave slot pkg s := rfl
@[simp] theorem exec_flitReceive (k : Nat) (s : State) :
    exec (.flitReceive k) s = execFlitReceive k s := rfl
@[simp] theorem exec_flitReoffer (k : Nat) (s : State) :
    exec (.flitReoffer k) s = execFlitReoffer k s := rfl
@[simp] theorem exec_collectiveAnnounce (k : Nat) (s : State) :
    exec (.collectiveAnnounce k) s = execCollectiveAnnounce k s := rfl
@[simp] theorem exec_memberWithdraw (k : Nat) (s : State) :
    exec (.memberWithdraw k) s = execMemberWithdraw k s := rfl
@[simp] theorem exec_remoteRowHandoff (core : Nat) (sub : Nat) (s : State) :
    exec (.remoteRowHandoff core sub) s = execRemoteRowHandoff core sub s := rfl
@[simp] theorem exec_remoteRowArrival (k : Nat) (s : State) :
    exec (.remoteRowArrival k) s = execRemoteRowArrival k s := rfl
@[simp] theorem exec_signalApply (k : Nat) (s : State) :
    exec (.signalApply k) s = execSignalApply k s := rfl
@[simp] theorem exec_linkReplay (port : Nat) (s : State) :
    exec (.linkReplay port) s = execLinkReplay port s := rfl
@[simp] theorem exec_linkRetrain (port : Nat) (s : State) :
    exec (.linkRetrain port) s = execLinkRetrain port s := rfl
@[simp] theorem exec_portDown (port : Nat) (s : State) :
    exec (.portDown port) s = execPortDown port s := rfl
@[simp] theorem exec_linkFailure (port : Nat) (s : State) :
    exec (.linkFailure port) s = execLinkFailure port s := rfl
@[simp] theorem exec_barPhaseAdvance (b : Nat) (s : State) :
    exec (.barPhaseAdvance b) s = execBarPhaseAdvance b s := rfl
@[simp] theorem exec_requestArrival (inlet : Inlet) (line : BitVec 512) (s : State) :
    exec (.requestArrival inlet line) s = execRequestArrival inlet line s := rfl
@[simp] theorem exec_batchOpen (chan : Nat) (s : State) :
    exec (.batchOpen chan) s = execBatchOpen chan s := rfl
@[simp] theorem exec_batchDeadline (chan : Nat) (s : State) :
    exec (.batchDeadline chan) s = execBatchDeadline chan s := rfl
@[simp] theorem exec_subArrayReplay (core : Nat) (sub : Nat) (s : State) :
    exec (.subArrayReplay core sub) s = execSubArrayReplay core sub s := rfl
@[simp] theorem exec_quadTest (quad : Nat) (s : State) :
    exec (.quadTest quad) s = execQuadTest quad s := rfl
@[simp] theorem exec_quadTestPass (quad : Nat) (s : State) :
    exec (.quadTestPass quad) s = execQuadTestPass quad s := rfl
@[simp] theorem exec_quadTestFail (quad : Nat) (s : State) :
    exec (.quadTestFail quad) s = execQuadTestFail quad s := rfl
@[simp] theorem exec_spareSubstitution (core : Nat) (s : State) :
    exec (.spareSubstitution core) s = execSpareSubstitution core s := rfl
@[simp] theorem exec_migrationRemap (k : Nat) (s : State) :
    exec (.migrationRemap k) s = execMigrationRemap k s := rfl
@[simp] theorem exec_invalidation (part : Nat) (addr : Word) (s : State) :
    exec (.invalidation part addr) s = execInvalidation part addr s := rfl
@[simp] theorem exec_invalidationDone (part : Nat) (s : State) :
    exec (.invalidationDone part) s = execInvalidationDone part s := rfl
@[simp] theorem exec_create (m : Window) (s : State) :
    exec (.create m) s = execCreate m s := rfl
@[simp] theorem exec_resize (m : Window) (s : State) :
    exec (.resize m) s = execResize m s := rfl
@[simp] theorem exec_destroy (m : Window) (s : State) :
    exec (.destroy m) s = execDestroy m s := rfl
@[simp] theorem exec_preempt (m : Window) (s : State) :
    exec (.preempt m) s = execPreempt m s := rfl
@[simp] theorem exec_linkup (m : Window) (s : State) :
    exec (.linkup m) s = execLinkup m s := rfl
@[simp] theorem exec_attest (m : Window) (s : State) :
    exec (.attest m) s = execAttest m s := rfl
@[simp] theorem exec_telemetry (m : Window) (s : State) :
    exec (.telemetry m) s = execTelemetry m s := rfl
@[simp] theorem exec_scrub (m : Window) (s : State) :
    exec (.scrub m) s = execScrub m s := rfl
@[simp] theorem exec_retain (m : Window) (s : State) :
    exec (.retain m) s = execRetain m s := rfl
@[simp] theorem exec_retentionPowerOff (stack : Nat) (s : State) :
    exec (.retentionPowerOff stack) s = execRetentionPowerOff stack s := rfl
@[simp] theorem exec_repairlog (m : Window) (s : State) :
    exec (.repairlog m) s = execRepairlog m s := rfl
@[simp] theorem exec_recover (m : Window) (s : State) :
    exec (.recover m) s = execRecover m s := rfl
@[simp] theorem exec_recoverReset (s : State) :
    exec (.recoverReset) s = execRecoverReset s := rfl
@[simp] theorem exec_pfevstatClear (value : Word) (s : State) :
    exec (.pfevstatClear value) s = execPfevstatClear value s := rfl
@[simp] theorem exec_pferrClear (value : Word) (s : State) :
    exec (.pferrClear value) s = execPferrClear value s := rfl
@[simp] theorem exec_evstatClear (part : Nat) (value : Word) (s : State) :
    exec (.evstatClear part value) s = execEvstatClear part value s := rfl
@[simp] theorem exec_registerWrite (off : Nat) (value : Word) (s : State) :
    exec (.registerWrite off value) s = execRegisterWrite off value s := rfl
@[simp] theorem exec_coldReset (s : State) :
    exec (.coldReset) s = execColdReset s := rfl
@[simp] theorem exec_functionLevelReset (part : Nat) (s : State) :
    exec (.functionLevelReset part) s = execFunctionLevelReset part s := rfl
@[simp] theorem exec_ptpSync (offset : Int) (s : State) :
    exec (.ptpSync offset) s = execPtpSync offset s := rfl
@[simp] theorem exec_ppsEdge (s : State) :
    exec (.ppsEdge) s = execPpsEdge s := rfl
@[simp] theorem exec_dvfsChange (ps : Nat) (s : State) :
    exec (.dvfsChange ps) s = execDvfsChange ps s := rfl
@[simp] theorem exec_illegal (st : Stream) (s : State) :
    exec (.illegal st) s = execIllegal st s := rfl
@[simp] theorem exec_fetch (st : Stream) (s : State) :
    exec (.fetch st) s = execFetch st s := rfl
@[simp] theorem exec_storeAcknowledgement (core : Nat) (k : Nat) (s : State) :
    exec (.storeAcknowledgement core k) s = execStoreAcknowledgement core k s := rfl
@[simp] theorem exec_dividerFinish (core : Nat) (s : State) :
    exec (.dividerFinish core) s = execDividerFinish core s := rfl
@[simp] theorem exec_pageMigration (part : Nat) (va : Word) (frame : Nat) (s : State) :
    exec (.pageMigration part va frame) s = execPageMigration part va frame s := rfl
@[simp] theorem exec_referenceLost (s : State) :
    exec (.referenceLost) s = execReferenceLost s := rfl

end Sys2Proof.Machine
end

