-- ==== Sys2Proof/Laws/Maps.lean ====
section
/-! SUPPORT. The laws of maps and of the byte memory: a read after a write to the same key gives the value written, a write leaves
every other key alone, and every write keeps memory's canonical form. -/
namespace Sys2Proof.Machine

@[simp] theorem mapGet_mapSet_same {α : Type} (d : α) (m : List (Nat × α)) (k : Nat) (v : α) :
    mapGet d (mapSet m k v) k = v := by
  induction m with
  | nil => simp [mapSet, mapGet]
  | cons e m ih =>
    obtain ⟨j, w⟩ := e
    simp only [mapSet]
    split
    · simp [mapGet]
    · split
      · simp [mapGet]
      · simp [mapGet, *]

theorem mapGet_mapSet_ne {α : Type} (d : α) (m : List (Nat × α)) {k j : Nat} (v : α) (h : j ≠ k) :
    mapGet d (mapSet m k v) j = mapGet d m j := by
  induction m with
  | nil => simp [mapSet, mapGet, Ne.symm h]
  | cons e m ih =>
    obtain ⟨i, w⟩ := e
    simp only [mapSet]
    split
    · rename_i hi
      subst hi
      simp [mapGet, Ne.symm h]
    · split
      · simp [mapGet, Ne.symm h]
      · simp only [mapGet, ih]

/-- A map written at one key, read at any. -/
theorem mapGet_mapSet {α : Type} (d : α) (m : List (Nat × α)) (k j : Nat) (v : α) :
    mapGet d (mapSet m k v) j = if j = k then v else mapGet d m j := by
  split
  · subst_vars; exact mapGet_mapSet_same d m _ v
  · exact mapGet_mapSet_ne d m v ‹_›

theorem mapGet_mapErase {α : Type} (d : α) (m : List (Nat × α)) (k j : Nat) :
    mapGet d (mapErase m k) j = if j = k then d else mapGet d m j := by
  induction m with
  | nil => simp [mapErase, mapGet]
  | cons e m ih =>
    obtain ⟨i, w⟩ := e
    simp only [mapErase] at ih
    simp only [mapErase, List.filter_cons]
    by_cases hi : i = k
    · subst hi
      simp only [bne_self_eq_false, Bool.false_eq_true, if_false, ih, mapGet]
      split
      · rfl
      · rw [if_neg (Ne.symm ‹_›)]
    · simp only [bne_iff_ne, ne_eq, hi, not_false_eq_true, if_true, mapGet, ih]
      by_cases hj : i = j
      · subst hj; simp [hi]
      · simp [hj]

theorem mapFind_eq_none_or {α : Type} (d : α) (m : List (Nat × α)) (k : Nat) :
    mapGet d m k = (mapFind m k).getD d := by
  induction m with
  | nil => rfl
  | cons e m ih =>
    obtain ⟨j, v⟩ := e
    simp only [mapGet, mapFind]
    split
    · rfl
    · exact ih

/-- One byte written, any byte read (R2). -/
theorem memByte_memSetByte (m : List Host.Cell) (a b : Nat) (v : Byte) :
    memByte (memSetByte m a v) b = if b = a then v else memByte m b := by
  unfold memByte memSetByte
  split
  · rename_i h
    rw [mapGet_mapErase]
    split <;> simp [h]
  · exact mapGet_mapSet unlistedByte m a b v

/-- Bytes written from an address on, a byte below or above them read. -/
theorem memByte_memSetBytes_ne (bs : List Byte) (m : List Host.Cell) (a b : Nat) (h : b < a ∨ a + bs.length ≤ b) :
    memByte (memSetBytes m a bs) b = memByte m b := by
  induction bs generalizing m a with
  | nil => rfl
  | cons v bs ih =>
    simp only [memSetBytes]
    simp only [List.length_cons] at h
    rw [ih _ _ (by omega), memByte_memSetByte, if_neg (by omega)]

/-- Bytes written from an address on, read back. -/
theorem memBytes_memSetBytes (bs : List Byte) (m : List Host.Cell) (a : Nat) :
    memBytes (memSetBytes m a bs) a bs.length = bs := by
  induction bs generalizing m a with
  | nil => rfl
  | cons v bs ih =>
    simp only [memSetBytes, List.length_cons, memBytes, ih]
    rw [memByte_memSetBytes_ne _ _ _ _ (by omega), memByte_memSetByte, if_pos rfl]

@[simp] theorem leBytes_length (n v : Nat) : (leBytes n v).length = n := by
  induction n generalizing v with
  | zero => rfl
  | succ n ih => simp [leBytes, ih]

theorem leNat_leBytes (n v : Nat) : leNat (leBytes n v) = v % 256 ^ n := by
  induction n generalizing v with
  | zero => simp [leBytes, leNat, Nat.mod_one]
  | succ n ih =>
    simp only [leBytes, leNat, ih, BitVec.toNat_ofNat]
    have h : v % 256 ^ (n + 1) = v % 256 + 256 * (v / 256 % 256 ^ n) := by rw [Nat.pow_succ', Nat.mod_mul]
    exact h.symm

/-- A number written in its little-endian bytes, read back (R2). -/
theorem memNat_memSetNat (m : List Host.Cell) (a n v : Nat) : memNat (memSetNat m a n v) a n = v % 256 ^ n := by
  have h := memBytes_memSetBytes (leBytes n v) m a
  rw [leBytes_length] at h
  rw [memNat, memSetNat, h, leNat_leBytes]

theorem memByte_memSetNat_ne (m : List Host.Cell) (a n v b : Nat) (h : b < a ∨ a + n ≤ b) :
    memByte (memSetNat m a n v) b = memByte m b :=
  memByte_memSetBytes_ne _ _ _ _ (by simpa using h)

/-! ## The canonical form -/

/-- The first key of a map lies above a bound. -/
theorem keysRising_cons {α : Type} (j : Nat) (w : α) (m : List (Nat × α)) :
    keysRising ((j, w) :: m) = true ↔ (∀ e ∈ m, j < e.1) ∧ keysRising m = true := by
  induction m generalizing j w with
  | nil => simp [keysRising]
  | cons e m ih =>
    obtain ⟨i, v⟩ := e
    simp only [keysRising, Bool.and_eq_true, decide_eq_true_eq]
    rw [ih]
    simp only [List.mem_cons, forall_eq_or_imp]
    constructor
    · rintro ⟨h1, h2, h3⟩
      exact ⟨⟨h1, fun e he => Nat.lt_trans h1 (h2 e he)⟩, h2, h3⟩
    · rintro ⟨⟨h1, -⟩, h2, h3⟩
      exact ⟨h1, h2, h3⟩

theorem mem_mapSet {α : Type} (m : List (Nat × α)) (k : Nat) (v : α) (e : Nat × α) (h : e ∈ mapSet m k v) :
    e = (k, v) ∨ e ∈ m := by
  induction m with
  | nil => simpa [mapSet] using h
  | cons f m ih =>
    obtain ⟨j, w⟩ := f
    simp only [mapSet] at h
    split at h
    · simp only [List.mem_cons] at h ⊢; grind
    · split at h
      · simp only [List.mem_cons] at h ⊢; grind
      · simp only [List.mem_cons] at h ⊢
        rcases h with h | h
        · grind
        · rcases ih h with h | h <;> grind

theorem keysRising_mapSet {α : Type} (m : List (Nat × α)) (k : Nat) (v : α) (h : keysRising m = true) :
    keysRising (mapSet m k v) = true := by
  induction m with
  | nil => rfl
  | cons f m ih =>
    obtain ⟨j, w⟩ := f
    obtain ⟨h1, h2⟩ := (keysRising_cons j w m).mp h
    simp only [mapSet]
    split
    · rename_i hj
      subst hj
      exact (keysRising_cons _ _ _).mpr ⟨h1, h2⟩
    · split
      · refine (keysRising_cons _ _ _).mpr ⟨?_, h⟩
        simp only [List.mem_cons, forall_eq_or_imp]
        exact ⟨‹_›, fun e he => Nat.lt_trans ‹_› (h1 e he)⟩
      · refine (keysRising_cons _ _ _).mpr ⟨fun e he => ?_, ih h2⟩
        rcases mem_mapSet m k v e he with rfl | he
        · simp only; omega
        · exact h1 e he

theorem keysRising_filter {α : Type} (m : List (Nat × α)) (p : Nat × α → Bool) (h : keysRising m = true) :
    keysRising (m.filter p) = true := by
  induction m with
  | nil => rfl
  | cons f m ih =>
    obtain ⟨j, w⟩ := f
    obtain ⟨h1, h2⟩ := (keysRising_cons j w m).mp h
    simp only [List.filter_cons]
    split
    · exact (keysRising_cons _ _ _).mpr ⟨fun e he => h1 e (List.mem_filter.mp he).1, ih h2⟩
    · exact ih h2

/-- A byte written keeps memory's canonical form. -/
theorem Memory.wf_memSetByte (m : List Host.Cell) (a : Nat) (v : Byte) (h : Memory.wf m = true) :
    Memory.wf (memSetByte m a v) = true := by
  simp only [Memory.wf, Bool.and_eq_true, List.all_eq_true, bne_iff_ne] at h ⊢
  obtain ⟨h1, h2⟩ := h
  unfold memSetByte
  split
  · exact ⟨keysRising_filter _ _ h1, fun e he => h2 e (List.mem_filter.mp he).1⟩
  · refine ⟨keysRising_mapSet _ _ _ h1, fun e he => ?_⟩
    rcases mem_mapSet m a v e he with rfl | he
    · assumption
    · exact h2 e he

/-- Bytes written keep memory's canonical form. -/
theorem Memory.wf_memSetBytes (bs : List Byte) (m : List Host.Cell) (a : Nat) (h : Memory.wf m = true) :
    Memory.wf (memSetBytes m a bs) = true := by
  induction bs generalizing m a with
  | nil => exact h
  | cons v bs ih => exact ih _ _ (Memory.wf_memSetByte m a v h)

/-- A number written keeps memory's canonical form. -/
theorem Memory.wf_memSetNat (m : List Host.Cell) (a n v : Nat) (h : Memory.wf m = true) :
    Memory.wf (memSetNat m a n v) = true :=
  Memory.wf_memSetBytes _ _ _ h

end Sys2Proof.Machine
end

