-- ==== Sys2Proof/Laws/State.lean ====
section
/-! SUPPORT. Each named update of the state leaves every field but its own as it was: one lemma for each field of each update,
true by definition, so that no proof unfolds a record update. -/
namespace Sys2Proof.Machine

/-! ## setCore -/

@[simp] theorem setCore_clk (s : State) (c : Nat) (k : Core) : (setCore s c k).clk = s.clk := rfl
@[simp] theorem setCore_mem (s : State) (c : Nat) (k : Core) : (setCore s c k).mem = s.mem := rfl
@[simp] theorem setCore_cores (s : State) (c : Nat) (k : Core) : (setCore s c k).cores = mapSet s.cores c k := rfl
@[simp] theorem setCore_parts (s : State) (c : Nat) (k : Core) : (setCore s c k).parts = s.parts := rfl
@[simp] theorem setCore_deps (s : State) (c : Nat) (k : Core) : (setCore s c k).deps = s.deps := rfl
@[simp] theorem setCore_cmds (s : State) (c : Nat) (k : Core) : (setCore s c k).cmds = s.cmds := rfl
@[simp] theorem setCore_cmdSeq (s : State) (c : Nat) (k : Core) : (setCore s c k).cmdSeq = s.cmdSeq := rfl
@[simp] theorem setCore_hubSeq (s : State) (c : Nat) (k : Core) : (setCore s c k).hubSeq = s.hubSeq := rfl
@[simp] theorem setCore_tb (s : State) (c : Nat) (k : Core) : (setCore s c k).tb = s.tb := rfl
@[simp] theorem setCore_traces (s : State) (c : Nat) (k : Core) : (setCore s c k).traces = s.traces := rfl
@[simp] theorem setCore_traceq (s : State) (c : Nat) (k : Core) : (setCore s c k).traceq = s.traceq := rfl
@[simp] theorem setCore_vfEv (s : State) (c : Nat) (k : Core) : (setCore s c k).vfEv = s.vfEv := rfl
@[simp] theorem setCore_pfEv (s : State) (c : Nat) (k : Core) : (setCore s c k).pfEv = s.pfEv := rfl
@[simp] theorem setCore_keys (s : State) (c : Nat) (k : Core) : (setCore s c k).keys = s.keys := rfl
@[simp] theorem setCore_chans (s : State) (c : Nat) (k : Core) : (setCore s c k).chans = s.chans := rfl
@[simp] theorem setCore_bars (s : State) (c : Nat) (k : Core) : (setCore s c k).bars = s.bars := rfl
@[simp] theorem setCore_itins (s : State) (c : Nat) (k : Core) : (setCore s c k).itins = s.itins := rfl
@[simp] theorem setCore_hist (s : State) (c : Nat) (k : Core) : (setCore s c k).hist = s.hist := rfl
@[simp] theorem setCore_tierLast (s : State) (c : Nat) (k : Core) : (setCore s c k).tierLast = s.tierLast := rfl
@[simp] theorem setCore_joins (s : State) (c : Nat) (k : Core) : (setCore s c k).joins = s.joins := rfl
@[simp] theorem setCore_net (s : State) (c : Nat) (k : Core) : (setCore s c k).net = s.net := rfl
@[simp] theorem setCore_sendSeq (s : State) (c : Nat) (k : Core) : (setCore s c k).sendSeq = s.sendSeq := rfl
@[simp] theorem setCore_recvSeq (s : State) (c : Nat) (k : Core) : (setCore s c k).recvSeq = s.recvSeq := rfl
@[simp] theorem setCore_migs (s : State) (c : Nat) (k : Core) : (setCore s c k).migs = s.migs := rfl
@[simp] theorem setCore_heldw (s : State) (c : Nat) (k : Core) : (setCore s c k).heldw = s.heldw := rfl
@[simp] theorem setCore_slow (s : State) (c : Nat) (k : Core) : (setCore s c k).slow = s.slow := rfl
@[simp] theorem setCore_invals (s : State) (c : Nat) (k : Core) : (setCore s c k).invals = s.invals := rfl
@[simp] theorem setCore_poison (s : State) (c : Nat) (k : Core) : (setCore s c k).poison = s.poison := rfl
@[simp] theorem setCore_tasks (s : State) (c : Nat) (k : Core) : (setCore s c k).tasks = s.tasks := rfl
@[simp] theorem setCore_taskSeq (s : State) (c : Nat) (k : Core) : (setCore s c k).taskSeq = s.taskSeq := rfl
@[simp] theorem setCore_armCtr (s : State) (c : Nat) (k : Core) : (setCore s c k).armCtr = s.armCtr := rfl
@[simp] theorem setCore_decrs (s : State) (c : Nat) (k : Core) : (setCore s c k).decrs = s.decrs := rfl
@[simp] theorem setCore_nodes (s : State) (c : Nat) (k : Core) : (setCore s c k).nodes = s.nodes := rfl
@[simp] theorem setCore_sched (s : State) (c : Nat) (k : Core) : (setCore s c k).sched = s.sched := rfl
@[simp] theorem setCore_uidSeq (s : State) (c : Nat) (k : Core) : (setCore s c k).uidSeq = s.uidSeq := rfl
@[simp] theorem setCore_aways (s : State) (c : Nat) (k : Core) : (setCore s c k).aways = s.aways := rfl
@[simp] theorem setCore_chains (s : State) (c : Nat) (k : Core) : (setCore s c k).chains = s.chains := rfl
@[simp] theorem setCore_owed (s : State) (c : Nat) (k : Core) : (setCore s c k).owed = s.owed := rfl
@[simp] theorem setCore_rowsOut (s : State) (c : Nat) (k : Core) : (setCore s c k).rowsOut = s.rowsOut := rfl
@[simp] theorem setCore_colls (s : State) (c : Nat) (k : Core) : (setCore s c k).colls = s.colls := rfl
@[simp] theorem setCore_anns (s : State) (c : Nat) (k : Core) : (setCore s c k).anns = s.anns := rfl
@[simp] theorem setCore_spent (s : State) (c : Nat) (k : Core) : (setCore s c k).spent = s.spent := rfl
@[simp] theorem setCore_back (s : State) (c : Nat) (k : Core) : (setCore s c k).back = s.back := rfl
@[simp] theorem setCore_fports (s : State) (c : Nat) (k : Core) : (setCore s c k).fports = s.fports := rfl
@[simp] theorem setCore_cutPkgs (s : State) (c : Nat) (k : Core) : (setCore s c k).cutPkgs = s.cutPkgs := rfl
@[simp] theorem setCore_quads (s : State) (c : Nat) (k : Core) : (setCore s c k).quads = s.quads := rfl
@[simp] theorem setCore_spares (s : State) (c : Nat) (k : Core) : (setCore s c k).spares = s.spares := rfl
@[simp] theorem setCore_preempts (s : State) (c : Nat) (k : Core) : (setCore s c k).preempts = s.preempts := rfl
@[simp] theorem setCore_boxes (s : State) (c : Nat) (k : Core) : (setCore s c k).boxes = s.boxes := rfl
@[simp] theorem setCore_pfErr (s : State) (c : Nat) (k : Core) : (setCore s c k).pfErr = s.pfErr := rfl
@[simp] theorem setCore_hbm (s : State) (c : Nat) (k : Core) : (setCore s c k).hbm = s.hbm := rfl
@[simp] theorem setCore_fw (s : State) (c : Nat) (k : Core) : (setCore s c k).fw = s.fw := rfl
@[simp] theorem setCore_turns (s : State) (c : Nat) (k : Core) : (setCore s c k).turns = s.turns := rfl
@[simp] theorem setCore_focus (s : State) (c : Nat) (k : Core) : (setCore s c k).focus = s.focus := rfl
@[simp] theorem setCore_fresh (s : State) (c : Nat) (k : Core) : (setCore s c k).fresh = s.fresh := rfl

/-! ## setCur -/

@[simp] theorem setCur_clk (s : State) (k : Core) : (setCur s k).clk = s.clk := rfl
@[simp] theorem setCur_mem (s : State) (k : Core) : (setCur s k).mem = s.mem := rfl
@[simp] theorem setCur_cores (s : State) (k : Core) : (setCur s k).cores = mapSet s.cores s.focus.core k := rfl
@[simp] theorem setCur_parts (s : State) (k : Core) : (setCur s k).parts = s.parts := rfl
@[simp] theorem setCur_deps (s : State) (k : Core) : (setCur s k).deps = s.deps := rfl
@[simp] theorem setCur_cmds (s : State) (k : Core) : (setCur s k).cmds = s.cmds := rfl
@[simp] theorem setCur_cmdSeq (s : State) (k : Core) : (setCur s k).cmdSeq = s.cmdSeq := rfl
@[simp] theorem setCur_hubSeq (s : State) (k : Core) : (setCur s k).hubSeq = s.hubSeq := rfl
@[simp] theorem setCur_tb (s : State) (k : Core) : (setCur s k).tb = s.tb := rfl
@[simp] theorem setCur_traces (s : State) (k : Core) : (setCur s k).traces = s.traces := rfl
@[simp] theorem setCur_traceq (s : State) (k : Core) : (setCur s k).traceq = s.traceq := rfl
@[simp] theorem setCur_vfEv (s : State) (k : Core) : (setCur s k).vfEv = s.vfEv := rfl
@[simp] theorem setCur_pfEv (s : State) (k : Core) : (setCur s k).pfEv = s.pfEv := rfl
@[simp] theorem setCur_keys (s : State) (k : Core) : (setCur s k).keys = s.keys := rfl
@[simp] theorem setCur_chans (s : State) (k : Core) : (setCur s k).chans = s.chans := rfl
@[simp] theorem setCur_bars (s : State) (k : Core) : (setCur s k).bars = s.bars := rfl
@[simp] theorem setCur_itins (s : State) (k : Core) : (setCur s k).itins = s.itins := rfl
@[simp] theorem setCur_hist (s : State) (k : Core) : (setCur s k).hist = s.hist := rfl
@[simp] theorem setCur_tierLast (s : State) (k : Core) : (setCur s k).tierLast = s.tierLast := rfl
@[simp] theorem setCur_joins (s : State) (k : Core) : (setCur s k).joins = s.joins := rfl
@[simp] theorem setCur_net (s : State) (k : Core) : (setCur s k).net = s.net := rfl
@[simp] theorem setCur_sendSeq (s : State) (k : Core) : (setCur s k).sendSeq = s.sendSeq := rfl
@[simp] theorem setCur_recvSeq (s : State) (k : Core) : (setCur s k).recvSeq = s.recvSeq := rfl
@[simp] theorem setCur_migs (s : State) (k : Core) : (setCur s k).migs = s.migs := rfl
@[simp] theorem setCur_heldw (s : State) (k : Core) : (setCur s k).heldw = s.heldw := rfl
@[simp] theorem setCur_slow (s : State) (k : Core) : (setCur s k).slow = s.slow := rfl
@[simp] theorem setCur_invals (s : State) (k : Core) : (setCur s k).invals = s.invals := rfl
@[simp] theorem setCur_poison (s : State) (k : Core) : (setCur s k).poison = s.poison := rfl
@[simp] theorem setCur_tasks (s : State) (k : Core) : (setCur s k).tasks = s.tasks := rfl
@[simp] theorem setCur_taskSeq (s : State) (k : Core) : (setCur s k).taskSeq = s.taskSeq := rfl
@[simp] theorem setCur_armCtr (s : State) (k : Core) : (setCur s k).armCtr = s.armCtr := rfl
@[simp] theorem setCur_decrs (s : State) (k : Core) : (setCur s k).decrs = s.decrs := rfl
@[simp] theorem setCur_nodes (s : State) (k : Core) : (setCur s k).nodes = s.nodes := rfl
@[simp] theorem setCur_sched (s : State) (k : Core) : (setCur s k).sched = s.sched := rfl
@[simp] theorem setCur_uidSeq (s : State) (k : Core) : (setCur s k).uidSeq = s.uidSeq := rfl
@[simp] theorem setCur_aways (s : State) (k : Core) : (setCur s k).aways = s.aways := rfl
@[simp] theorem setCur_chains (s : State) (k : Core) : (setCur s k).chains = s.chains := rfl
@[simp] theorem setCur_owed (s : State) (k : Core) : (setCur s k).owed = s.owed := rfl
@[simp] theorem setCur_rowsOut (s : State) (k : Core) : (setCur s k).rowsOut = s.rowsOut := rfl
@[simp] theorem setCur_colls (s : State) (k : Core) : (setCur s k).colls = s.colls := rfl
@[simp] theorem setCur_anns (s : State) (k : Core) : (setCur s k).anns = s.anns := rfl
@[simp] theorem setCur_spent (s : State) (k : Core) : (setCur s k).spent = s.spent := rfl
@[simp] theorem setCur_back (s : State) (k : Core) : (setCur s k).back = s.back := rfl
@[simp] theorem setCur_fports (s : State) (k : Core) : (setCur s k).fports = s.fports := rfl
@[simp] theorem setCur_cutPkgs (s : State) (k : Core) : (setCur s k).cutPkgs = s.cutPkgs := rfl
@[simp] theorem setCur_quads (s : State) (k : Core) : (setCur s k).quads = s.quads := rfl
@[simp] theorem setCur_spares (s : State) (k : Core) : (setCur s k).spares = s.spares := rfl
@[simp] theorem setCur_preempts (s : State) (k : Core) : (setCur s k).preempts = s.preempts := rfl
@[simp] theorem setCur_boxes (s : State) (k : Core) : (setCur s k).boxes = s.boxes := rfl
@[simp] theorem setCur_pfErr (s : State) (k : Core) : (setCur s k).pfErr = s.pfErr := rfl
@[simp] theorem setCur_hbm (s : State) (k : Core) : (setCur s k).hbm = s.hbm := rfl
@[simp] theorem setCur_fw (s : State) (k : Core) : (setCur s k).fw = s.fw := rfl
@[simp] theorem setCur_turns (s : State) (k : Core) : (setCur s k).turns = s.turns := rfl
@[simp] theorem setCur_focus (s : State) (k : Core) : (setCur s k).focus = s.focus := rfl
@[simp] theorem setCur_fresh (s : State) (k : Core) : (setCur s k).fresh = s.fresh := rfl

/-! ## setUnitAt -/

@[simp] theorem setUnitAt_clk (s : State) (c i : Nat) (u : Unit) : (setUnitAt s c i u).clk = s.clk := rfl
@[simp] theorem setUnitAt_mem (s : State) (c i : Nat) (u : Unit) : (setUnitAt s c i u).mem = s.mem := rfl
@[simp] theorem setUnitAt_cores (s : State) (c i : Nat) (u : Unit) : (setUnitAt s c i u).cores = mapSet s.cores c (withUnit (getCore s c) i u) := rfl
@[simp] theorem setUnitAt_parts (s : State) (c i : Nat) (u : Unit) : (setUnitAt s c i u).parts = s.parts := rfl
@[simp] theorem setUnitAt_deps (s : State) (c i : Nat) (u : Unit) : (setUnitAt s c i u).deps = s.deps := rfl
@[simp] theorem setUnitAt_cmds (s : State) (c i : Nat) (u : Unit) : (setUnitAt s c i u).cmds = s.cmds := rfl
@[simp] theorem setUnitAt_cmdSeq (s : State) (c i : Nat) (u : Unit) : (setUnitAt s c i u).cmdSeq = s.cmdSeq := rfl
@[simp] theorem setUnitAt_hubSeq (s : State) (c i : Nat) (u : Unit) : (setUnitAt s c i u).hubSeq = s.hubSeq := rfl
@[simp] theorem setUnitAt_tb (s : State) (c i : Nat) (u : Unit) : (setUnitAt s c i u).tb = s.tb := rfl
@[simp] theorem setUnitAt_traces (s : State) (c i : Nat) (u : Unit) : (setUnitAt s c i u).traces = s.traces := rfl
@[simp] theorem setUnitAt_traceq (s : State) (c i : Nat) (u : Unit) : (setUnitAt s c i u).traceq = s.traceq := rfl
@[simp] theorem setUnitAt_vfEv (s : State) (c i : Nat) (u : Unit) : (setUnitAt s c i u).vfEv = s.vfEv := rfl
@[simp] theorem setUnitAt_pfEv (s : State) (c i : Nat) (u : Unit) : (setUnitAt s c i u).pfEv = s.pfEv := rfl
@[simp] theorem setUnitAt_keys (s : State) (c i : Nat) (u : Unit) : (setUnitAt s c i u).keys = s.keys := rfl
@[simp] theorem setUnitAt_chans (s : State) (c i : Nat) (u : Unit) : (setUnitAt s c i u).chans = s.chans := rfl
@[simp] theorem setUnitAt_bars (s : State) (c i : Nat) (u : Unit) : (setUnitAt s c i u).bars = s.bars := rfl
@[simp] theorem setUnitAt_itins (s : State) (c i : Nat) (u : Unit) : (setUnitAt s c i u).itins = s.itins := rfl
@[simp] theorem setUnitAt_hist (s : State) (c i : Nat) (u : Unit) : (setUnitAt s c i u).hist = s.hist := rfl
@[simp] theorem setUnitAt_tierLast (s : State) (c i : Nat) (u : Unit) : (setUnitAt s c i u).tierLast = s.tierLast := rfl
@[simp] theorem setUnitAt_joins (s : State) (c i : Nat) (u : Unit) : (setUnitAt s c i u).joins = s.joins := rfl
@[simp] theorem setUnitAt_net (s : State) (c i : Nat) (u : Unit) : (setUnitAt s c i u).net = s.net := rfl
@[simp] theorem setUnitAt_sendSeq (s : State) (c i : Nat) (u : Unit) : (setUnitAt s c i u).sendSeq = s.sendSeq := rfl
@[simp] theorem setUnitAt_recvSeq (s : State) (c i : Nat) (u : Unit) : (setUnitAt s c i u).recvSeq = s.recvSeq := rfl
@[simp] theorem setUnitAt_migs (s : State) (c i : Nat) (u : Unit) : (setUnitAt s c i u).migs = s.migs := rfl
@[simp] theorem setUnitAt_heldw (s : State) (c i : Nat) (u : Unit) : (setUnitAt s c i u).heldw = s.heldw := rfl
@[simp] theorem setUnitAt_slow (s : State) (c i : Nat) (u : Unit) : (setUnitAt s c i u).slow = s.slow := rfl
@[simp] theorem setUnitAt_invals (s : State) (c i : Nat) (u : Unit) : (setUnitAt s c i u).invals = s.invals := rfl
@[simp] theorem setUnitAt_poison (s : State) (c i : Nat) (u : Unit) : (setUnitAt s c i u).poison = s.poison := rfl
@[simp] theorem setUnitAt_tasks (s : State) (c i : Nat) (u : Unit) : (setUnitAt s c i u).tasks = s.tasks := rfl
@[simp] theorem setUnitAt_taskSeq (s : State) (c i : Nat) (u : Unit) : (setUnitAt s c i u).taskSeq = s.taskSeq := rfl
@[simp] theorem setUnitAt_armCtr (s : State) (c i : Nat) (u : Unit) : (setUnitAt s c i u).armCtr = s.armCtr := rfl
@[simp] theorem setUnitAt_decrs (s : State) (c i : Nat) (u : Unit) : (setUnitAt s c i u).decrs = s.decrs := rfl
@[simp] theorem setUnitAt_nodes (s : State) (c i : Nat) (u : Unit) : (setUnitAt s c i u).nodes = s.nodes := rfl
@[simp] theorem setUnitAt_sched (s : State) (c i : Nat) (u : Unit) : (setUnitAt s c i u).sched = s.sched := rfl
@[simp] theorem setUnitAt_uidSeq (s : State) (c i : Nat) (u : Unit) : (setUnitAt s c i u).uidSeq = s.uidSeq := rfl
@[simp] theorem setUnitAt_aways (s : State) (c i : Nat) (u : Unit) : (setUnitAt s c i u).aways = s.aways := rfl
@[simp] theorem setUnitAt_chains (s : State) (c i : Nat) (u : Unit) : (setUnitAt s c i u).chains = s.chains := rfl
@[simp] theorem setUnitAt_owed (s : State) (c i : Nat) (u : Unit) : (setUnitAt s c i u).owed = s.owed := rfl
@[simp] theorem setUnitAt_rowsOut (s : State) (c i : Nat) (u : Unit) : (setUnitAt s c i u).rowsOut = s.rowsOut := rfl
@[simp] theorem setUnitAt_colls (s : State) (c i : Nat) (u : Unit) : (setUnitAt s c i u).colls = s.colls := rfl
@[simp] theorem setUnitAt_anns (s : State) (c i : Nat) (u : Unit) : (setUnitAt s c i u).anns = s.anns := rfl
@[simp] theorem setUnitAt_spent (s : State) (c i : Nat) (u : Unit) : (setUnitAt s c i u).spent = s.spent := rfl
@[simp] theorem setUnitAt_back (s : State) (c i : Nat) (u : Unit) : (setUnitAt s c i u).back = s.back := rfl
@[simp] theorem setUnitAt_fports (s : State) (c i : Nat) (u : Unit) : (setUnitAt s c i u).fports = s.fports := rfl
@[simp] theorem setUnitAt_cutPkgs (s : State) (c i : Nat) (u : Unit) : (setUnitAt s c i u).cutPkgs = s.cutPkgs := rfl
@[simp] theorem setUnitAt_quads (s : State) (c i : Nat) (u : Unit) : (setUnitAt s c i u).quads = s.quads := rfl
@[simp] theorem setUnitAt_spares (s : State) (c i : Nat) (u : Unit) : (setUnitAt s c i u).spares = s.spares := rfl
@[simp] theorem setUnitAt_preempts (s : State) (c i : Nat) (u : Unit) : (setUnitAt s c i u).preempts = s.preempts := rfl
@[simp] theorem setUnitAt_boxes (s : State) (c i : Nat) (u : Unit) : (setUnitAt s c i u).boxes = s.boxes := rfl
@[simp] theorem setUnitAt_pfErr (s : State) (c i : Nat) (u : Unit) : (setUnitAt s c i u).pfErr = s.pfErr := rfl
@[simp] theorem setUnitAt_hbm (s : State) (c i : Nat) (u : Unit) : (setUnitAt s c i u).hbm = s.hbm := rfl
@[simp] theorem setUnitAt_fw (s : State) (c i : Nat) (u : Unit) : (setUnitAt s c i u).fw = s.fw := rfl
@[simp] theorem setUnitAt_turns (s : State) (c i : Nat) (u : Unit) : (setUnitAt s c i u).turns = s.turns := rfl
@[simp] theorem setUnitAt_focus (s : State) (c i : Nat) (u : Unit) : (setUnitAt s c i u).focus = s.focus := rfl
@[simp] theorem setUnitAt_fresh (s : State) (c i : Nat) (u : Unit) : (setUnitAt s c i u).fresh = s.fresh := rfl

/-! ## setUnit -/

@[simp] theorem setUnit_clk (s : State) (u : Unit) : (setUnit s u).clk = s.clk := rfl
@[simp] theorem setUnit_mem (s : State) (u : Unit) : (setUnit s u).mem = s.mem := rfl
@[simp] theorem setUnit_cores (s : State) (u : Unit) : (setUnit s u).cores = mapSet s.cores s.focus.core (withUnit (curCore s) s.focus.slot u) := rfl
@[simp] theorem setUnit_parts (s : State) (u : Unit) : (setUnit s u).parts = s.parts := rfl
@[simp] theorem setUnit_deps (s : State) (u : Unit) : (setUnit s u).deps = s.deps := rfl
@[simp] theorem setUnit_cmds (s : State) (u : Unit) : (setUnit s u).cmds = s.cmds := rfl
@[simp] theorem setUnit_cmdSeq (s : State) (u : Unit) : (setUnit s u).cmdSeq = s.cmdSeq := rfl
@[simp] theorem setUnit_hubSeq (s : State) (u : Unit) : (setUnit s u).hubSeq = s.hubSeq := rfl
@[simp] theorem setUnit_tb (s : State) (u : Unit) : (setUnit s u).tb = s.tb := rfl
@[simp] theorem setUnit_traces (s : State) (u : Unit) : (setUnit s u).traces = s.traces := rfl
@[simp] theorem setUnit_traceq (s : State) (u : Unit) : (setUnit s u).traceq = s.traceq := rfl
@[simp] theorem setUnit_vfEv (s : State) (u : Unit) : (setUnit s u).vfEv = s.vfEv := rfl
@[simp] theorem setUnit_pfEv (s : State) (u : Unit) : (setUnit s u).pfEv = s.pfEv := rfl
@[simp] theorem setUnit_keys (s : State) (u : Unit) : (setUnit s u).keys = s.keys := rfl
@[simp] theorem setUnit_chans (s : State) (u : Unit) : (setUnit s u).chans = s.chans := rfl
@[simp] theorem setUnit_bars (s : State) (u : Unit) : (setUnit s u).bars = s.bars := rfl
@[simp] theorem setUnit_itins (s : State) (u : Unit) : (setUnit s u).itins = s.itins := rfl
@[simp] theorem setUnit_hist (s : State) (u : Unit) : (setUnit s u).hist = s.hist := rfl
@[simp] theorem setUnit_tierLast (s : State) (u : Unit) : (setUnit s u).tierLast = s.tierLast := rfl
@[simp] theorem setUnit_joins (s : State) (u : Unit) : (setUnit s u).joins = s.joins := rfl
@[simp] theorem setUnit_net (s : State) (u : Unit) : (setUnit s u).net = s.net := rfl
@[simp] theorem setUnit_sendSeq (s : State) (u : Unit) : (setUnit s u).sendSeq = s.sendSeq := rfl
@[simp] theorem setUnit_recvSeq (s : State) (u : Unit) : (setUnit s u).recvSeq = s.recvSeq := rfl
@[simp] theorem setUnit_migs (s : State) (u : Unit) : (setUnit s u).migs = s.migs := rfl
@[simp] theorem setUnit_heldw (s : State) (u : Unit) : (setUnit s u).heldw = s.heldw := rfl
@[simp] theorem setUnit_slow (s : State) (u : Unit) : (setUnit s u).slow = s.slow := rfl
@[simp] theorem setUnit_invals (s : State) (u : Unit) : (setUnit s u).invals = s.invals := rfl
@[simp] theorem setUnit_poison (s : State) (u : Unit) : (setUnit s u).poison = s.poison := rfl
@[simp] theorem setUnit_tasks (s : State) (u : Unit) : (setUnit s u).tasks = s.tasks := rfl
@[simp] theorem setUnit_taskSeq (s : State) (u : Unit) : (setUnit s u).taskSeq = s.taskSeq := rfl
@[simp] theorem setUnit_armCtr (s : State) (u : Unit) : (setUnit s u).armCtr = s.armCtr := rfl
@[simp] theorem setUnit_decrs (s : State) (u : Unit) : (setUnit s u).decrs = s.decrs := rfl
@[simp] theorem setUnit_nodes (s : State) (u : Unit) : (setUnit s u).nodes = s.nodes := rfl
@[simp] theorem setUnit_sched (s : State) (u : Unit) : (setUnit s u).sched = s.sched := rfl
@[simp] theorem setUnit_uidSeq (s : State) (u : Unit) : (setUnit s u).uidSeq = s.uidSeq := rfl
@[simp] theorem setUnit_aways (s : State) (u : Unit) : (setUnit s u).aways = s.aways := rfl
@[simp] theorem setUnit_chains (s : State) (u : Unit) : (setUnit s u).chains = s.chains := rfl
@[simp] theorem setUnit_owed (s : State) (u : Unit) : (setUnit s u).owed = s.owed := rfl
@[simp] theorem setUnit_rowsOut (s : State) (u : Unit) : (setUnit s u).rowsOut = s.rowsOut := rfl
@[simp] theorem setUnit_colls (s : State) (u : Unit) : (setUnit s u).colls = s.colls := rfl
@[simp] theorem setUnit_anns (s : State) (u : Unit) : (setUnit s u).anns = s.anns := rfl
@[simp] theorem setUnit_spent (s : State) (u : Unit) : (setUnit s u).spent = s.spent := rfl
@[simp] theorem setUnit_back (s : State) (u : Unit) : (setUnit s u).back = s.back := rfl
@[simp] theorem setUnit_fports (s : State) (u : Unit) : (setUnit s u).fports = s.fports := rfl
@[simp] theorem setUnit_cutPkgs (s : State) (u : Unit) : (setUnit s u).cutPkgs = s.cutPkgs := rfl
@[simp] theorem setUnit_quads (s : State) (u : Unit) : (setUnit s u).quads = s.quads := rfl
@[simp] theorem setUnit_spares (s : State) (u : Unit) : (setUnit s u).spares = s.spares := rfl
@[simp] theorem setUnit_preempts (s : State) (u : Unit) : (setUnit s u).preempts = s.preempts := rfl
@[simp] theorem setUnit_boxes (s : State) (u : Unit) : (setUnit s u).boxes = s.boxes := rfl
@[simp] theorem setUnit_pfErr (s : State) (u : Unit) : (setUnit s u).pfErr = s.pfErr := rfl
@[simp] theorem setUnit_hbm (s : State) (u : Unit) : (setUnit s u).hbm = s.hbm := rfl
@[simp] theorem setUnit_fw (s : State) (u : Unit) : (setUnit s u).fw = s.fw := rfl
@[simp] theorem setUnit_turns (s : State) (u : Unit) : (setUnit s u).turns = s.turns := rfl
@[simp] theorem setUnit_focus (s : State) (u : Unit) : (setUnit s u).focus = s.focus := rfl
@[simp] theorem setUnit_fresh (s : State) (u : Unit) : (setUnit s u).fresh = s.fresh := rfl

/-! ## focusOn -/

@[simp] theorem focusOn_clk (s : State) (c i k : Nat) : (focusOn s c i k).clk = s.clk := rfl
@[simp] theorem focusOn_mem (s : State) (c i k : Nat) : (focusOn s c i k).mem = s.mem := rfl
@[simp] theorem focusOn_cores (s : State) (c i k : Nat) : (focusOn s c i k).cores = s.cores := rfl
@[simp] theorem focusOn_parts (s : State) (c i k : Nat) : (focusOn s c i k).parts = s.parts := rfl
@[simp] theorem focusOn_deps (s : State) (c i k : Nat) : (focusOn s c i k).deps = s.deps := rfl
@[simp] theorem focusOn_cmds (s : State) (c i k : Nat) : (focusOn s c i k).cmds = s.cmds := rfl
@[simp] theorem focusOn_cmdSeq (s : State) (c i k : Nat) : (focusOn s c i k).cmdSeq = s.cmdSeq := rfl
@[simp] theorem focusOn_hubSeq (s : State) (c i k : Nat) : (focusOn s c i k).hubSeq = s.hubSeq := rfl
@[simp] theorem focusOn_tb (s : State) (c i k : Nat) : (focusOn s c i k).tb = s.tb := rfl
@[simp] theorem focusOn_traces (s : State) (c i k : Nat) : (focusOn s c i k).traces = s.traces := rfl
@[simp] theorem focusOn_traceq (s : State) (c i k : Nat) : (focusOn s c i k).traceq = s.traceq := rfl
@[simp] theorem focusOn_vfEv (s : State) (c i k : Nat) : (focusOn s c i k).vfEv = s.vfEv := rfl
@[simp] theorem focusOn_pfEv (s : State) (c i k : Nat) : (focusOn s c i k).pfEv = s.pfEv := rfl
@[simp] theorem focusOn_keys (s : State) (c i k : Nat) : (focusOn s c i k).keys = s.keys := rfl
@[simp] theorem focusOn_chans (s : State) (c i k : Nat) : (focusOn s c i k).chans = s.chans := rfl
@[simp] theorem focusOn_bars (s : State) (c i k : Nat) : (focusOn s c i k).bars = s.bars := rfl
@[simp] theorem focusOn_itins (s : State) (c i k : Nat) : (focusOn s c i k).itins = s.itins := rfl
@[simp] theorem focusOn_hist (s : State) (c i k : Nat) : (focusOn s c i k).hist = s.hist := rfl
@[simp] theorem focusOn_tierLast (s : State) (c i k : Nat) : (focusOn s c i k).tierLast = s.tierLast := rfl
@[simp] theorem focusOn_joins (s : State) (c i k : Nat) : (focusOn s c i k).joins = s.joins := rfl
@[simp] theorem focusOn_net (s : State) (c i k : Nat) : (focusOn s c i k).net = s.net := rfl
@[simp] theorem focusOn_sendSeq (s : State) (c i k : Nat) : (focusOn s c i k).sendSeq = s.sendSeq := rfl
@[simp] theorem focusOn_recvSeq (s : State) (c i k : Nat) : (focusOn s c i k).recvSeq = s.recvSeq := rfl
@[simp] theorem focusOn_migs (s : State) (c i k : Nat) : (focusOn s c i k).migs = s.migs := rfl
@[simp] theorem focusOn_heldw (s : State) (c i k : Nat) : (focusOn s c i k).heldw = s.heldw := rfl
@[simp] theorem focusOn_slow (s : State) (c i k : Nat) : (focusOn s c i k).slow = s.slow := rfl
@[simp] theorem focusOn_invals (s : State) (c i k : Nat) : (focusOn s c i k).invals = s.invals := rfl
@[simp] theorem focusOn_poison (s : State) (c i k : Nat) : (focusOn s c i k).poison = s.poison := rfl
@[simp] theorem focusOn_tasks (s : State) (c i k : Nat) : (focusOn s c i k).tasks = s.tasks := rfl
@[simp] theorem focusOn_taskSeq (s : State) (c i k : Nat) : (focusOn s c i k).taskSeq = s.taskSeq := rfl
@[simp] theorem focusOn_armCtr (s : State) (c i k : Nat) : (focusOn s c i k).armCtr = s.armCtr := rfl
@[simp] theorem focusOn_decrs (s : State) (c i k : Nat) : (focusOn s c i k).decrs = s.decrs := rfl
@[simp] theorem focusOn_nodes (s : State) (c i k : Nat) : (focusOn s c i k).nodes = s.nodes := rfl
@[simp] theorem focusOn_sched (s : State) (c i k : Nat) : (focusOn s c i k).sched = s.sched := rfl
@[simp] theorem focusOn_uidSeq (s : State) (c i k : Nat) : (focusOn s c i k).uidSeq = s.uidSeq := rfl
@[simp] theorem focusOn_aways (s : State) (c i k : Nat) : (focusOn s c i k).aways = s.aways := rfl
@[simp] theorem focusOn_chains (s : State) (c i k : Nat) : (focusOn s c i k).chains = s.chains := rfl
@[simp] theorem focusOn_owed (s : State) (c i k : Nat) : (focusOn s c i k).owed = s.owed := rfl
@[simp] theorem focusOn_rowsOut (s : State) (c i k : Nat) : (focusOn s c i k).rowsOut = s.rowsOut := rfl
@[simp] theorem focusOn_colls (s : State) (c i k : Nat) : (focusOn s c i k).colls = s.colls := rfl
@[simp] theorem focusOn_anns (s : State) (c i k : Nat) : (focusOn s c i k).anns = s.anns := rfl
@[simp] theorem focusOn_spent (s : State) (c i k : Nat) : (focusOn s c i k).spent = s.spent := rfl
@[simp] theorem focusOn_back (s : State) (c i k : Nat) : (focusOn s c i k).back = s.back := rfl
@[simp] theorem focusOn_fports (s : State) (c i k : Nat) : (focusOn s c i k).fports = s.fports := rfl
@[simp] theorem focusOn_cutPkgs (s : State) (c i k : Nat) : (focusOn s c i k).cutPkgs = s.cutPkgs := rfl
@[simp] theorem focusOn_quads (s : State) (c i k : Nat) : (focusOn s c i k).quads = s.quads := rfl
@[simp] theorem focusOn_spares (s : State) (c i k : Nat) : (focusOn s c i k).spares = s.spares := rfl
@[simp] theorem focusOn_preempts (s : State) (c i k : Nat) : (focusOn s c i k).preempts = s.preempts := rfl
@[simp] theorem focusOn_boxes (s : State) (c i k : Nat) : (focusOn s c i k).boxes = s.boxes := rfl
@[simp] theorem focusOn_pfErr (s : State) (c i k : Nat) : (focusOn s c i k).pfErr = s.pfErr := rfl
@[simp] theorem focusOn_hbm (s : State) (c i k : Nat) : (focusOn s c i k).hbm = s.hbm := rfl
@[simp] theorem focusOn_fw (s : State) (c i k : Nat) : (focusOn s c i k).fw = s.fw := rfl
@[simp] theorem focusOn_turns (s : State) (c i k : Nat) : (focusOn s c i k).turns = s.turns := rfl
@[simp] theorem focusOn_focus (s : State) (c i k : Nat) : (focusOn s c i k).focus = { core := c, slot := i, sub := k } := rfl
@[simp] theorem focusOn_fresh (s : State) (c i k : Nat) : (focusOn s c i k).fresh = s.fresh := rfl

/-! ## withUnit -/

@[simp] theorem withUnit_units (k : Core) (i : Nat) (u : Unit) : (withUnit k i u).units = mapSet k.units i u := rfl
@[simp] theorem withUnit_lastSlot (k : Core) (i : Nat) (u : Unit) : (withUnit k i u).lastSlot = k.lastSlot := rfl
@[simp] theorem withUnit_issuedAt (k : Core) (i : Nat) (u : Unit) : (withUnit k i u).issuedAt = k.issuedAt := rfl
@[simp] theorem withUnit_divider (k : Core) (i : Nat) (u : Unit) : (withUnit k i u).divider = k.divider := rfl
@[simp] theorem withUnit_vec (k : Core) (i : Nat) (u : Unit) : (withUnit k i u).vec = k.vec := rfl
@[simp] theorem withUnit_mats (k : Core) (i : Nat) (u : Unit) : (withUnit k i u).mats = k.mats := rfl
@[simp] theorem withUnit_vrows (k : Core) (i : Nat) (u : Unit) : (withUnit k i u).vrows = k.vrows := rfl
@[simp] theorem withUnit_rowLog (k : Core) (i : Nat) (u : Unit) : (withUnit k i u).rowLog = k.rowLog := rfl
@[simp] theorem withUnit_tiles (k : Core) (i : Nat) (u : Unit) : (withUnit k i u).tiles = k.tiles := rfl
@[simp] theorem withUnit_scratch (k : Core) (i : Nat) (u : Unit) : (withUnit k i u).scratch = k.scratch := rfl
@[simp] theorem withUnit_scrLog (k : Core) (i : Nat) (u : Unit) : (withUnit k i u).scrLog = k.scrLog := rfl
@[simp] theorem withUnit_spoil (k : Core) (i : Nat) (u : Unit) : (withUnit k i u).spoil = k.spoil := rfl
@[simp] theorem withUnit_shapes (k : Core) (i : Nat) (u : Unit) : (withUnit k i u).shapes = k.shapes := rfl
@[simp] theorem withUnit_imemV (k : Core) (i : Nat) (u : Unit) : (withUnit k i u).imemV = k.imemV := rfl
@[simp] theorem withUnit_imemM (k : Core) (i : Nat) (u : Unit) : (withUnit k i u).imemM = k.imemM := rfl
@[simp] theorem withUnit_images (k : Core) (i : Nat) (u : Unit) : (withUnit k i u).images = k.images := rfl
@[simp] theorem withUnit_knots (k : Core) (i : Nat) (u : Unit) : (withUnit k i u).knots = k.knots := rfl
@[simp] theorem withUnit_knotw (k : Core) (i : Nat) (u : Unit) : (withUnit k i u).knotw = k.knotw := rfl
@[simp] theorem withUnit_tokq (k : Core) (i : Nat) (u : Unit) : (withUnit k i u).tokq = k.tokq := rfl
@[simp] theorem withUnit_subs (k : Core) (i : Nat) (u : Unit) : (withUnit k i u).subs = k.subs := rfl
@[simp] theorem withUnit_hodSeq (k : Core) (i : Nat) (u : Unit) : (withUnit k i u).hodSeq = k.hodSeq := rfl
@[simp] theorem withUnit_hodLast (k : Core) (i : Nat) (u : Unit) : (withUnit k i u).hodLast = k.hodLast := rfl
@[simp] theorem withUnit_hodReq (k : Core) (i : Nat) (u : Unit) : (withUnit k i u).hodReq = k.hodReq := rfl
@[simp] theorem withUnit_hodCur (k : Core) (i : Nat) (u : Unit) : (withUnit k i u).hodCur = k.hodCur := rfl
@[simp] theorem withUnit_hodLines (k : Core) (i : Nat) (u : Unit) : (withUnit k i u).hodLines = k.hodLines := rfl
@[simp] theorem withUnit_brief (k : Core) (i : Nat) (u : Unit) : (withUnit k i u).brief = k.brief := rfl
@[simp] theorem withUnit_asks (k : Core) (i : Nat) (u : Unit) : (withUnit k i u).asks = k.asks := rfl
@[simp] theorem withUnit_asked (k : Core) (i : Nat) (u : Unit) : (withUnit k i u).asked = k.asked := rfl
@[simp] theorem withUnit_accs (k : Core) (i : Nat) (u : Unit) : (withUnit k i u).accs = k.accs := rfl
@[simp] theorem withUnit_accSeq (k : Core) (i : Nat) (u : Unit) : (withUnit k i u).accSeq = k.accSeq := rfl
@[simp] theorem withUnit_grantLast (k : Core) (i : Nat) (u : Unit) : (withUnit k i u).grantLast = k.grantLast := rfl
@[simp] theorem withUnit_tlb (k : Core) (i : Nat) (u : Unit) : (withUnit k i u).tlb = k.tlb := rfl
@[simp] theorem withUnit_lyc (k : Core) (i : Nat) (u : Unit) : (withUnit k i u).lyc = k.lyc := rfl
@[simp] theorem withUnit_parked (k : Core) (i : Nat) (u : Unit) : (withUnit k i u).parked = k.parked := rfl
@[simp] theorem withUnit_ranks (k : Core) (i : Nat) (u : Unit) : (withUnit k i u).ranks = k.ranks := rfl
@[simp] theorem withUnit_lrows (k : Core) (i : Nat) (u : Unit) : (withUnit k i u).lrows = k.lrows := rfl
@[simp] theorem withUnit_dirty (k : Core) (i : Nat) (u : Unit) : (withUnit k i u).dirty = k.dirty := rfl
@[simp] theorem withUnit_badRows (k : Core) (i : Nat) (u : Unit) : (withUnit k i u).badRows = k.badRows := rfl
@[simp] theorem withUnit_frozen (k : Core) (i : Nat) (u : Unit) : (withUnit k i u).frozen = k.frozen := rfl
@[simp] theorem withUnit_badWords (k : Core) (i : Nat) (u : Unit) : (withUnit k i u).badWords = k.badWords := rfl
@[simp] theorem withUnit_mismatch (k : Core) (i : Nat) (u : Unit) : (withUnit k i u).mismatch = k.mismatch := rfl
@[simp] theorem withUnit_upset (k : Core) (i : Nat) (u : Unit) : (withUnit k i u).upset = k.upset := rfl
@[simp] theorem withUnit_icache (k : Core) (i : Nat) (u : Unit) : (withUnit k i u).icache = k.icache := rfl
@[simp] theorem withUnit_seen (k : Core) (i : Nat) (u : Unit) : (withUnit k i u).seen = k.seen := rfl
@[simp] theorem withUnit_journal (k : Core) (i : Nat) (u : Unit) : (withUnit k i u).journal = k.journal := rfl

/-! ## withMat -/

@[simp] theorem withMat_units (k : Core) (n : Nat) (m : Strm) : (withMat k n m).units = k.units := rfl
@[simp] theorem withMat_lastSlot (k : Core) (n : Nat) (m : Strm) : (withMat k n m).lastSlot = k.lastSlot := rfl
@[simp] theorem withMat_issuedAt (k : Core) (n : Nat) (m : Strm) : (withMat k n m).issuedAt = k.issuedAt := rfl
@[simp] theorem withMat_divider (k : Core) (n : Nat) (m : Strm) : (withMat k n m).divider = k.divider := rfl
@[simp] theorem withMat_vec (k : Core) (n : Nat) (m : Strm) : (withMat k n m).vec = k.vec := rfl
@[simp] theorem withMat_mats (k : Core) (n : Nat) (m : Strm) : (withMat k n m).mats = mapSet k.mats n m := rfl
@[simp] theorem withMat_vrows (k : Core) (n : Nat) (m : Strm) : (withMat k n m).vrows = k.vrows := rfl
@[simp] theorem withMat_rowLog (k : Core) (n : Nat) (m : Strm) : (withMat k n m).rowLog = k.rowLog := rfl
@[simp] theorem withMat_tiles (k : Core) (n : Nat) (m : Strm) : (withMat k n m).tiles = k.tiles := rfl
@[simp] theorem withMat_scratch (k : Core) (n : Nat) (m : Strm) : (withMat k n m).scratch = k.scratch := rfl
@[simp] theorem withMat_scrLog (k : Core) (n : Nat) (m : Strm) : (withMat k n m).scrLog = k.scrLog := rfl
@[simp] theorem withMat_spoil (k : Core) (n : Nat) (m : Strm) : (withMat k n m).spoil = k.spoil := rfl
@[simp] theorem withMat_shapes (k : Core) (n : Nat) (m : Strm) : (withMat k n m).shapes = k.shapes := rfl
@[simp] theorem withMat_imemV (k : Core) (n : Nat) (m : Strm) : (withMat k n m).imemV = k.imemV := rfl
@[simp] theorem withMat_imemM (k : Core) (n : Nat) (m : Strm) : (withMat k n m).imemM = k.imemM := rfl
@[simp] theorem withMat_images (k : Core) (n : Nat) (m : Strm) : (withMat k n m).images = k.images := rfl
@[simp] theorem withMat_knots (k : Core) (n : Nat) (m : Strm) : (withMat k n m).knots = k.knots := rfl
@[simp] theorem withMat_knotw (k : Core) (n : Nat) (m : Strm) : (withMat k n m).knotw = k.knotw := rfl
@[simp] theorem withMat_tokq (k : Core) (n : Nat) (m : Strm) : (withMat k n m).tokq = k.tokq := rfl
@[simp] theorem withMat_subs (k : Core) (n : Nat) (m : Strm) : (withMat k n m).subs = k.subs := rfl
@[simp] theorem withMat_hodSeq (k : Core) (n : Nat) (m : Strm) : (withMat k n m).hodSeq = k.hodSeq := rfl
@[simp] theorem withMat_hodLast (k : Core) (n : Nat) (m : Strm) : (withMat k n m).hodLast = k.hodLast := rfl
@[simp] theorem withMat_hodReq (k : Core) (n : Nat) (m : Strm) : (withMat k n m).hodReq = k.hodReq := rfl
@[simp] theorem withMat_hodCur (k : Core) (n : Nat) (m : Strm) : (withMat k n m).hodCur = k.hodCur := rfl
@[simp] theorem withMat_hodLines (k : Core) (n : Nat) (m : Strm) : (withMat k n m).hodLines = k.hodLines := rfl
@[simp] theorem withMat_brief (k : Core) (n : Nat) (m : Strm) : (withMat k n m).brief = k.brief := rfl
@[simp] theorem withMat_asks (k : Core) (n : Nat) (m : Strm) : (withMat k n m).asks = k.asks := rfl
@[simp] theorem withMat_asked (k : Core) (n : Nat) (m : Strm) : (withMat k n m).asked = k.asked := rfl
@[simp] theorem withMat_accs (k : Core) (n : Nat) (m : Strm) : (withMat k n m).accs = k.accs := rfl
@[simp] theorem withMat_accSeq (k : Core) (n : Nat) (m : Strm) : (withMat k n m).accSeq = k.accSeq := rfl
@[simp] theorem withMat_grantLast (k : Core) (n : Nat) (m : Strm) : (withMat k n m).grantLast = k.grantLast := rfl
@[simp] theorem withMat_tlb (k : Core) (n : Nat) (m : Strm) : (withMat k n m).tlb = k.tlb := rfl
@[simp] theorem withMat_lyc (k : Core) (n : Nat) (m : Strm) : (withMat k n m).lyc = k.lyc := rfl
@[simp] theorem withMat_parked (k : Core) (n : Nat) (m : Strm) : (withMat k n m).parked = k.parked := rfl
@[simp] theorem withMat_ranks (k : Core) (n : Nat) (m : Strm) : (withMat k n m).ranks = k.ranks := rfl
@[simp] theorem withMat_lrows (k : Core) (n : Nat) (m : Strm) : (withMat k n m).lrows = k.lrows := rfl
@[simp] theorem withMat_dirty (k : Core) (n : Nat) (m : Strm) : (withMat k n m).dirty = k.dirty := rfl
@[simp] theorem withMat_badRows (k : Core) (n : Nat) (m : Strm) : (withMat k n m).badRows = k.badRows := rfl
@[simp] theorem withMat_frozen (k : Core) (n : Nat) (m : Strm) : (withMat k n m).frozen = k.frozen := rfl
@[simp] theorem withMat_badWords (k : Core) (n : Nat) (m : Strm) : (withMat k n m).badWords = k.badWords := rfl
@[simp] theorem withMat_mismatch (k : Core) (n : Nat) (m : Strm) : (withMat k n m).mismatch = k.mismatch := rfl
@[simp] theorem withMat_upset (k : Core) (n : Nat) (m : Strm) : (withMat k n m).upset = k.upset := rfl
@[simp] theorem withMat_icache (k : Core) (n : Nat) (m : Strm) : (withMat k n m).icache = k.icache := rfl
@[simp] theorem withMat_seen (k : Core) (n : Nat) (m : Strm) : (withMat k n m).seen = k.seen := rfl
@[simp] theorem withMat_journal (k : Core) (n : Nat) (m : Strm) : (withMat k n m).journal = k.journal := rfl

/-! ## withTile -/

@[simp] theorem withTile_units (k : Core) (h : Nat) (t : Tile) : (withTile k h t).units = k.units := rfl
@[simp] theorem withTile_lastSlot (k : Core) (h : Nat) (t : Tile) : (withTile k h t).lastSlot = k.lastSlot := rfl
@[simp] theorem withTile_issuedAt (k : Core) (h : Nat) (t : Tile) : (withTile k h t).issuedAt = k.issuedAt := rfl
@[simp] theorem withTile_divider (k : Core) (h : Nat) (t : Tile) : (withTile k h t).divider = k.divider := rfl
@[simp] theorem withTile_vec (k : Core) (h : Nat) (t : Tile) : (withTile k h t).vec = k.vec := rfl
@[simp] theorem withTile_mats (k : Core) (h : Nat) (t : Tile) : (withTile k h t).mats = k.mats := rfl
@[simp] theorem withTile_vrows (k : Core) (h : Nat) (t : Tile) : (withTile k h t).vrows = k.vrows := rfl
@[simp] theorem withTile_rowLog (k : Core) (h : Nat) (t : Tile) : (withTile k h t).rowLog = k.rowLog := rfl
@[simp] theorem withTile_tiles (k : Core) (h : Nat) (t : Tile) : (withTile k h t).tiles = mapSet k.tiles h t := rfl
@[simp] theorem withTile_scratch (k : Core) (h : Nat) (t : Tile) : (withTile k h t).scratch = k.scratch := rfl
@[simp] theorem withTile_scrLog (k : Core) (h : Nat) (t : Tile) : (withTile k h t).scrLog = k.scrLog := rfl
@[simp] theorem withTile_spoil (k : Core) (h : Nat) (t : Tile) : (withTile k h t).spoil = k.spoil := rfl
@[simp] theorem withTile_shapes (k : Core) (h : Nat) (t : Tile) : (withTile k h t).shapes = k.shapes := rfl
@[simp] theorem withTile_imemV (k : Core) (h : Nat) (t : Tile) : (withTile k h t).imemV = k.imemV := rfl
@[simp] theorem withTile_imemM (k : Core) (h : Nat) (t : Tile) : (withTile k h t).imemM = k.imemM := rfl
@[simp] theorem withTile_images (k : Core) (h : Nat) (t : Tile) : (withTile k h t).images = k.images := rfl
@[simp] theorem withTile_knots (k : Core) (h : Nat) (t : Tile) : (withTile k h t).knots = k.knots := rfl
@[simp] theorem withTile_knotw (k : Core) (h : Nat) (t : Tile) : (withTile k h t).knotw = k.knotw := rfl
@[simp] theorem withTile_tokq (k : Core) (h : Nat) (t : Tile) : (withTile k h t).tokq = k.tokq := rfl
@[simp] theorem withTile_subs (k : Core) (h : Nat) (t : Tile) : (withTile k h t).subs = k.subs := rfl
@[simp] theorem withTile_hodSeq (k : Core) (h : Nat) (t : Tile) : (withTile k h t).hodSeq = k.hodSeq := rfl
@[simp] theorem withTile_hodLast (k : Core) (h : Nat) (t : Tile) : (withTile k h t).hodLast = k.hodLast := rfl
@[simp] theorem withTile_hodReq (k : Core) (h : Nat) (t : Tile) : (withTile k h t).hodReq = k.hodReq := rfl
@[simp] theorem withTile_hodCur (k : Core) (h : Nat) (t : Tile) : (withTile k h t).hodCur = k.hodCur := rfl
@[simp] theorem withTile_hodLines (k : Core) (h : Nat) (t : Tile) : (withTile k h t).hodLines = k.hodLines := rfl
@[simp] theorem withTile_brief (k : Core) (h : Nat) (t : Tile) : (withTile k h t).brief = k.brief := rfl
@[simp] theorem withTile_asks (k : Core) (h : Nat) (t : Tile) : (withTile k h t).asks = k.asks := rfl
@[simp] theorem withTile_asked (k : Core) (h : Nat) (t : Tile) : (withTile k h t).asked = k.asked := rfl
@[simp] theorem withTile_accs (k : Core) (h : Nat) (t : Tile) : (withTile k h t).accs = k.accs := rfl
@[simp] theorem withTile_accSeq (k : Core) (h : Nat) (t : Tile) : (withTile k h t).accSeq = k.accSeq := rfl
@[simp] theorem withTile_grantLast (k : Core) (h : Nat) (t : Tile) : (withTile k h t).grantLast = k.grantLast := rfl
@[simp] theorem withTile_tlb (k : Core) (h : Nat) (t : Tile) : (withTile k h t).tlb = k.tlb := rfl
@[simp] theorem withTile_lyc (k : Core) (h : Nat) (t : Tile) : (withTile k h t).lyc = k.lyc := rfl
@[simp] theorem withTile_parked (k : Core) (h : Nat) (t : Tile) : (withTile k h t).parked = k.parked := rfl
@[simp] theorem withTile_ranks (k : Core) (h : Nat) (t : Tile) : (withTile k h t).ranks = k.ranks := rfl
@[simp] theorem withTile_lrows (k : Core) (h : Nat) (t : Tile) : (withTile k h t).lrows = k.lrows := rfl
@[simp] theorem withTile_dirty (k : Core) (h : Nat) (t : Tile) : (withTile k h t).dirty = k.dirty := rfl
@[simp] theorem withTile_badRows (k : Core) (h : Nat) (t : Tile) : (withTile k h t).badRows = k.badRows := rfl
@[simp] theorem withTile_frozen (k : Core) (h : Nat) (t : Tile) : (withTile k h t).frozen = k.frozen := rfl
@[simp] theorem withTile_badWords (k : Core) (h : Nat) (t : Tile) : (withTile k h t).badWords = k.badWords := rfl
@[simp] theorem withTile_mismatch (k : Core) (h : Nat) (t : Tile) : (withTile k h t).mismatch = k.mismatch := rfl
@[simp] theorem withTile_upset (k : Core) (h : Nat) (t : Tile) : (withTile k h t).upset = k.upset := rfl
@[simp] theorem withTile_icache (k : Core) (h : Nat) (t : Tile) : (withTile k h t).icache = k.icache := rfl
@[simp] theorem withTile_seen (k : Core) (h : Nat) (t : Tile) : (withTile k h t).seen = k.seen := rfl
@[simp] theorem withTile_journal (k : Core) (h : Nat) (t : Tile) : (withTile k h t).journal = k.journal := rfl

end Sys2Proof.Machine
end

