-- ==== Sys2Proof/Laws/Ops.lean ====
section
/-! SUPPORT. What each shared operation can do, said once: reading back an agent that was written, the register file, a scalar
word, and a trap. -/
namespace Sys2Proof.Machine

open Sys2Proof.Safety

/-! ## Agents -/

theorem getCore_setCore (s : State) (c d : Nat) (k : Core) :
    getCore (setCore s c k) d = if d = c then k else getCore s d := by
  simp only [getCore, setCore_cores, mapGet_mapSet]

@[simp] theorem getCore_setCore_same (s : State) (c : Nat) (k : Core) : getCore (setCore s c k) c = k := by
  simp [getCore_setCore]

theorem unitOf_withUnit (k : Core) (i j : Nat) (u : Unit) :
    unitOf (withUnit k i u) j = if j = i then u else unitOf k j := by
  simp only [unitOf, withUnit_units, mapGet_mapSet]

@[simp] theorem unitOf_withUnit_same (k : Core) (i : Nat) (u : Unit) : unitOf (withUnit k i u) i = u := by
  simp [unitOf_withUnit]

@[simp] theorem curCore_setCur (s : State) (k : Core) : curCore (setCur s k) = k := by
  simp [curCore, setCur]

theorem getCore_setCur_ne (s : State) (k : Core) (c : Nat) (h : c ≠ s.focus.core) :
    getCore (setCur s k) c = getCore s c := by
  simp [setCur, getCore_setCore, h]

@[simp] theorem curCore_setUnit (s : State) (u : Unit) :
    curCore (setUnit s u) = withUnit (curCore s) s.focus.slot u := by
  simp [setUnit]

@[simp] theorem getUnit_setUnit (s : State) (u : Unit) : getUnit (setUnit s u) = u := by
  simp [getUnit]

theorem getCore_setUnit_ne (s : State) (u : Unit) (c : Nat) (h : c ≠ s.focus.core) :
    getCore (setUnit s u) c = getCore s c := getCore_setCur_ne _ _ _ h

@[simp] theorem getUnit_setCur (s : State) (k : Core) : getUnit (setCur s k) = unitOf k s.focus.slot := by
  simp [getUnit]

theorem unitAt_focus (s : State) : unitAt s s.focus.core s.focus.slot = getUnit s := rfl

theorem unitAt_setUnit_ne (s : State) (u : Unit) (i : Nat) (h : i ≠ s.focus.slot) :
    unitAt (setUnit s u) s.focus.core i = unitAt s s.focus.core i := by
  have : getCore (setUnit s u) s.focus.core = withUnit (curCore s) s.focus.slot u := curCore_setUnit s u
  simp [unitAt, this, unitOf_withUnit, h, curCore]

theorem tileOf_withTile (k : Core) (h j : Nat) (t : Tile) :
    tileOf (withTile k h t) j = if j = h then t else tileOf k j := by
  simp only [tileOf, withTile_tiles, mapGet_mapSet]

theorem matOf_withMat (k : Core) (n j : Nat) (m : Strm) :
    matOf (withMat k n m) j = if j = n then m else matOf k j := by
  simp only [matOf, withMat_mats, mapGet_mapSet]

theorem portOf_withPort (u : Unit) (e j : Nat) (p : Port) :
    portOf (withPort u e p) j = if j = e then p else portOf u j := by
  simp only [portOf, withPort, mapGet_mapSet]

/-! ## What has changed -/

/-- The core and the unit in focus replaced, and nothing else. -/
theorem became_set (s : State) (k : Core) (u : Unit) (h : ∀ i, i ≠ s.focus.slot → unitOf k i = unitOf (curCore s) i) :
    Became s (setUnit (setCur s k) u) k u := by
  refine ⟨⟨fun _ => rfl, rfl, fun c hc => ?_⟩, fun i hi => ?_, ?_, getUnit_setUnit _ _⟩
  · rw [getCore_setUnit_ne _ _ _ (by simpa using hc), getCore_setCur_ne _ _ _ hc]
  · have e := unitAt_setUnit_ne (setCur s k) u i (by simpa using hi)
    simp only [setCur_focus] at e
    rw [e]
    show unitOf (curCore (setCur s k)) i = _
    rw [curCore_setCur]
    exact h i hi
  · show curCore (setUnit (setCur s k) u) = { k with units := (curCore (setUnit (setCur s k) u)).units }
    rw [curCore_setUnit]; simp [withUnit]

/-- The unit in focus replaced, and nothing else. -/
theorem became_setUnit (s : State) (u : Unit) : Became s (setUnit s u) (curCore s) u := by
  refine ⟨⟨fun _ => rfl, rfl, fun c hc => getCore_setUnit_ne _ _ _ hc⟩, fun i hi => unitAt_setUnit_ne _ _ _ hi, ?_,
    getUnit_setUnit _ _⟩
  show curCore (setUnit s u) = { curCore s with units := (curCore (setUnit s u)).units }
  rw [curCore_setUnit]; simp [withUnit]

/-! ## Registers (R115, R140) -/

@[simp] theorem regRead_zero (s : State) : regRead s 0 = 0 := rfl

theorem regRead_congr (s t : State) (h : (getUnit t).regs = (getUnit s).regs) (r : BitVec 5) : regRead t r = regRead s r := by
  simp only [regRead, h]

/-- A register written in a unit, read back. -/
theorem regs_set_get (v : Vector Word 32) (rd r : BitVec 5) (x : Word) :
    (v.set rd.toNat x rd.isLt)[r.toNat]'(r.isLt) = if r = rd then x else v[r.toNat]'(r.isLt) := by
  by_cases h : r = rd
  · subst h; simp
  · rw [Vector.getElem_set_ne _ _ (fun e => h (BitVec.eq_of_toNat_eq e.symm)), if_neg h]

/-! ## Scalar words (R80) -/

/-- Whether a single step follows is one condition (R138). -/
theorem wordDone_runs {s : State} (hs : Runs s) (t : State) (pc : Word) :
    wordDone (getUnit s) t pc = setUnit t { getUnit t with pc := pc, wait := none, fore := [] } := by
  have h := hs.2
  simp only [wordDone]
  rw [if_neg (by simpa using h)]

/-- A scalar word that completes in a unit that does not single-step. -/
theorem scalarWord_done {i : Instr} {body : State → Act} {s t : State} (hs : Runs s) (h : body s = .done t) :
    scalarWord i body s = .next (setUnit t { getUnit t with pc := (getUnit s).pc + 4, wait := none, fore := [] }) := by
  simp only [scalarWord, hs.1, if_true, h, wordDone_runs hs]

/-- A scalar word that completes and goes on elsewhere. -/
theorem scalarWord_jump {i : Instr} {body : State → Act} {s t : State} {pc : Word} (hs : Runs s) (h : body s = .jump t pc) :
    scalarWord i body s = .next (setUnit t { getUnit t with pc := pc, wait := none, fore := [] }) := by
  simp only [scalarWord, hs.1, if_true, h, wordDone_runs hs]

/-- A scalar word that waits. -/
theorem scalarWord_wait {i : Instr} {body : State → Act} {s : State} (hs : scalarRuns s = true) (h : body s = .wait) :
    scalarWord i body s = .next (setUnit s { getUnit s with wait := some i, fore := [] }) := by
  simp [scalarWord, hs, h]

/-- A scalar word that traps. -/
theorem scalarWord_trap {i : Instr} {body : State → Act} {s : State} {cause : BitVec 8} {eval : Word}
    (hs : scalarRuns s = true) (h : body s = .trap cause eval) :
    scalarWord i body s = .next (takeTrap s 9 cause eval (getUnit s).pc) := by
  simp [scalarWord, hs, h]

/-- A scalar word never stops the machine. -/
theorem scalarWord_next (i : Instr) (body : State → Act) (s : State) : ∃ t, scalarWord i body s = .next t := by
  unfold scalarWord
  simp only
  split
  · split <;> exact ⟨_, rfl⟩
  · exact ⟨_, rfl⟩

/-- A register written with its latency, then the program counter: what `Wrote` says. -/
theorem wrote_done (s : State) (rd : BitVec 5) (v : Word) (n : Nat) (pc : Word) :
    Wrote s (setUnit (regWriteAfter s rd v n) { getUnit (regWriteAfter s rd v n) with pc := pc, wait := none, fore := [] }) rd v n pc := by
  by_cases h : rd = 0
  · subst h
    have e : regWriteAfter s 0 v n = s := rfl
    rw [e]
    refine ⟨?_, fun r => ?_, by simp⟩
    · simpa using became_setUnit s { getUnit s with pc := pc, wait := none, fore := [] }
    · by_cases hr : r = 0
      · subst hr; rfl
      · rw [if_neg hr, if_neg hr]
        exact regRead_congr _ _ (by simp) r
  · have e : setUnit (regWriteAfter s rd v n) { getUnit (regWriteAfter s rd v n) with pc := pc, wait := none, fore := [] } =
        setUnit (setUnit s { getUnit s with
          regs := (getUnit s).regs.set rd.toNat v rd.isLt
          ready := mapSet (getUnit s).ready rd.toNat (s.clk + n) })
          { getUnit s with
            regs := (getUnit s).regs.set rd.toNat v rd.isLt
            ready := mapSet (getUnit s).ready rd.toNat (s.clk + n), pc := pc, wait := none, fore := [] } := by
      simp only [regWriteAfter, if_neg h, getUnit_setUnit]
    rw [e]
    refine ⟨?_, fun r => ?_, by simp only [getUnit_setUnit, if_neg h]⟩
    · have hb := became_set s (withUnit (curCore s) s.focus.slot { getUnit s with
          regs := (getUnit s).regs.set rd.toNat v rd.isLt
          ready := mapSet (getUnit s).ready rd.toNat (s.clk + n) }) { getUnit s with
            regs := (getUnit s).regs.set rd.toNat v rd.isLt
            ready := mapSet (getUnit s).ready rd.toNat (s.clk + n), pc := pc, wait := none, fore := [] }
          (fun i hi => by simp [unitOf_withUnit, hi])
      simp only [getUnit_setUnit]
      exact hb
    · by_cases hr : r = 0
      · subst hr; rfl
      · rw [if_neg hr]
        simp only [regRead, if_neg hr, getUnit_setUnit]
        exact regs_set_get _ _ _ _

/-! ## Traps (R122, R125) -/

/-- What a trap of the scalar stream does in a unit that is not ending, whatever its cause but CHECK and UNCORR. -/
theorem takeTrap_raises (s : State) (cause : BitVec 8) (eval epc : Word) (h0 : (getUnit s).ending = none) (h1 : cause ≠ cCHECK) (h2 : cause ≠ cUNCORR) :
    Raises s (takeTrap s 9 cause eval epc) cause eval epc := by
  have hb : bypasses s (getUnit s) cause = false := by
    simp only [bypasses, beq_eq_false_iff_ne.mpr h1, beq_eq_false_iff_ne.mpr h2, Bool.or_self, Bool.false_and]
  unfold Raises takeTrap trapUnit
  rw [if_neg (by simp [h0])]
  cases hm : (getUnit s).mode
  · simp only [hb, Bool.false_eq_true, if_false]
    have hc : BitVec.ofNat 64 (9 * 4096 + cause.toNat) = 0x9000#64 + cause.setWidth 64 := by
      apply BitVec.eq_of_toNat_eq
      simp
    rw [TookTrap, trapTaken, hc]
    exact became_setUnit s _
  · simp only [IsEnding, hm]
    exact became_setUnit s _

end Sys2Proof.Machine
end

