-- ==== Sys2Proof/Laws/Memory.lean ====
section
/-! SUPPORT. The canonical form of memory through the operations that write it (R2). -/
namespace Sys2Proof.Machine

theorem State.reset_mem_wf : Memory.wf State.reset.mem = true := rfl

theorem Memory.wf_filter (m : List Host.Cell) (p : Host.Cell → Bool) (h : Memory.wf m = true) : Memory.wf (m.filter p) = true := by
  simp only [Memory.wf, Bool.and_eq_true] at h ⊢
  refine ⟨keysRising_filter m p h.1, ?_⟩
  simp only [List.all_eq_true, List.mem_filter] at h ⊢
  exact fun c hc => h.2 c hc.1

theorem homeWrite_mem_wf (s : State) (trace : Option Nat) (pa : Nat) (bs : List Byte) (h : Memory.wf s.mem = true) :
    Memory.wf (homeWrite s trace pa bs).mem = true := by
  unfold homeWrite
  split
  · exact h
  · exact Memory.wf_memSetBytes bs s.mem pa h

/-- A write at home goes into memory at once unless its page is under migration, or it follows a write of the same trace writer that waits:
then it waits and memory stays (R237, R403). -/
theorem homeWrite_mem (s : State) (trace : Option Nat) (pa : Nat) (bs : List Byte) :
    (homeWrite s trace pa bs).mem = if onMigrating s pa || (trace.isSome && s.heldw.any (fun w => w.trace == trace)) then s.mem else memSetBytes s.mem pa bs := by
  unfold homeWrite
  split <;> rfl

theorem writeBytes_mem_wf (s : State) (pa : Nat) (bs : List Byte) (h : Memory.wf s.mem = true) :
    Memory.wf (writeBytes s pa bs).mem = true := homeWrite_mem_wf s none pa bs h

theorem hubWrite_mem_wf (bs : List Byte) : ∀ (s t : State) (p va : Nat), Memory.wf s.mem = true → hubWrite s p va bs = some t →
    Memory.wf t.mem = true := by
  induction bs with
  | nil => intro s t p va h e; simp only [hubWrite, Option.some.injEq] at e; exact e ▸ h
  | cons b bs ih =>
    intro s t p va h e
    simp only [hubWrite] at e
    split at e
    · exact ih _ _ _ _ (homeWrite_mem_wf s _ _ [b] h) e
    · cases e

end Sys2Proof.Machine
end

