-- ==== Sys2Proof/Laws/Scalar.lean ====
section
/-! SUPPORT. What the shared forms of scalar words do (R24, R126 to R132): the completion of a register form, a one-operand form and
a branch. -/
namespace Sys2Proof.Machine

open Sys2Proof.Safety

theorem opRR_wrote {i : Instr} {n : Nat} {f : Word → Word → Word} {rd ra rb : BitVec 5} {s : State} {v : Word} (hs : Runs s)
    (hv : v = f (regRead s ra) (regRead s rb)) :
    ∃ t, opRR i n f rd ra rb s = .next t ∧ Wrote s t rd v n ((getUnit s).pc + 4) := by
  subst hv
  exact ⟨_, scalarWord_done hs rfl, wrote_done _ _ _ _ _⟩

theorem opR_wrote {i : Instr} {f : Word → Word} {rd ra : BitVec 5} {s : State} {v : Word} (hs : Runs s) (hv : v = f (regRead s ra)) :
    ∃ t, opR i f rd ra s = .next t ∧ Wrote s t rd v 1 ((getUnit s).pc + 4) := by
  subst hv
  exact ⟨_, scalarWord_done hs rfl, wrote_done _ _ _ _ _⟩

theorem opBranch_moved {i : Instr} {c : Word → Word → Bool} {ra rb : BitVec 5} {off : BitVec 16} {s : State} (hs : Runs s) :
    ∃ t, opBranch i c ra rb off s = .next t
      ∧ Moved s t (if c (regRead s ra) (regRead s rb) then branchTarget (getUnit s).pc off else (getUnit s).pc + 4) := by
  cases h : c (regRead s ra) (regRead s rb)
  · exact ⟨_, scalarWord_done (t := s) hs (by simp [h]), became_setUnit _ _⟩
  · exact ⟨_, scalarWord_jump (t := s) hs (by simp [h]), became_setUnit _ _⟩

end Sys2Proof.Machine
end

