-- ==== Sys2Proof/Tests/Slice0.lean ====
section
/-! SUPPORT. The model's own tests: ill-formed terms that WellFormed refuses, words written out from the spec's encodings, results the
spec states, and for every statement with hypotheses states and operands that meet them (theorems wit_…, named after the statement).
The word or number a test expects comes from the rule its docstring cites. -/
namespace Sys2Proof.Tests

open Sys2Proof Sys2Proof.Machine Sys2Proof.Safety

set_option Elab.async false

/-! ## Fields -/

/-- An f32 vector word on rows 10 and 2 and the constant 3, the rest as in R35's idle fields. -/
def vw : VWord :=
  { typ := 0, dst := 0x8050, a := 0x8010, b := 0x4018, c := 0, kpred := 0xF, take := 0xF, give := 0xF, rnd := 0, sat := false
    course := false }

/-- A VLDT or VSTT of f32 on row 10. -/
def vt : VTile :=
  { typ := 0, row := 0x8050, handle := 1, trow := 0, tseg := 0, tstr := 0, kpred := 0xF, take := 0xF, give := 0xF, course := false }

/-- The issue fields of a matrix word that carries neither token, knot, mark nor stamp (R39). -/
def mi : MIssue := { mark := false, take := 0xF, give := 0xF, knot := 0xF, stampen := false, stamp := 0 }

/-- A matrix control word's fields without a stamp (R100). -/
def mc : MCtl := { mark := false, stampen := false, stamp := 0 }

/-- An i8 MMAC of eight rows into a tile (R185, R192). -/
def mm : MmacF :=
  { fmt := 7, hw := 2, ha := 1, hc := 4, sha := 0, shc := 0, dprec := 0, nega := false, negw := false, accdis := false, mm1 := 7
    kr0 := 0, krm1 := 0, nc0 := 0, ncm1 := 0 }

/-- An f32 MEPI without scale, bias or RANKED (R194). -/
def me : MepiF :=
  { fmt := 0, hw := 0, ha := 1, hc := 4, sha := 0, shc := 0, sat := false, rnd := 0, scm := 0, bias := false, act := 0, aow := false
    ranked := false, zacc := false, cls := 0 }

/-! ## WellFormed refuses an ill-formed term of each check -/

/-- R32: uses above 4, and the uses an AMO or CAS does not take. -/
theorem test_wf_atomics :
    (∀ i ∈ ([.amoAdd 0 1 2 0 5 0, .amoAnd 3 1 2 0 1 0, .amoSwap 0 1 2 0 1 0, .amoOr 1 1 2 0 3 0, .amoXor 1 1 2 0 4 0,
        .amoMin 1 1 2 0 7 0, .amoMax 1 1 2 0 6 0, .cas 1 1 2 0 1 0, .cas 1 1 2 0 3 0] : List Instr), Instr.wf i = false)
    ∧ Instr.wf (.amoAdd 0 1 2 0 1 0) = true ∧ Instr.wf (.cas 1 1 2 0 2 0) = true := by decide

/-- R33, R117, R276, R288, R334: FENCE's unused registers, absent special registers, engines above 4 and barriers above 7. -/
theorem test_wf_scalar :
    (∀ i ∈ ([.fence 0 1 0 3 0, .fence 0 0 1 0 3, .getsr 1 4, .getsr 1 0x16, .putsr 1 0xFFF, .bstatSet 5 0 0, .bstatClr 15 0 0,
        .portW 1 5 0, .portGo 1 6, .portCut 1 7, .barArrive 8, .barWait 15] : List Instr), Instr.wf i = false)
    ∧ Instr.wf (.fence 0 0 0 3 3) = true ∧ Instr.wf (.getsr 1 0x15) = true ∧ Instr.wf (.barWait 7) = true := by decide

/-- R36, R38, R48, R209: a TYPE that is not assigned, a constant as destination, an operand level without its index limit, a used
stride at level 3, a constant that an integer type has not, and unused fields that are not zero. -/
theorem test_wf_vector :
    (∀ i ∈ ([.vadd { vw with typ := 15 }, .vadd { vw with dst := 0xC000 }, .vadd { vw with a := 0x0008 },
        .vadd { vw with a := 0x4080 }, .vadd { vw with b := 0xC001 }, .vadd { vw with b := 0xC200 }, .vadd { vw with c := 0x8000 },
        .vabs { vw with b := 0x8000 }, .vadd { vw with typ := 5, rnd := 1 }, .vmul { vw with typ := 7, b := 0xC120 },
        .vcmpeq { vw with sat := true }] : List Instr),
      Instr.wf i = false) ∧ Instr.wf (.vadd vw) = true := by decide

/-- R38, R217, R227: a source format that VCVT has not, and the limits of VLDT's and VSTT's own fields. -/
theorem test_wf_vector_moves :
    (∀ i ∈ ([.vcvt 15 { vw with b := 0 }, .vldt { vt with typ := 15 }, .vldt { vt with row := 0xC000 },
        .vstt { vt with row := 0x0008 }, .vknotAny 1 0x0008 false, .vloop 0 true 4 false,
        .vmod 5 1 true 4 0xF false false] : List Instr), Instr.wf i = false)
    ∧ Instr.wf (.vcvt 2 { vw with b := 0 }) = true ∧ Instr.wf (.vldt vt) = true ∧ Instr.wf (.vloop 0 true 3 false) = true := by
  decide

/-- R41, R100, R191, R194: a stamp without STAMPEN, a DPREC above 12, a format MMAC has not, and the limits of MEPI's own fields. -/
theorem test_wf_matrix :
    (∀ i ∈ ([.mswap { mi with stamp := 1 }, .mnop { mi with stamp := 1 }, .mbrEnd { mc with stamp := 1 }, .mldw mi 1 13 false 0 0,
        .mmac mi { mm with dprec := 13 }, .mmac mi { mm with fmt := 15 }, .mepi mi { me with fmt := 15 }, .mepi mi { me with scm := 3 },
        .mepi mi { me with act := 6 }, .mepi mi { me with bias := true }, .mepi mi { me with hw := 1 },
        .mepi mi { me with ranked := true }, .mloop mc 0 true 4] : List Instr), Instr.wf i = false)
    ∧ Instr.wf (.mmac mi mm) = true ∧ Instr.wf (.mepi mi me) = true
    ∧ Instr.wf (.mswap { mi with stampen := true, stamp := 1 }) = true := by decide

/-! ## Words written out from the spec's encodings (R23 to R41) -/

/-- R24, R26, R128: forms R and RI. -/
theorem test_decode_registers :
    decodeTableWord 32 0x04642800 = some (.add 3 4 5) ∧ decodeTableWord 32 0x04E42816 = some (.rem 7 4 5)
    ∧ decodeTableWord 32 0x08A0FFFF = some (.addi 5 0 0xFFFF) ∧ decodeTableWord 32 0x24838000 = some (.hset 4 3 0x8000) := by decide

/-- R131, R132: the opcode above, two registers, and the offset below. -/
theorem test_decode_branches :
    decodeTableWord 32 (0x11 * 2 ^ 26 + 1 * 2 ^ 21 + 0 * 2 ^ 16 + 0xFFFC) = some (.bne 1 0 0xFFFC)
    ∧ decodeTableWord 32 (0x16 * 2 ^ 26 + 5) = some (.jal 5)
    ∧ decodeTableWord 32 (0x17 * 2 ^ 26 + 31 * 2 ^ 21 + 2 * 2 ^ 16 + 8) = some (.jalr 31 2 8) := by decide

/-- R29, R250: a load of eight bytes at 16 past s2. -/
theorem test_decode_load : decodeTableWord 32 0x6CE20010 = some (.ldd 7 2 0 16) := by decide

/-- R23: the system words. -/
theorem test_decode_system :
    decodeTableWord 32 1 = some .nop ∧ decodeTableWord 32 2 = some .halt ∧ decodeTableWord 32 4 = some .brk
    ∧ decodeTableWord 32 5 = some .wfe ∧ decodeTableWord 32 6 = some .eret ∧ decodeTableWord 32 0 = none := by decide

/-- R117, R93, R97: special registers, token queues and knots. -/
theorem test_decode_special :
    decodeTableWord 32 0xA0A00011 = some (.getsr 5 0x11) ∧ decodeTableWord 32 0xA0051010 = some (.putsr 5 0x10)
    ∧ decodeTableWord 32 0xBC000053 = some (.tokTake 3) ∧ decodeTableWord 32 0xBC000014 = some (.knotSet 4) := by decide

/-- R158 to R163: the tile words. -/
theorem test_decode_tiles :
    decodeTableWord 32 0xB0C50001 = some (.talloc 6 5) ∧ decodeTableWord 32 0xB0040002 = some (.tfree 4)
    ∧ decodeTableWord 32 0xB0E40003 = some (.tinfo 7 4) ∧ decodeTableWord 32 0xB0042805 = some (.twait 4 5)
    ∧ decodeTableWord 32 0xB0034806 = some (.shapeW 3 9) := by decide

/-- R172, R178, R180: the words of the bond. -/
theorem test_decode_bond :
    decodeTableWord 32 0xC0040200 = some (.fabDrain 4) ∧ decodeTableWord 32 0xC0E00300 = some (.fabQuery 7 0) := by decide

/-- R35 to R37: a vector word of each of the data forms. -/
theorem test_decode_vector :
    decodeTableWord 96 0x0108_0508_0104_0180_000F_FF00 = some (.vadd vw)
    ∧ decodeTableWord 96 0x4008_0D08_0C00_0000_000F_FF00 = some (.vrsum { vw with dst := 0x80D0, a := 0x80C0, b := 0 })
    ∧ decodeTableWord 96 0x0608_0808_1808_5008_080F_FF00 =
        some (.vnfma { vw with dst := 0x8080, a := 0x8180, b := 0x8500, c := 0x8080 }) := by decide

/-- R100, R103, R110: sequencing words of the vector stream. -/
theorem test_decode_vector_control :
    decodeTableWord 96 0x7000_4600_0000_0000_000F_FF00 = some (.vshape 1 3 false)
    ∧ decodeTableWord 96 0x7203_0003_6000_0000_000F_FF00 = some (.vbrLoop 0 0x36 false)
    ∧ decodeTableWord 96 0x7301_4100_01F8_0000_000F_FF00 = some (.vmod 5 1 false 3 0xF false false) := by decide

/-- R39 to R41: matrix words. -/
theorem test_decode_matrix :
    decodeTableWord 192 0x0100_2800_0000_0000_000F_FF00_0000_0000_1000_0000_0000_0000 = some (.mldw mi 0x28 0 true 0 0)
    ∧ decodeTableWord 192 0x0200_0000_0000_0000_000F_FF00_0000_0000_0000_0000_0000_0000 = some (.mswap mi)
    ∧ decodeTableWord 192 0x0B00_0000_0000_0000_000F_FF00_0000_0000_0080_0000_0000_0000 = some (.mwaitSet mc 1) := by decide

/-! ## States -/

/-- A unit in U mode in slot 0 of core 0, whose scalar stream is at address 0 of the one page it may use. -/
def base : State := State.reset.withFetchWord 32 1

/-- A state with the unit in focus changed. -/
def onUnit (f : Machine.Unit → Machine.Unit) (s : State) : State := setUnit s (f (getUnit s))

/-- A state with the core in focus changed. -/
def onCore (f : Core → Core) (s : State) : State := setCur s (f (curCore s))

/-- A state in which a register of the unit in focus holds a value. -/
def reg (r : BitVec 5) (v : Word) (s : State) : State :=
  onUnit (fun u => { u with regs := u.regs.set r.toNat v r.isLt }) s

/-- The unit in focus in S mode, the trap vector of its partition at 0x1000. -/
def inS (s : State) : State := onUnit (fun u => { u with mode := .s, tvec := 0x1000, epc := 0x20 }) s

/-- The state an instruction goes on to. -/
def after (i : Instr) (s : State) : State :=
  match exec i s with
  | .next t => t
  | _ => s

/-! ## Scalar words -/

theorem base_runs : Runs base := by unfold Runs; decide +kernel
theorem inS_runs : Runs (inS base) := by unfold Runs; decide +kernel

theorem wit_AluWords : Runs base := base_runs
theorem wit_BitWords : Runs base := base_runs
theorem wit_ImmediateWords : Runs base := base_runs

/-- A division finds the divider free, or taken; one whose clock has come finishes for a unit that lives. -/
def dividing (due : Nat) : State :=
  onCore (fun k => { k with divider := some { slot := 0, uid := 1, rd := 5, value := 7, due := due } }) base
theorem wit_Divisions_issue : Runs base ∧ (curCore base).divider = none := ⟨base_runs, by decide +kernel⟩
theorem wit_Divisions_held : Runs (dividing 9) ∧ (curCore (dividing 9)).divider ≠ none := by unfold Runs; decide +kernel
theorem wit_Divisions_finish : ∃ d, (getCore (dividing 0) 0).divider = some d ∧ d.due ≤ (dividing 0).clk
    ∧ (unitAt (dividing 0) 0 d.slot).live = true ∧ (unitAt (dividing 0) 0 d.slot).uid = d.uid :=
  ⟨{ slot := 0, uid := 1, rd := 5, value := 7, due := 0 }, by decide +kernel⟩

/-- Engine 4 is the last there is, engine 5 the first there is not. -/
theorem wit_BranchWords : Runs base ∧ (4#4).toNat < 5 ∧ scalarRuns base = true ∧ 5 ≤ (5#4).toNat :=
  ⟨base_runs, by decide +kernel⟩

/-- A jump to 0, and one to 2. -/
theorem wit_JumpWords : Runs base ∧ (regRead base 1 + (0#16).signExtend 64) &&& 3 = 0 ∧ scalarRuns base = true
    ∧ (regRead base 1 + (2#16).signExtend 64) &&& 3 ≠ 0 := ⟨base_runs, by decide +kernel⟩

theorem wit_SystemWords : Runs base ∧ scalarRuns base = true := ⟨base_runs, by decide +kernel⟩

theorem wit_SystemWords_step : scalarRuns (onUnit (fun u => { u with sstep := true }) base) = true
    ∧ (getUnit (onUnit (fun u => { u with sstep := true }) base)).mode = .u
    ∧ (getUnit (onUnit (fun u => { u with sstep := true }) base)).sstep = true
    ∧ resultsOut (curCore base) (getUnit base).uid = false ∧ resultsOut (curCore (dividing 9)) (getUnit (dividing 9)).uid = true
    ∧ scalarRuns (onUnit (fun u => { u with sstep := true }) (dividing 9)) = true
    ∧ (getUnit (onUnit (fun u => { u with sstep := true, stepped := true }) base)).stepped = true
    ∧ (getUnit base).compare = none ∧ (getUnit base).diverged = false := by decide +kernel

/-- A completion record of status 0. -/
def okRec : Rec :=
  { entered := 0, status := 0, sub := 0, engine := 0, flags := 4, tagq := 0, sig := 0, detail := 0, tns := 0, count := 0 }

/-- Knot 3 is set, the latch is set and the event queue holds a record. -/
def awake : State := onUnit (fun u => { u with evl := true, evq := [okRec] }) (onCore (fun k => { k with knots := 8 }) base)
theorem awake_runs : Runs awake := by unfold Runs; decide +kernel

theorem wit_KnotWordsAndWaits_go : Runs awake ∧ (curCore awake).knots.getLsbD (3#4).toNat = true
    ∧ decide ((regRead awake 1).toNat ≤ awake.tb.tns) = true ∧ decide ((getUnit awake).evq ≠ []) = true
    ∧ (getUnit awake).evl = true := ⟨awake_runs, by decide +kernel⟩
theorem wit_KnotWordsAndWaits_wait : scalarRuns base = true ∧ (curCore base).knots.getLsbD (3#4).toNat = false
    ∧ decide ((regRead (reg 1 1 base) 1).toNat ≤ (reg 1 1 base).tb.tns) = false ∧ decide ((getUnit base).evq ≠ []) = false
    ∧ (getUnit base).evl = false := by decide +kernel

/-! ## Special registers, time, knots and tokens -/

/-- 0x15 may be read in U mode and 0x14 may not; 0x16 is absent. -/
theorem wit_SpecialRegistersAreRead : Runs base ∧ scalarRuns base = true ∧ (specialValue (getUnit base) 0x15).isSome = true
    ∧ (specialValue (getUnit base) 0x14).isSome = true ∧ ¬((getUnit base).mode = .s ∨ 0x14 < 4 ∨ 0x14 = 0x15)
    ∧ specialValue (getUnit base) 0x16 = none := ⟨base_runs, by decide +kernel⟩

/-- Values at the edge of what each register takes. -/
theorem wit_SpecialRegistersAreWritten_take : Runs (inS base) ∧ (getUnit (inS base)).mode = .s
    ∧ (0xD#64 &&& ~~~(0xD#64) = 0 ∧ (0xD#64).getLsbD 0 = true)
    ∧ 0x007FFFFFFFFFFFFC#64 &&& ~~~(0x007FFFFFFFFFFFFC#64) = 0 ∧ 0xF0FF#64 &&& ~~~(0xF0FF#64) = 0 := ⟨inS_runs, by decide +kernel⟩
theorem wit_SpecialRegistersAreWritten_trap : scalarRuns base = true ∧ (getUnit base).mode = .u
    ∧ specialValue (getUnit base) 4 = none ∧ scalarRuns (inS base) = true ∧ (getUnit (inS base)).mode = .s
    ∧ 2#64 &&& ~~~(0xD#64) ≠ 0 ∧ (0xC#64).getLsbD 0 = false ∧ 1#64 &&& ~~~(0x007FFFFFFFFFFFFC#64) ≠ 0
    ∧ 0x100#64 &&& ~~~(0xF0FF#64) ≠ 0 := by decide +kernel

theorem wit_KnotWordsAndWaits_write : Runs base ∧ (curCore base).knotw = [] := ⟨base_runs, by decide +kernel⟩

/-- Queue 3 is the unit's own with a count and a reserve. -/
def queue (count rsv : Nat) : State :=
  onCore (fun k => { k with tokq := [(3, { owner := some 1, count := count, rsv := rsv })] }) (reg 1 3 base)
theorem queue_runs : Runs (queue 31 0) := by unfold Runs; decide +kernel

theorem wit_TokenWords_own : Runs (queue 31 0) ∧ (tokOf (curCore (queue 31 0)) 3).owner = some (getUnit (queue 31 0)).uid
    ∧ (tokOf (curCore (queue 31 0)) 3).count + (tokOf (curCore (queue 31 0)) 3).rsv < 32
    ∧ 1 ≤ (tokOf (curCore (queue 31 0)) 3).count := ⟨queue_runs, by decide +kernel⟩
theorem wit_TokenWords_wait : scalarRuns (queue 31 1) = true ∧ scalarRuns (queue 0 0) = true
    ∧ 32 ≤ (tokOf (curCore (queue 31 1)) 3).count + (tokOf (curCore (queue 31 1)) 3).rsv
    ∧ (tokOf (curCore (queue 0 0)) 3).count = 0 ∧ (tokOf (curCore (queue 31 1)) 3).rsv ≠ 0
    ∧ (tokOf (curCore base) 3).owner ≠ some (getUnit base).uid := by decide +kernel
theorem wit_TokenWords_config : Runs (queue 31 0) ∧ regRead (queue 31 0) 1 = (3#4).setWidth 64
    ∧ (32#64).toNat ≤ 32 ∧ (tokOf (curCore (queue 31 0)) 3).rsv = 0 ∧ 32 < (33#64).toNat
    ∧ 33#64 ≠ 0x8000000000000000#64 := ⟨queue_runs, by decide +kernel⟩

/-! ## Scalar memory -/

/-- A translation that gives an answer, with the state it leaves. -/
theorem xlate_eq {s : State} {va : Word} {kind : AccessKind} {x : Xlate} (h : (translate s va kind).1 = x) :
    translate s va kind = (x, (translate s va kind).2) := by rw [← h]

/-- A core with room in its journal goes to a home in its own package. -/
theorem home_near {s : State} {pa : Nat} (h : (curCore s).journal.length < 4096) (h' : farAddr pa = false) : homeOk s pa = true := by
  simp [homeOk, homePkg, h', journalOk, egressOk, h, reachable]

theorem wit_AccessesIssue : ∃ u, Runs (reg 1 0x100 base)
    ∧ fenceHolds (curCore (reg 1 0x100 base)) (getUnit (reg 1 0x100 base)) 0 = false
    ∧ walkHeld (reg 1 0x100 base) (regRead (reg 1 0x100 base) 1 + (8#12).signExtend 64) = false
    ∧ walkHeld (reg 1 0x100 base) (regRead (reg 1 0x100 base) 1) = false
    ∧ (regRead (reg 1 0x100 base) 1 + (8#12).signExtend 64).toNat % 8 = 0 ∧ homeOk u 0x108 = true
    ∧ translate (reg 1 0x100 base) (regRead (reg 1 0x100 base) 1 + (8#12).signExtend 64) .read = (.ok 0x108 placedLeaf, u) := by
  have h : Runs (reg 1 0x100 base) ∧ fenceHolds (curCore (reg 1 0x100 base)) (getUnit (reg 1 0x100 base)) 0 = false := by
    unfold Runs; decide +kernel
  exact ⟨_, h.1, h.2, rfl, rfl, rfl, home_near (by decide +kernel) rfl, xlate_eq (by decide +kernel)⟩
theorem wit_AccessesIssue_write : ∃ u, (regRead (reg 1 0x100 base) 1).toNat % 8 = 0 ∧ homeOk u 0x100 = true
    ∧ translate (reg 1 0x100 base) (regRead (reg 1 0x100 base) 1) .write = (.ok 0x100 placedLeaf, u) :=
  ⟨_, rfl, home_near (by decide +kernel) rfl, xlate_eq (by decide +kernel)⟩

/-- An address of odd parity behind which no page stands, and the next one. -/
theorem wit_AccessesTrap : ∃ u v, scalarRuns (reg 1 0x10001 base) = true
    ∧ fenceHolds (curCore (reg 1 0x10001 base)) (getUnit (reg 1 0x10001 base)) 0 = false
    ∧ walkHeld (reg 1 0x10001 base) (regRead (reg 1 0x10001 base) 1) = false
    ∧ (regRead (reg 1 0x10001 base) 1).toNat % 2 ≠ 0 ∧ (regRead (reg 1 0x10000 base) 1).toNat % 8 = 0
    ∧ translate (reg 1 0x10000 base) (regRead (reg 1 0x10000 base) 1) .read = (.fail 0x04, u)
    ∧ translate (reg 1 0x10000 base) (regRead (reg 1 0x10000 base) 1) .write = (.fail 0x04, v) := by
  have h : scalarRuns (reg 1 0x10001 base) = true
    ∧ fenceHolds (curCore (reg 1 0x10001 base)) (getUnit (reg 1 0x10001 base)) 0 = false
    ∧ walkHeld (reg 1 0x10001 base) (regRead (reg 1 0x10001 base) 1) = false
    ∧ (regRead (reg 1 0x10001 base) 1).toNat % 2 ≠ 0 ∧ (regRead (reg 1 0x10000 base) 1).toNat % 8 = 0 := by decide +kernel
  exact ⟨_, _, h.1, h.2.1, h.2.2.1, h.2.2.2.1, h.2.2.2.2, xlate_eq (by decide +kernel), xlate_eq (by decide +kernel)⟩

/-- The page is cached, and the journal is full of another partition's entries. -/
def journalled : State :=
  onCore (fun k => { k with journal := List.replicate 4096 { part := 5, pkg := some 9, first := 0, last := 0 } })
    (translate (reg 1 0x100 base) 0x100 .read).2
theorem wit_AccessesTrap_journal : scalarRuns journalled = true ∧ walkHeld journalled (regRead journalled 1) = false
    ∧ ∃ u, translate journalled (regRead journalled 1) .read = (.ok 0x100 placedLeaf, u) ∧ homeOk u 0x100 = false := by
  have h : scalarRuns journalled = true ∧ walkHeld journalled (regRead journalled 1) = false := by decide +kernel
  exact ⟨h.1, h.2, _, xlate_eq (by decide +kernel), by decide +kernel⟩

/-- An access of eight bytes at 0x100, granted or not. -/
def access (kind : AccKind) (granted : Bool) : Access :=
  { id := 0, slot := 0, uid := 1, part := 0, pc := 0, kind := kind, cls := 0, va := 0x100, pa := 0x100, n := 8, rd := 5
    leaf := placedLeaf, granted := granted, reserve := granted, vpage := 0, span := 65536, issue := 0, smode := false, ride := false
    join := none, passed := false }

/-- The base state in clock 8 with one access under way that issued in clock 0. -/
def accessing (kind : AccKind) (granted : Bool) : State :=
  onCore (fun k => { k with accs := [access kind granted] }) { base with clk := 8 }
/-- It is in its place among the accesses of its core, and no merged add waits for it. -/
theorem accessing_alone : ∀ kind ∈ ([.load true, .store 5, .atom .cas 2 5 0 0, .atom .add 1 5 0 0] : List AccKind),
    accPlace (getCore (accessing kind true) 0) (access kind true).id = 0
    ∧ ∀ b ∈ (getCore (accessing kind true) 0).accs, b.join ≠ some (access kind true).id := by decide +kernel
/-- A QNT add that waits, beside which another may issue. -/
theorem wit_AccessesIssue_merge : ((curCore (accessing (.atom .add 3 5 0 0) true)).accs.filter
      (fun b => b.uid == (getUnit (accessing (.atom .add 3 5 0 0) true)).uid && overlaps b 0x100 8)).getLast?
        = some (access (.atom .add 3 5 0 0) true)
    ∧ (access (.atom .add 3 5 0 0) true).slot = (accessing (.atom .add 3 5 0 0) true).focus.slot := by decide +kernel

theorem wit_LoadsRespond_load : nth (getCore (accessing (.load true) true) 0).accs 0 = some (access (.load true) true)
    ∧ (access (.load true) true).granted = true ∧ mayPerform (accessing (.load true) true) (dieOf 0) (getCore (accessing (.load true) true) 0).accs 0 = true
    ∧ inletChan (access (.load true) true).pa = none ∧ poisoned (accessing (.load true) true) 0x100 8 = false
    ∧ (unitAt (accessing (.load true) true) 0 0).live = true ∧ (unitAt (accessing (.load true) true) 0 0).uid = 1 := by decide +kernel
/-- The package's own memory is always reached. -/
theorem reach_near (s : State) (a : Access) (h : farAddr a.pa = false) : reachable s (homePkg a.pa) = true := by
  simp [reachable, homePkg, h]
theorem wit_LoadsRespond_home : reachable (accessing (.load true) true) (homePkg (access (.load true) true).pa) = true :=
  reach_near _ _ (by decide +kernel)
/-- An SPC compare and swap may be performed, on a page under migration or not, and passed or not. -/
theorem wit_LoadsRespond_status : mayPerform (accessing (.atom .cas 4 5 0 6) true) (dieOf 0) (getCore (accessing (.atom .cas 4 5 0 6) true) 0).accs 0 = true
    ∧ accPlace (getCore (accessing (.atom .cas 4 5 0 6) true) 0) 0 = 0
    ∧ (∀ b ∈ (getCore (accessing (.atom .cas 4 5 0 6) true) 0).accs, b.join ≠ some 0)
    ∧ migrating (accessing (.atom .cas 4 5 0 6) true) (access (.atom .cas 4 5 0 6) true) = false
    ∧ migrating (accessing (.atom .cas 4 5 0 6) true) { access (.atom .cas 4 5 0 6) true with leaf := withMig placedLeaf true } = true := by
  decide +kernel
theorem wit_LoadsRespond_atomic : nth (getCore (accessing (.atom .cas 2 5 0 0) true) 0).accs 0 = some (access (.atom .cas 2 5 0 0) true)
    ∧ mayPerform (accessing (.atom .cas 2 5 0 0) true) (dieOf 0) (getCore (accessing (.atom .cas 2 5 0 0) true) 0).accs 0 = true
    ∧ 2#3 ∈ [0#3, 2#3, 3#3] ∧ 8 ∈ [4, 8]
    ∧ migrating (accessing (.atom .cas 2 5 0 0) true) (access (.atom .cas 2 5 0 0) true) = false
    ∧ poisoned (accessing (.atom .cas 2 5 0 0) true) 0x100 8 = false
    ∧ (unitAt (accessing (.atom .cas 2 5 0 0) true) 0 0).live = true := by decide +kernel

theorem wit_StoresArePerformed : nth (getCore (accessing (.store 5) true) 0).accs 0 = some (access (.store 5) true)
    ∧ mayPerform (accessing (.store 5) true) (dieOf 0) (getCore (accessing (.store 5) true) 0).accs 0 = true ∧ inletChan (access (.store 5) true).pa = none
    ∧ migrating (accessing (.store 5) true) (access (.store 5) true) = false := by decide +kernel
theorem wit_StoresArePerformed_add :
    nth (getCore (accessing (.atom .add 1 5 0 0) true) 0).accs 0 = some (access (.atom .add 1 5 0 0) true)
    ∧ mayPerform (accessing (.atom .add 1 5 0 0) true) (dieOf 0) (getCore (accessing (.atom .add 1 5 0 0) true) 0).accs 0 = true
    ∧ migrating (accessing (.atom .add 1 5 0 0) true) (access (.atom .add 1 5 0 0) true) = false
    ∧ poisoned (accessing (.atom .add 1 5 0 0) true) 0x100 8 = false
    ∧ reachable (accessing (.atom .add 1 5 0 0) true) (homePkg (access (.atom .add 1 5 0 0) true).pa) = true := by
  have h : nth (getCore (accessing (.atom .add 1 5 0 0) true) 0).accs 0 = some (access (.atom .add 1 5 0 0) true)
    ∧ mayPerform (accessing (.atom .add 1 5 0 0) true) (dieOf 0) (getCore (accessing (.atom .add 1 5 0 0) true) 0).accs 0 = true
    ∧ migrating (accessing (.atom .add 1 5 0 0) true) (access (.atom .add 1 5 0 0) true) = false
    ∧ poisoned (accessing (.atom .add 1 5 0 0) true) 0x100 8 = false := by decide +kernel
  exact ⟨h.1, h.2.1, h.2.2.1, h.2.2.2, reach_near _ _ (by decide +kernel)⟩

theorem wit_RequestSlotsAreGranted : nth (getCore (accessing (.store 5) false) 0).accs 0 = some (access (.store 5) false)
    ∧ (access (.store 5) false).granted = false ∧ reserveUsed (getCore (accessing (.store 5) false) 0) 0 < 8 := by decide +kernel
/-- Eight accesses hold the reserve of slot 0, and a ninth waits alone for a shared slot. -/
def reserved : State := onCore (fun k => { k with
  accs := (span 1 8).map (fun i => { access (.store 5) true with id := i }) ++ [access (.store 5) false] }) base
theorem wit_RequestSlotsAreGranted_shared : nth (getCore reserved 0).accs 8 = some (access (.store 5) false)
    ∧ 8 ≤ reserveUsed (getCore reserved 0) 0 ∧ sharedUsed (getCore reserved 0) < 976
    ∧ (∀ w, w < 7 → w ≠ 1 → waitsShared (getCore reserved 0) w = false)
    ∧ ∀ b ∈ (getCore reserved 0).accs, b.granted = false → b.ride = false → b.slot = 0 → ¬b.id < (access (.store 5) false).id := by
  decide +kernel
/-- The layout reads wait too, and stand before the scalar stream after a grant to slot 3. -/
theorem wit_RequestSlotsAreGranted_before : waitsShared { getCore reserved 0 with asks := [5], grantLast := 4 } 5 = true
    ∧ reqGap 4 5 ≤ reqGap 4 1 := by decide +kernel
theorem wit_RequestSlotsAreGranted_bounded : SlotsBounded (getCore (accessing (.store 5) false) 0) ∧ SlotsBounded (getCore reserved 0)
    ∧ ((getCore reserved 0).accs.filter (fun b => b.id == (access (.store 5) false).id)).length = 1
    ∧ linesFor (getCore reserved 0) 0 2 = true ∧ linesFor (getCore reserved 0) 1 2 = true ∧ sharedFor (getCore reserved 0) 1 1 = true := by
  unfold SlotsBounded; decide +kernel
/-- All shared slots are taken too. -/
def exhausted : State := onCore (fun k => { k with
  accs := List.replicate 8 (access (.store 5) true) ++ List.replicate 976 { access (.store 5) true with reserve := false }
    ++ [access (.store 5) false] }) base
theorem wit_RequestSlotsAreGranted_none : nth (getCore exhausted 0).accs 984 = some (access (.store 5) false)
    ∧ 8 ≤ reserveUsed (getCore exhausted 0) 0 ∧ 976 ≤ sharedUsed (getCore exhausted 0) := by decide +kernel

/-- Four FENCEs that still count an access. -/
def fenced : State := onUnit (fun u => { u with fences := List.replicate 4 { after := 1, counted := [0] } }) (accessing (.store 5) true)
theorem wit_FenceCounts_fifth : scalarRuns fenced = true ∧ 4 ≤ (openFences (curCore fenced) (getUnit fenced)).length
    ∧ fenceHolds (curCore fenced) (getUnit fenced) 0 = true := by decide +kernel
theorem wit_FenceCounts : Runs (reg 1 0xFFFF base) ∧ (regRead (reg 1 0xFFFF base) 1).toNat < 65536
    ∧ (openFences (curCore (reg 1 0xFFFF base)) (getUnit (reg 1 0xFFFF base))).length < 4
    ∧ scalarRuns (reg 1 0x10000 base) = true ∧ 65536 ≤ (regRead (reg 1 0x10000 base) 1).toNat := by unfold Runs; decide +kernel

/-! ## Traps, waits and endings -/

/-- A cause that stream 3 has raised: OPERAND with EVAL 0x40. -/
def cause : Pending := { stream := 3, cause := 0x06, eval := 0x40 }

/-- The base state with that cause pending. -/
def caused (s : State) : State := onUnit (fun u => { u with pending := [cause] }) s

theorem wit_TrapsAreTakenAndLeft_eret : scalarRuns (inS base) = true ∧ (getUnit (inS base)).mode = .s ∧ (getUnit (inS base)).pending = []
    ∧ scalarRuns (caused (inS base)) = true ∧ (getUnit (caused (inS base))).pending = cause :: [] ∧ cause.cause ≠ 0x0D
    ∧ cause.cause ≠ 0x0E ∧ scalarRuns base = true ∧ (getUnit base).mode = .u
    ∧ (getUnit (caused (inS base))).compare = none ∧ (curCore (caused (inS base))).vec.flights = []
    ∧ scalarRuns (caused (inS (dividing 9))) = true ∧ causeReady (caused (inS (dividing 9))) 0 0 = false := by decide +kernel

theorem wit_TrapsAreTakenAndLeft_take : (unitAt (caused base) 0 0).live = true ∧ (unitAt (caused base) 0 0).mode = .u
    ∧ (unitAt (caused base) 0 0).ending = none ∧ (unitAt (caused base) 0 0).stepped = false ∧ preempting (caused base) 0 0 = false
    ∧ (unitAt (caused base) 0 0).pending = cause :: [] ∧ (getCore (caused base) 0).divider = none
    ∧ (∀ a ∈ (getCore (caused base) 0).accs, a.uid ≠ (unitAt (caused base) 0 0).uid) ∧ cause.cause ≠ 0x0D ∧ cause.cause ≠ 0x0E
    ∧ (unitAt (caused base) 0 0).compare = none ∧ (getCore (caused base) 0).vec.flights = []
    ∧ causeReady (caused (dividing 9)) 0 0 = false := by
  decide +kernel

/-- A unit that waits for knot 3, set or not, or for the latch. -/
def waiting (i : Instr) (s : State) : State := onUnit (fun u => { u with wait := some i }) s
theorem wit_WaitsResume : Runs (focusOn (waiting (.knotWait 3) awake) 0 0 0)
    ∧ (unitAt (waiting (.knotWait 3) awake) 0 0).wait = some (.knotWait 3)
    ∧ (getCore (waiting (.knotWait 3) awake) 0).knots.getLsbD (3#4).toNat = true
    ∧ (getCore (waiting (.knotWait 4) awake) 0).knots.getLsbD (4#4).toNat = false
    ∧ Runs (focusOn (waiting .wfe awake) 0 0 0) ∧ (unitAt (waiting .wfe awake) 0 0).wait = some .wfe
    ∧ (unitAt (waiting .wfe awake) 0 0).evl = true ∧ (unitAt (waiting .wfe awake) 0 0).diverged = false
    ∧ (unitAt (waiting .wfe awake) 0 0).compare = none
    ∧ ¬((unitAt (waiting .wfe awake) 0 0).mode = .u ∧ (unitAt (waiting .wfe awake) 0 0).pending ≠ []) := by
  unfold Runs; decide +kernel
/-- An interrupt is pending at the word a unit waits at. -/
theorem wit_WaitsResume_interrupted : Runs (focusOn (waiting .wfe (caused awake)) 0 0 0)
    ∧ (unitAt (waiting .wfe (caused awake)) 0 0).mode = .u
    ∧ (unitAt (waiting .wfe (caused awake)) 0 0).pending ≠ [] ∧ (unitAt (waiting .wfe (caused awake)) 0 0).wait ≠ none := by
  unfold Runs; decide +kernel

/-- Nothing the base state's unit started is under way; with a store under way something is. -/
theorem base_over : AllOver base 0 0 :=
  ⟨show ∀ d ∈ (getCore base 0).divider, d.uid ≠ (unitAt base 0 0).uid by decide +kernel, by decide +kernel⟩
theorem accessing_not_over : ¬AllOver (accessing (.store 5) true) 0 0 := fun h =>
  h.2.1 (access (.store 5) true) (by decide +kernel) (by decide +kernel)

/-- A task of the unit in focus at 0x1000. -/
def task : Task :=
  { part := 0, va := 0x1000, pa := 0x1000, leaf := placedLeaf, body := List.replicate 120 0, depcnt := 0, state := .run, status := 0
    retries := 0, dupdec := false, aseq := 0, readyAt := 0, headAt := none, blocking := false, vpage := 0, span := 65536
    waited := 0 }
def tasked : State := onUnit (fun u => { u with task := 1 }) { base with tasks := [(1, task)] }

/-- HALT and TSK.END with statuses of 0 and 0x13 end the unit, with and without a task; a status of 0x14 does not. -/
theorem wit_UnitsEnd : scalarRuns base = true ∧ AllOver base base.focus.core base.focus.slot ∧ (getUnit base).mode = .u
    ∧ (regRead (reg 1 0x13 base) 1).toNat ≤ 0x13 ∧ 0x13 < (regRead (reg 1 0x14 base) 1).toNat ∧ taskOf base (getUnit base).task = none
    ∧ taskOf tasked (getUnit tasked).task = some task ∧ tcbNsucc task.body = 0
    ∧ onMigrating tasked (task.pa + 120) = false ∧ ∀ e ∈ (getUnit tasked).ports, e.2.queue = [] :=
  ⟨by decide +kernel, base_over, by decide +kernel⟩
theorem wit_UnitsEnd_wait : scalarRuns (accessing (.store 5) true) = true ∧ (getUnit (accessing (.store 5) true)).mode = .u
    ∧ ¬AllOver (accessing (.store 5) true) 0 0 := ⟨by decide +kernel, by decide +kernel, accessing_not_over⟩

/-- The unit of the task is about to end as cancelled. -/
def cancelled : State := onUnit (fun u => { u with ending := some 0x13 }) tasked
theorem cancelled_over : AllOver cancelled 0 0 :=
  ⟨show ∀ d ∈ (getCore cancelled 0).divider, d.uid ≠ (unitAt cancelled 0 0).uid by decide +kernel, by decide +kernel⟩
theorem wit_EndingUnitsEnd : (unitAt cancelled 0 0).live = true ∧ (unitAt cancelled 0 0).ending = some 0x13 ∧ AllOver cancelled 0 0
    ∧ unitStreams (getCore cancelled 0) (unitAt cancelled 0 0).uid = []
    ∧ (∀ x ∈ cancelled.colls, x.cmd.uid ≠ (unitAt cancelled 0 0).uid) ∧ taskOf cancelled (unitAt cancelled 0 0).task = some task
    ∧ (∀ e ∈ (unitAt cancelled 0 0).ports, e.2.queue = []) ∧ onMigrating cancelled (task.pa + 120) = false :=
  And.intro (by decide +kernel) (And.intro (by decide +kernel) ⟨cancelled_over, by decide +kernel⟩)

/-! ## Tiles -/

/-- A tile of one f32 element in the scratchpad, the unit's own. -/
def tile : Tile :=
  { Tile.reset with valid := true, owner := 0, ownerUid := 1, target := 4, p0 := 0, p1 := 16, p2 := 0, p3 := 1 }

/-- The base state with a tile behind handle 5, which s1 names. -/
def tiled (t : Tile) : State := onCore (fun k => { k with tiles := [(5, t)] }) (reg 1 5 base)

/-- The base state with sub-array 0, one brick, and s1 asking for an accumulator tile of all its elements. -/
def pooled : State :=
  onCore (fun k => { k with subs := [(0, newSub 1 0 .loc 0 1 0 1 0)] }) (reg 1 (0x2000000000001000#64 + 0xFF01F000000#64) base)

/-- A descriptor of an f32 tile of one element at handle 4095, or at any; and one that has bit 13 set. -/
theorem wit_TilesAreAllocated : Runs (reg 1 4095 base)
    ∧ tallocBad (curCore (reg 1 4095 base)) (getUnit (reg 1 4095 base)).uid (regRead (reg 1 4095 base) 1) = false
    ∧ (4095#64).getLsbD 12 = false ∧ 4095 = (regRead (reg 1 4095 base) 1).toNat % 4096
    ∧ (tileOf (curCore (reg 1 4095 base)) 4095).valid = false
    ∧ (placeTile (curCore (reg 1 4095 base)) (tallocTile (regRead (reg 1 4095 base) 1) 0 1)).isSome = true
    ∧ tallocBad (curCore base) (getUnit base).uid 0x2000 = true := by unfold Runs; decide +kernel
theorem wit_TilesAreAllocated_any : Runs (reg 1 0x1000 base) ∧ (regRead (reg 1 0x1000 base) 1).getLsbD 12 = true
    ∧ tallocBad (curCore (reg 1 0x1000 base)) (getUnit (reg 1 0x1000 base)).uid (regRead (reg 1 0x1000 base) 1) = false
    ∧ (tileOf (curCore (reg 1 0x1000 base)) 0).valid = false ∧ (∀ j, j < 0 → (tileOf (curCore (reg 1 0x1000 base)) j).valid = true)
    ∧ (placeTile (curCore (reg 1 0x1000 base)) (tallocTile (regRead (reg 1 0x1000 base) 1) 0 1)).isSome = true := by
  unfold Runs; decide +kernel

/-- The pool taken by a first tile, a second has no place. -/
theorem wit_TilesAreAllocated_full : Runs (after (.talloc 2 1) pooled)
    ∧ tallocBad (curCore (after (.talloc 2 1) pooled)) 1 (regRead (after (.talloc 2 1) pooled) 1) = false
    ∧ (tileOf (curCore (after (.talloc 2 1) pooled)) 1).valid = false
    ∧ (∀ j, j < 1 → (tileOf (curCore (after (.talloc 2 1) pooled)) j).valid = true)
    ∧ placeTile (curCore (after (.talloc 2 1) pooled)) (tallocTile (regRead (after (.talloc 2 1) pooled) 1) 0 1) = none := by
  unfold Runs; decide +kernel
theorem mapGet_run (d v : Tile) (n a j : Nat) (h : a ≤ j) (h' : j < a + n) :
    mapGet d ((List.range' a n).map (fun i => (i, v))) j = v := by
  induction n generalizing a with
  | zero => omega
  | succ n ih =>
    rw [List.range'_succ, List.map_cons]
    by_cases e : a = j
    · subst e; simp [mapGet]
    · simpa [mapGet, e, show ¬j < a by omega] using ih (a + 1) (by omega) (by omega)
/-- Every handle is in use. -/
def crowded : State :=
  onCore (fun k => { k with tiles := (List.range' 0 4096).map (fun h => (h, tile)) }) (reg 1 0x1000 base)
theorem wit_TilesAreAllocated_none : (∀ j, j < 4096 → (tileOf (curCore crowded) j).valid = true)
    ∧ Runs crowded ∧ (regRead crowded 1).getLsbD 12 = true :=
  ⟨fun j hj => congrArg Tile.valid (mapGet_run Tile.reset tile 4096 0 j (by omega) (by omega)), by unfold Runs; decide +kernel,
    by decide +kernel⟩

/-- A tile of the unit's own, then one of another unit and one that is not VALID: TFREE, TINFO, TSETF and TWAIT. -/
theorem wit_TileWords : Runs (tiled tile) ∧ regRead (tiled tile) 1 = (5#12).setWidth 64 ∧ (tileOf (curCore (tiled tile)) 5).valid = true
    ∧ (tileOf (curCore (tiled tile)) 5).ownerUid = (getUnit (tiled tile)).uid ∧ wordsName (curCore (tiled tile)) 1 5 = false
    ∧ cmdsName (tiled tile) (getUnit (tiled tile)) 5 = false ∧ (tileOf (curCore (tiled tile)) 5).acc = false
    ∧ isFull (tileOf (curCore (tiled tile)) 5) (tiled tile).clk = false ∧ (0#64 &&& 0x3FFFFFFFFF000000#64) = 0
    ∧ 0xFFFFFF#64 &&& 0x3FFFFFFFFF000000#64 = 0 ∧ (0x8000000000FFFFFF#64).toNat / 2 ^ 62 = 2 ∧ (0xFFFFFF#64).toNat < 2 ^ 24
    ∧ isFull (tileOf (curCore (tiled { tile with full := true })) 5) (tiled tile).clk = true := by unfold Runs; decide +kernel
theorem wit_TileWords_traps : scalarRuns (tiled { tile with ownerUid := 2 }) = true
    ∧ (tileOf (curCore (tiled { tile with ownerUid := 2 })) 5).ownerUid ≠ (getUnit (tiled { tile with ownerUid := 2 })).uid
    ∧ (tileOf (curCore (tiled { tile with ownerUid := 2 })) 5).share = false ∧ (tileOf (curCore (tiled Tile.reset)) 5).valid = false
    ∧ (tileOf (curCore (tiled { tile with acc := true })) 5).acc = true
    ∧ 0x1000000#64 &&& 0x3FFFFFFFFF000000#64 ≠ 0 ∧ (0xC000000000000000#64).toNat / 2 ^ 62 = 3 := by decide +kernel

/-- A VLDT of the unit that reads the tile is in flight. -/
def flight : VFlight :=
  { id := 0, uid := 1, slot := 0, op := .ldt, typ := .f32, src := none, a := { level := 2, base := 0, shift := 0 }
    b := { level := 2, base := 0, shift := 0 }, c := { level := 2, base := 0, shift := 0 }, dst := { level := 2, base := 10, shift := 0 }
    rnd := 0, sat := false, rows := 1, lanes := 32, issue := 0, next := 0, give := 0xF, pc := 0, knot := 0xF, handle := 5, gen := 0
    trow := 0, tseg := 0, tile := tile, last := 0, checked := 0 }
def named : State := onCore (fun k => { k with vec := { k.vec with flights := [flight] } }) (tiled tile)
theorem wit_TileWords_wait : scalarRuns named = true ∧ wordsName (curCore named) 1 5 = true
    ∧ (tileOf (curCore named) 5).ownerUid = (getUnit named).uid := by decide +kernel

/-- A state whose memory holds a number of `n` bytes at an address. -/
def mem (pa n v : Nat) (s : State) : State := { s with mem := memSetNat s.mem pa n v }

/-- Record 255 from the 16 zero bytes at 0x100, and from bytes with TRANS 2; an address of 8 past it. -/
def shaping : State := reg 1 0xFF (reg 2 0x100 base)
/-- A core all of whose request slots are taken. -/
def busy (s : State) : State := onCore (fun k => { k with accs := (curCore exhausted).accs.map (fun a => { a with uid := 2 }) }) s
theorem wit_ShapesAreWritten_wait : ∃ u, scalarRuns (busy shaping) = true ∧ (regRead (busy shaping) 1).toNat < 4096
    ∧ (regRead (busy shaping) 1).toNat % 256 ≠ 0
    ∧ fenceHolds (curCore (busy shaping)) (getUnit (busy shaping)) ((regRead (busy shaping) 1).extractLsb' 8 4) = false
    ∧ walkHeld (busy shaping) (regRead (busy shaping) 2) = false ∧ (∀ y ∈ (curCore (busy shaping)).accs, y.uid ≠ (getUnit (busy shaping)).uid)
    ∧ (regRead (busy shaping) 2).toNat % 16 = 0 ∧ linesFor (curCore u) (busy shaping).focus.slot 1 = false
    ∧ homeOk u 0x100 = true ∧ translate (busy shaping) (regRead (busy shaping) 2) .read = (.ok 0x100 placedLeaf, u) := by
  have h : scalarRuns (busy shaping) = true ∧ (regRead (busy shaping) 1).toNat < 4096 ∧ (regRead (busy shaping) 1).toNat % 256 ≠ 0
    ∧ fenceHolds (curCore (busy shaping)) (getUnit (busy shaping)) ((regRead (busy shaping) 1).extractLsb' 8 4) = false := by decide +kernel
  exact ⟨_, h.1, h.2.1, h.2.2.1, h.2.2.2, by decide +kernel, by decide +kernel, rfl, by decide +kernel,
    home_near (by decide +kernel) rfl, xlate_eq (by decide +kernel)⟩
theorem wit_ShapesAreWritten : ∃ u, Runs shaping ∧ (regRead shaping 1).toNat < 4096 ∧ (regRead shaping 1).toNat % 256 ≠ 0
    ∧ fenceHolds (curCore shaping) (getUnit shaping) ((regRead shaping 1).extractLsb' 8 4) = false
    ∧ walkHeld shaping (regRead shaping 2) = false ∧ (∀ y ∈ (curCore shaping).accs, y.uid ≠ (getUnit shaping).uid)
    ∧ (regRead shaping 2).toNat % 16 = 0 ∧ poisoned shaping 0x100 16 = false
    ∧ fieldNat (recordBytes shaping 0x100 16) 12 2 < 2 ∧ fieldNat (recordBytes shaping 0x100 16) 14 2 = 0
    ∧ linesFor (curCore u) shaping.focus.slot 1 = true ∧ homeOk u 0x100 = true
    ∧ translate shaping (regRead shaping 2) .read = (.ok 0x100 placedLeaf, u) := by
  have h : Runs shaping ∧ (regRead shaping 1).toNat < 4096 ∧ (regRead shaping 1).toNat % 256 ≠ 0
    ∧ fenceHolds (curCore shaping) (getUnit shaping) ((regRead shaping 1).extractLsb' 8 4) = false
    ∧ walkHeld shaping (regRead shaping 2) = false ∧ (∀ y ∈ (curCore shaping).accs, y.uid ≠ (getUnit shaping).uid)
    ∧ (regRead shaping 2).toNat % 16 = 0 ∧ poisoned shaping 0x100 16 = false
    ∧ fieldNat (recordBytes shaping 0x100 16) 12 2 < 2 ∧ fieldNat (recordBytes shaping 0x100 16) 14 2 = 0 := by
    unfold Runs; decide +kernel
  exact ⟨_, h.1, h.2.1, h.2.2.1, h.2.2.2.1, h.2.2.2.2.1, h.2.2.2.2.2.1, h.2.2.2.2.2.2.1, h.2.2.2.2.2.2.2.1, h.2.2.2.2.2.2.2.2.1,
    h.2.2.2.2.2.2.2.2.2, by decide +kernel, home_near (by decide +kernel) rfl, xlate_eq (by decide +kernel)⟩
/-- A reserved TRANS, an address off its 16, a home to which no path leads, and a walk that a full journal does not take. -/
theorem wit_ShapesAreWritten_reserved : 2 ≤ fieldNat (recordBytes (mem 0x10C 2 2 shaping) 0x100 16) 12 2
    ∧ (regRead (reg 2 0x108 shaping) 2).toNat % 16 ≠ 0 := by decide +kernel
theorem wit_ShapesAreWritten_held : ∃ u, scalarRuns (reg 2 1 journalled) = true ∧ (regRead (reg 2 1 journalled) 2).toNat % 256 ≠ 0
    ∧ fenceHolds (curCore (reg 2 1 journalled)) (getUnit (reg 2 1 journalled)) ((regRead (reg 2 1 journalled) 2).extractLsb' 8 4) = false
    ∧ walkHeld (reg 2 1 journalled) (regRead (reg 2 1 journalled) 1) = false ∧ (regRead (reg 2 1 journalled) 1).toNat % 16 = 0
    ∧ homeOk u 0x100 = false ∧ translate (reg 2 1 journalled) (regRead (reg 2 1 journalled) 1) .read = (.ok 0x100 placedLeaf, u) := by
  have h : scalarRuns (reg 2 1 journalled) = true ∧ (regRead (reg 2 1 journalled) 2).toNat % 256 ≠ 0
    ∧ fenceHolds (curCore (reg 2 1 journalled)) (getUnit (reg 2 1 journalled)) ((regRead (reg 2 1 journalled) 2).extractLsb' 8 4) = false
    ∧ walkHeld (reg 2 1 journalled) (regRead (reg 2 1 journalled) 1) = false := by decide +kernel
  exact ⟨_, h.1, h.2.1, h.2.2.1, h.2.2.2, by decide +kernel, by decide +kernel, xlate_eq (by decide +kernel)⟩
theorem wit_ShapesAreWritten_walk : walkHeld (onCore (fun k => { k with
    journal := List.replicate 4096 { part := 5, pkg := some 9, first := 0, last := 0 } }) shaping) 0x10000 = true := by decide +kernel

/-! ## Barriers -/

/-- Barrier 7 of quad 0 for the partition of the base state, with the given arrivals, clock and unit's register. -/
def barred (arrived : List Nat) (due : Option Nat) (r : BarReg) : State :=
  onUnit (fun u => { u with bars := [(7, r)] })
    { base with bars := [(7, { quads := [0], phase := 1, arrived := arrived, due := due })]
                parts := [(0, { placedPart with barmask := 0x80 })] }
theorem wit_RouteTagBarriers : Runs (barred [1, 2, 3] none { aph := 1, arr := false })
    ∧ (7#4).toNat < 8 ∧ 0 / 4 ∈ (barOf (barred [1, 2, 3] none { aph := 1, arr := false }) 7).quads
    ∧ (partOf (barred [1, 2, 3] none { aph := 1, arr := false }) 0).barmask.getLsbD 7 = true
    ∧ (∀ a ∈ (curCore (barred [1, 2, 3] none { aph := 1, arr := false })).accs, a.uid ≠ 1)
    ∧ (∀ q ∈ (barOf (barred [1, 2, 3] none { aph := 1, arr := false }) 7).quads, ∀ j, j < 4 → [0, 1, 2, 3].contains (4 * q + j) = true)
    ∧ (barOf (barred [1, 2, 3] none { aph := 1, arr := false }) 7).arrived.contains 0 = false
    ∧ (barOf (barred [0] none { aph := 1, arr := false }) 7).arrived.contains 0 = true := by unfold Runs; decide +kernel
theorem wit_RouteTagBarriers_wait : Runs (barred [0] none { aph := 0, arr := true })
    ∧ (barReg (getUnit (barred [0] none { aph := 0, arr := true })) 7).arr = true
    ∧ (barOf (barred [0] none { aph := 0, arr := true }) 7).phase ≠ (barReg (getUnit (barred [0] none { aph := 0, arr := true })) 7).aph
    ∧ (barOf (barred [0] none { aph := 1, arr := true }) 7).phase = (barReg (getUnit (barred [0] none { aph := 1, arr := true })) 7).aph
    ∧ (barReg (getUnit base) 7).arr = false ∧ 8 ≤ (8#4).toNat ∧ (barOf base 7).quads = []
    ∧ (barOf (barred [0, 1, 2, 3] (some 0) { aph := 1, arr := true }) 7).due = some 0
    ∧ 0 ≤ (barred [0, 1, 2, 3] (some 0) { aph := 1, arr := true }).clk := by unfold Runs; decide +kernel

/-- A barrier object at 0x100 with EXPECTED 2, PENDING 0 and ARRIVED 1 in phase 0; one of zeros is malformed. -/
def object : State := mem 0x100 8 (2 * 2 ^ 48 + 1) (reg 1 0x100 (reg 2 0x7FFFFF base))
theorem wit_BarrierObjects : ∃ u, Runs object ∧ fenceHolds (curCore object) (getUnit object) 0 = false ∧ poisoned object 0x100 16 = false
    ∧ leafMig placedLeaf = false ∧ object.migs = [] ∧ (∀ y ∈ (curCore object).accs, y.uid ≠ (getUnit object).uid)
    ∧ walkHeld object (regRead object 1) = false ∧ walkHeld object (regRead object 1 &&& ~~~1#64) = false ∧ (regRead object 1).toNat % 16 = 0
    ∧ memNat object.mem 0x100 8 / 2 ^ 48 % 2 ^ 15 ≠ 0 ∧ memNat object.mem 0x100 8 / 65536 % 256 = 0
    ∧ memNat object.mem 0x100 8 % 65536 < 65535 ∧ 0 < (regRead object 2).toNat ∧ (regRead object 2).toNat < 2 ^ 23
    ∧ memNat base.mem 0x100 8 / 2 ^ 48 % 2 ^ 15 = 0 ∧ linesFor (curCore u) object.focus.slot 1 = true
    ∧ homeOk u 0x100 = true ∧ translate object (regRead object 1) .write = (.ok 0x100 placedLeaf, u) := by
  have h : Runs object ∧ fenceHolds (curCore object) (getUnit object) 0 = false ∧ poisoned object 0x100 16 = false := by
    unfold Runs; decide +kernel
  exact ⟨_, h.1, h.2.1, h.2.2, rfl, rfl, by decide +kernel, rfl, rfl, rfl, by decide +kernel, rfl, by decide +kernel, by decide +kernel, by decide +kernel,
    by decide +kernel, by decide +kernel, home_near (by decide +kernel) rfl, xlate_eq (by decide +kernel)⟩
theorem wit_BarrierObjects_wait : ∃ u, Runs (reg 1 0x101 object) ∧ (regRead (reg 1 0x101 object) 1).toNat % 16 = 1
    ∧ (getUnit (reg 1 0x101 object)).wait = none ∧ memNat (reg 1 0x101 object).mem 0x100 8 / 2 ^ 63 ≠ 1
    ∧ memNat object.mem 0x100 8 / 2 ^ 63 = 0 ∧ walkHeld (reg 1 0x101 object) (regRead (reg 1 0x101 object) 1) = false
    ∧ walkHeld (reg 1 0x101 object) (regRead (reg 1 0x101 object) 1 &&& ~~~1#64) = false ∧ homeOk u 0x100 = true
    ∧ translate (reg 1 0x101 object) (regRead (reg 1 0x101 object) 1 &&& ~~~1#64) .write = (.ok 0x100 placedLeaf, u) := by
  have h : Runs (reg 1 0x101 object) ∧ memNat object.mem 0x100 8 / 2 ^ 63 = 0 := by unfold Runs; decide +kernel
  exact ⟨_, h.1, rfl, rfl, by decide +kernel, h.2, rfl, rfl, home_near (by decide +kernel) rfl, xlate_eq (by decide +kernel)⟩

/-! ## Bonds and engine streams -/

/-- A record of KIND 0 for sub-array 0 from the last brick, at 0x100. -/
def bonding : State :=
  reg 1 0x100 { base with mem := memSetBytes base.mem 0x100 ([0, 1] ++ List.replicate 14 0 ++ leBytes 2 (32768 + 3 * 8192 + 7 * 256)
    ++ List.replicate 14 0) }
/-- What every form of the word asks of a unit whose record stands at 0x100. -/
def BondsReady (s : State) : Prop := ∃ u, (regRead s 1).toNat % 32 = 0 ∧ poisoned s 0x100 32 = false ∧ (getUnit s).bond = []
  ∧ (∀ y ∈ (curCore s).accs, y.uid ≠ (getUnit s).uid) ∧ openFences (curCore s) (getUnit s) = [] ∧ walkHeld s (regRead s 1) = false
  ∧ linesFor (curCore u) s.focus.slot 1 = true ∧ homeOk u 0x100 = true ∧ translate s (regRead s 1) .read = (.ok 0x100 placedLeaf, u)
theorem wit_BondsAreInstalled_ready : BondsReady bonding ∧ BondsReady (mem 0x100 1 4 bonding) := by
  constructor <;>
    exact ⟨_, rfl, by decide +kernel, rfl, by decide +kernel, rfl, rfl, by decide +kernel, home_near (by decide +kernel) rfl,
      xlate_eq (by decide +kernel)⟩
theorem wit_BondsAreInstalled : Runs bonding ∧ (curCore bonding).subs = [] ∧ lentTo bonding 0 = none
    ∧ (∀ e ∈ (curCore bonding).tiles, e.2.acc = false)
    ∧ recordBytes bonding 0x100 32 = [0, 1] ++ List.replicate 14 0 ++ leBytes 2 (32768 + 3 * 8192 + 0 * 2048 + 7 * 256 + 0 * 32)
        ++ List.replicate 14 0 := by unfold Runs; decide +kernel
theorem wit_BondsAreInstalled_trap : scalarRuns (mem 0x100 1 4 bonding) = true
    ∧ fieldNat (recordBytes (mem 0x100 1 4 bonding) 0x100 32) 0 1 ≥ 4 := by decide +kernel

/-- Sub-array 0 at rest is the unit's, with matrix words in flight or not. -/
def bonded (fs : List MFlight) (s : State) : State :=
  onCore (fun k => { k with subs := [(0, { newSub 1 0 .loc 0 1 0 1 0 with flights := fs })] }) s
def mflight : MFlight :=
  { id := 0, uid := 1, slot := 0, issue := 0, due := 9, mark := false, give := 0xF, pc := 0, handles := [], effect := .none
    retired := false, unacked := 0, stuck := false, late := 0 }
theorem wit_BondsAreQueried : Runs (bonded [] (reg 1 1 base)) ∧ 0 < (regRead (bonded [] (reg 1 1 base)) 1).toNat
    ∧ (regRead (bonded [] (reg 1 1 base)) 1).toNat < 256
    ∧ (∀ n, n < 8 → (regRead (bonded [] (reg 1 1 base)) 1).getLsbD n = true → holds (curCore (bonded [] (reg 1 1 base))) 1 n = true ∧
        (matOf (curCore (bonded [] (reg 1 1 base))) n).mode = .idle ∧
        (∀ b ∈ subOf (curCore (bonded [] (reg 1 1 base))) n, b.flights = [] ∧ b.replayTo ≤ base.clk))
    ∧ (curCore (bonded [] (reg 1 1 base))).upset = []
    ∧ Runs (bonded [] (reg 1 0x101 base)) ∧ 256 < (regRead (bonded [] (reg 1 0x101 base)) 1).toNat
    ∧ (regRead (bonded [] (reg 1 0x101 base)) 1).toNat < 512 ∧ (getUnit (bonded [] (reg 1 0x101 base))).group = 0
    ∧ scalarRuns (bonded [mflight] (reg 1 1 base)) = true
    ∧ ∃ b, subOf (curCore (bonded [mflight] (reg 1 1 base))) 0 = some b ∧ b.flights ≠ [] := by
  unfold Runs
  refine ⟨?_, ?_, ?_, ?_, ?_, ?_, ?_, ?_, ?_, ?_, { newSub 1 0 .loc 0 1 0 1 0 with flights := [mflight] }, ?_⟩ <;> decide +kernel
theorem wit_BondsAreQueried_query : Runs (reg 1 0x72 base) ∧ (curCore base).subs = [] ∧ lentTo base 0 = none
    ∧ subOf (curCore (reg 1 0x72 base)) 7 = none ∧ regRead (reg 1 0x72 base) 1 = BitVec.ofNat 64 (2 + 16 * 7)
    ∧ scalarRuns base = true ∧ regRead base 1 = 0 ∧ (0x200#64).toNat ≥ 512 ∧ (3#64).toNat % 4 = 3
    ∧ holds (curCore base) (getUnit base).uid 0 = false := by unfold Runs; decide +kernel

/-- The unit owns the vector sequencer too, and may have armed a group of it and sub-array 0. -/
def grouped (g : BitVec 9) (a b : Word) : State :=
  onUnit (fun u => { u with group := g }) (onCore (fun k => { k with vec := { k.vec with owner := some 1 } })
    (bonded [] (reg 1 a (reg 2 b base))))
theorem wit_StreamsStart : Runs (grouped 0 0 0x1FFF) ∧ regRead (grouped 0 0 0x1FFF) 1 = BitVec.ofNat 64 0
    ∧ holds (curCore (grouped 0 0 0x1FFF)) 1 0 = true ∧ (matOf (curCore (grouped 0 0 0x1FFF)) 0).mode = .idle
    ∧ (getUnit (grouped 0 0 0x1FFF)).group.getLsbD 0 = false ∧ (regRead (grouped 0 0 0x1FFF) 2).extractLsb' 13 3 = 0
    ∧ (∀ x ∈ subOf (curCore (grouped 0 0 0x1FFF)) 0, x.usable ≤ (grouped 0 0 0x1FFF).clk)
    ∧ regRead (grouped 0 8 0) 1 = 8 ∧ (curCore (grouped 0 8 0)).vec.owner = some (getUnit (grouped 0 8 0)).uid
    ∧ (curCore (grouped 0 8 0)).vec.strm.mode = .idle ∧ scalarRuns base = true ∧ holds (curCore base) 1 7 = false
    ∧ 8 < (regRead (grouped 0 9 0) 1).toNat := by unfold Runs; decide +kernel
/-- The sequencer is free, another unit has it, or the group's matrix stream is armed and so waits for the vector stream. -/
theorem wit_StreamsStart_vector : Runs (reg 1 8 base) ∧ (curCore (reg 1 8 base)).vec.owner ≠ some (getUnit (reg 1 8 base)).uid
    ∧ vecOwner (curCore (reg 1 8 base)) = none ∧ (strmOf (curCore (reg 1 8 base)) 1 8).mode = .idle
    ∧ (regRead (reg 1 8 base) 2).extractLsb' 13 3 = 0 ∧ (getUnit (reg 1 8 base)).group = 0
    ∧ (let s := onCore (fun k => { k with mats := [(0, { Strm.reset with mode := .armed })] }) (grouped 0x101 8 0)
      Runs s ∧ (curCore s).vec.owner = some (getUnit s).uid ∧ (strmOf (curCore s) 1 8).mode = .idle
      ∧ (getUnit s).group.getLsbD 8 = true ∧ (∀ n, n < 8 → (getUnit s).group.getLsbD n = true → (matOf (curCore s) n).mode = .armed))
    ∧ (let s := onCore (fun k => { k with vec := { k.vec with owner := some 2 } }) (reg 1 8 base)
      scalarRuns s = true ∧ vecOwner (curCore s) = some 2 ∧ 2 ≠ (getUnit s).uid) := by unfold Runs; decide +kernel
/-- A launched group, in the clock before its course ends, and after it. -/
def launchedBy (at' : Nat) : State := onCore (fun k => { k with
  mats := [(0, { Strm.reset with mode := .bound, issueAt := at' })]
  vec := { k.vec with strm := { Strm.reset with mode := .bound } } }) (grouped 0x101 0x101 0)
theorem wit_StreamsStart_launched : ∀ at' ∈ [0, 9], Runs (launchedBy at') ∧ launched (curCore (launchedBy at')) (getUnit (launchedBy at')) = true
    ∧ (getUnit (launchedBy at')).group = (regRead (launchedBy at') 1).setWidth 9
    ∧ ((launchedBy at').clk < (strmOf (curCore (launchedBy at')) 1 0).issueAt ↔ at' = 9)
    ∧ (strmOf (curCore (launchedBy at')) 1 8).issueAt ≤ (launchedBy at').clk := by unfold Runs; decide +kernel
theorem wit_StreamsStart_group : Runs (grouped 0 0x101 0) ∧ (regRead (grouped 0 0x101 0) 1).toNat < 512
    ∧ (regRead (grouped 0 0x101 0) 1).getLsbD 8 = true ∧ regRead (grouped 0 0x101 0) 1 ≠ 0x100
    ∧ launched (curCore (grouped 0 0x101 0)) (getUnit (grouped 0 0x101 0)) = false
    ∧ (strmOf (curCore (grouped 0 0x101 0)) 1 8).mode = .idle
    ∧ (∀ n, n < 8 → (regRead (grouped 0 0x101 0) 1).getLsbD n = true →
        holds (curCore (grouped 0 0x101 0)) 1 n = true ∧ (matOf (curCore (grouped 0 0x101 0)) n).mode = .idle)
    ∧ Runs (grouped 0x101 0x101 0) ∧ (getUnit (grouped 0x101 0x101 0)).group = (regRead (grouped 0x101 0x101 0) 1).setWidth 9
    ∧ scalarRuns (grouped 0 0x200 0) = true ∧ 512 ≤ (regRead (grouped 0 0x200 0) 1).toNat := by unfold Runs; decide +kernel

/-- A mask of part of a launched group, the whole of it, and no group. -/
theorem wit_StreamsStop_group : scalarRuns (onUnit (fun u => { u with regs := u.regs.set 1 1 }) (launchedBy 0)) = true
    ∧ launched (curCore (launchedBy 0)) (getUnit (launchedBy 0)) = true ∧ (getUnit (launchedBy 0)).group &&& 1 ≠ 0
    ∧ (getUnit (launchedBy 0)).group &&& 1 ≠ (getUnit (launchedBy 0)).group
    ∧ (getUnit (launchedBy 0)).group &&& (regRead (launchedBy 0) 1).setWidth 9 = (getUnit (launchedBy 0)).group
    ∧ Runs (launchedBy 0) ∧ vecOwner (curCore (launchedBy 0)) = some (getUnit (launchedBy 0)).uid
    ∧ (∀ n, n < 8 → (regRead (launchedBy 0) 1).getLsbD n = true → holds (curCore (launchedBy 0)) 1 n = true) := by
  unfold Runs; decide +kernel
theorem wit_StreamsStop : Runs (bonded [] (reg 1 1 base)) ∧ 0 < (regRead (bonded [] (reg 1 1 base)) 1).toNat
    ∧ (regRead (bonded [] (reg 1 1 base)) 1).toNat < 256 ∧ (getUnit (bonded [] (reg 1 1 base))).group = 0
    ∧ (∀ n, n < 8 → (regRead (bonded [] (reg 1 1 base)) 1).getLsbD n = true → holds (curCore (bonded [] (reg 1 1 base))) 1 n = true) := by
  unfold Runs; decide +kernel

/-! ## Ports, records and commands -/

/-- A quad with CODE, CMODE and ARG in cw0 (R42). -/
def quad (code mode arg : Nat) (cw1 cw2 : Word) : Quad :=
  { cw0 := BitVec.ofNat 64 (code * 2 ^ 56 + mode * 2 ^ 48 + arg), cw1 := cw1, cw2 := cw2, cw3 := 0 }

/-- The page of the base state as a pin. -/
def pin : Pin := { vpage := 0, span := 65536, pa := 0, attr := placedLeaf }

/-- A command of the unit in the base state. -/
def cmd (eng : Nat) (q : Quad) (ls : List Layout) (block : List Byte) : Cmd :=
  { id := 7, eng := eng, quad := q, core := 0, slot := 0, uid := 1, part := 0, seq := 0, layouts := ls, pins := [pin], block := block
    pushed := 0, posted := 0 }

/-- A state in clock 8 in which a command posted in clock 0 is the one in its port's queue. -/
def posted (c : Cmd) (s : State) : State :=
  { onUnit (fun u => { u with ports := [(c.eng, { Port.reset with queue := [c] })] }) s with clk := 8 }

/-- The same command running. -/
def running (c : Cmd) (s : State) : State := { s with cmds := [runOf c] }

/-- HOD.FILL of tile 5 by the value 0 (R291). -/
def fillQuad (mode : Nat) : Quad := quad 2 mode 0 5 0

/-- Words of a command are staged. -/
def staging (q : Quad) (written : BitVec 4) (cs : List Cmd) (s : State) : State :=
  onUnit (fun u => { u with ports := [(0, { cw0 := q.cw0, cw1 := q.cw1, cw2 := q.cw2, cw3 := q.cw3
                                            written := written, queue := cs, halted := false, haltAt := 0 })] }) s
/-- All four words of that command are staged. -/
def staged (written : BitVec 4) (q : List Cmd) : State := staging (fillQuad 0) written q (tiled tile)
theorem staged_runs : Runs (staged 15 []) := by unfold Runs; decide +kernel

theorem wit_PortsArePosted : ∃ s1, (0 : BitVec 4).toNat < 5 ∧ Runs (staged 15 []) ∧ (portOf (getUnit (staged 15 [])) 0).written = 15
    ∧ quadBad 0 (fillQuad 0) = false ∧ misaligned 0 (fillQuad 0) = none
    ∧ fenceHolds (curCore (staged 15 [])) (getUnit (staged 15 [])) (qClass (fillQuad 0)) = false
    ∧ journalOk (staged 15 []) none = true
    ∧ (portOf (getUnit (staged 15 [])) 0).queue.length < 16 ∧ flagRead (staged 15 []) (getUnit (staged 15 [])) 0 3 = false
    ∧ (qMode (fillQuad 0) ≤ 1 → (getUnit (staged 15 [])).evq.length + (getUnit (staged 15 [])).evqRsv < 64)
    ∧ gather (staged 15 []) 0 (fillQuad 0) = .ok s1 ([], [], []) ∧ pinsHeld (staged 15 []) 0 + 0 ≤ 4096 :=
  ⟨staged 15 [], by decide, staged_runs, rfl, rfl, rfl, by decide +kernel, by decide +kernel, by decide +kernel, rfl,
    by decide +kernel, rfl, by decide +kernel⟩
/-- A HOD.COPY whose layout record 4, at 0x100, lies past its table, or behind a store of the class. -/
def copying (ltlen : Nat) : State := staging (quad 1 0 0 (BitVec.ofNat 64 (4 * 2 ^ 48 + 5)) 0) 15 []
  (onCore (fun k => { k with accs := [access (.store 5) true] }) { tiled tile with parts := [(0, { placedPart with ltlen := ltlen })] })
theorem wit_PortsArePosted_gather : ∀ n ∈ [0, 8], let q := quad 1 0 0 (BitVec.ofNat 64 (4 * 2 ^ 48 + 5)) 0
    scalarRuns (copying n) = true ∧ quadBad 0 q = false ∧ misaligned 0 q = none
    ∧ fenceHolds (curCore (copying n)) (getUnit (copying n)) (qClass q) = false ∧ journalOk (copying n) none = true
    ∧ (portOf (getUnit (copying n)) 0).written = 15 ∧ flagRead (copying n) (getUnit (copying n)) 0 3 = false := by decide +kernel
theorem wit_PortsArePosted_gather_trap : gather (copying 0) 0 (quad 1 0 0 (BitVec.ofNat 64 (4 * 2 ^ 48 + 5)) 0) = .trap 6 4 := rfl
theorem wit_PortsArePosted_gather_held : gather (copying 8) 0 (quad 1 0 0 (BitVec.ofNat 64 (4 * 2 ^ 48 + 5)) 0) = .held := rfl

/-- A word missing, a full queue, a reserved bit, an engine that does not exist; and CUT of one queued command of CMODE 0. -/
theorem wit_PortsArePosted_else : scalarRuns (staged 14 []) = true ∧ (portOf (getUnit (staged 14 [])) 0).written ≠ 15
    ∧ ¬((portOf (getUnit (staged 15 (List.replicate 16 (cmd 0 (fillQuad 0) [] [])))) 0).queue.length < 16)
    ∧ quadBad 0 { fillQuad 0 with cw3 := 1 } = true ∧ 5 ≤ (5#4).toNat ∧ (regRead (staged 15 []) 2).toNat < 2 ^ 17
    ∧ (portOf (getUnit (staged 15 [cmd 0 (fillQuad 0) [] []])) 0).queue.filter
        (fun c => (regRead (staged 15 [cmd 0 (fillQuad 0) [] []]) 2).toNat % 65536 ≤ qTag c.quad) = [cmd 0 (fillQuad 0) [] []]
    ∧ qMode (fillQuad 0) = 0 ∧ (cmd 0 (fillQuad 0) [] []).core = (staged 15 []).focus.core
    ∧ (cmd 0 (fillQuad 0) [] []).slot = (staged 15 []).focus.slot ∧ (cmd 0 (fillQuad 0) [] []).uid = (getUnit (staged 15 [])).uid
    ∧ quadBad 0 { quad 1 0 1 5 0 with cw3 := 0 } = true ∧ (0x20000#64).toNat ≥ 2 ^ 17 := by decide +kernel

/-- A command that has done its work with a status, in each mode that leaves a record or a trap. -/
def finished (mode : Nat) (status : BitVec 8) : Run :=
  { runOf (cmd 0 (fillQuad mode) [] []) with worked := true, status := status }
theorem wit_CommandsEnd : ∀ mode ∈ [0, 1, 3], ∀ status ∈ ([0, 7, 0x13] : List (BitVec 8)),
    let s := { base with cmds := [finished mode status] }
    nth s.cmds 0 = some (finished mode status) ∧ (finished mode status).more = [] ∧ (finished mode status).worked = true
    ∧ (finished mode status).lines = [] ∧ cmdDeps s (finished mode status).cmd.id = false ∧ (finished mode status).waits = none
    ∧ (unitAt s 0 0).live = true ∧ (unitAt s 0 0).uid = (finished mode status).cmd.uid ∧ (finished mode status).cmd.eng < 5
    ∧ qMode (finished mode status).cmd.quad = mode ∧ qMode (finished mode status).cmd.quad ≠ 2 := by decide +kernel
theorem wit_CommandsEnd_pop : ∃ u, Runs awake ∧ (getUnit awake).evq = okRec :: [] ∧ (getUnit base).evq = []
    ∧ (regRead (reg 1 0x100 awake) 1).toNat % 32 = 0 ∧ fenceHolds (curCore (reg 1 0x100 awake)) (getUnit (reg 1 0x100 awake)) 0 = false
    ∧ walkHeld (reg 1 0x100 awake) (regRead (reg 1 0x100 awake) 1) = false ∧ homeOk u 0x100 = true
    ∧ translate (reg 1 0x100 awake) (regRead (reg 1 0x100 awake) 1) .write = (.ok 0x100 placedLeaf, u) :=
  ⟨_, awake_runs, rfl, rfl, rfl, by decide +kernel, rfl, home_near (by decide +kernel) rfl, xlate_eq (by decide +kernel)⟩

/-! ## The hod engine and TRC.MARK -/

/-- A layout of one f32 element at a byte address. -/
def layout (base : Nat) : Layout :=
  { bits := 32, image := false, base := base, ext := [1, 1], str := [1, 1], rank := 2, fmt := .f32, pad := 0 }

/-- A HOD command in the queue of the base state's unit, its tile 5 allocated. -/
def hod (q : Quad) (ls : List Layout) : State := posted (cmd 0 q ls []) (tiled { tile with full := true })

/-- The rows of the hod engine with their commands: fill tile, fill memory, copy to tile, to memory, memory to memory. -/
def hodCases : List (Quad × List Layout × CRow) :=
  [(fillQuad 0, [], .fillTile), (quad 2 0 0 0x40000000 0, [layout 0x100], .fillMemory), (quad 1 0 0 5 0, [layout 0x100], .copyToTile),
   (quad 1 0 0 0x40000005 0, [layout 0x100], .copyToMemory), (quad 1 0 0 0x80000000 0, [layout 0x100, layout 0x200], .copyMemory)]

/-- A core with room in its journal has a path to every home in its own package. -/
theorem hod_may {s : State} {k : Core} {p pa : Nat} (h : k.journal.length < 4096) (h' : farAddr pa = false) :
    egressOk k p (homePkg pa) = true ∧ reachable s (homePkg pa) = true := by
  simp [egressOk, homePkg, reachable, h, h']
theorem wit_HodCommandsStart_home (q : Quad) (ls : List Layout) :
    egressOk (getCore (hod q ls) 0) 0 (homePkg 0x100) = true ∧ reachable (hod q ls) (homePkg 0x100) = true :=
  hod_may (show [].length < 4096 by decide) rfl
theorem wit_HodCommandsStart : ∀ x ∈ hodCases,
    let s := hod x.1 x.2.1
    let c := cmd 0 x.1 x.2.1 []
    let p : Poster := { core := 0, slot := 0 }
    p.slot < 4 ∧ queueAt s p c.eng = c :: [] ∧ cmdRow c = x.2.2 ∧ (cmdInstr c).isSome = true
    ∧ (portOf (posterUnit s p) c.eng).halted = false ∧ stalled s c.uid c.eng = false ∧ pushDone s c = true
    ∧ hodMay s c = true ∧ hodReject (getCore s 0) c x.2.2 = none ∧ hodWaits s (runOf c) x.2.2 = false ∧ x.2.2 ≠ .imload
    ∧ (x.2.2 = .fillTile ∨ ∃ l ∈ [(4, false), (4, true)], (needLines (hodDecodes (getCore s 0) c x.2.2) c x.2.2 0).head? = some l
        ∧ ((pinPa c.pins (64 * l.1)).map (·.1)).getD 0 = 0x100)
    ∧ (getCore s 0).hodReq ≤ s.clk ∧ sharedFor (getCore s 0) 6 1 = true
    ∧ (tileOf (getCore s 0) (hodHandle c.quad).toNat).pl = 0 := by decide +kernel
/-- A handle without a tile; all shared request slots taken; the source tile not full. -/
theorem wit_HodCommandsStart_else :
    hodReject (getCore (hod (quad 2 0 0 6 0) []) 0) (cmd 0 (quad 2 0 0 6 0) [] []) .fillTile = some 0x07
    ∧ hodMay (hod (quad 2 0 0 6 0) []) (cmd 0 (quad 2 0 0 6 0) [] []) = true
    ∧ (let q := quad 1 0 0 5 0
      let c := cmd 0 q [layout 0x100] []
      let s := busy (hod q [layout 0x100])
      queueAt s { core := 0, slot := 0 } 0 = c :: [] ∧ stalled s c.uid 0 = false ∧ hodMay s c = true
      ∧ hodWaits s (runOf c) .copyToTile = false ∧ sharedFor (getCore s 0) 6 1 = false)
    ∧ (let q := quad 1 0 0 0x40000005 0
      let c := cmd 0 q [layout 0x100] []
      let s := posted c (tiled tile)
      hodMay s c = true ∧ hodReject (getCore s 0) c .copyToMemory = none ∧ hodWaits s (runOf c) .copyToMemory = true) := by decide +kernel

/-- Tile 5 is of digit planes, of a format that has them or not. -/
def planed (f : BitVec 4) : Tile := { tile with fmt := f, pl := 4, full := true }
theorem wit_HodCommandsStart_planes : ∀ f ∈ [0#4, 7#4, 8#4],
    let s := posted (cmd 0 (fillQuad 0) [] []) (tiled (planed f))
    let T := tileOf (getCore s 0) (hodHandle (fillQuad 0)).toNat
    T.pl ≠ 0 ∧ hodMay s (cmd 0 (fillQuad 0) [] []) = true ∧ hodReject (getCore s 0) (cmd 0 (fillQuad 0) [] []) .fillTile = none
    ∧ hodWaits s (runOf (cmd 0 (fillQuad 0) [] [])) .fillTile = false
    ∧ ((recode (tileFmt T) (tileFmt T) (qArg (fillQuad 0))).isSome = true ↔ f ≠ 8) := by decide +kernel

/-- The one element of a layout at 0x100 is written by one byte range, and another at 0x200 lies apart from it. -/
theorem layout_elem (base r j : Nat) (bit : Int)
    (h : (index2 (layout base) ((0 : Int) + (j : Nat)) ((0 : Int) + (r : Nat))).bind (elemAt (layout base)) = some bit) :
    r = 0 ∧ j = 0 ∧ bit = 8 * base := by
  simp [index2, elemAt, layout, inBounds, layoutOff] at h
  omega

theorem pin_pa (x a : Nat) (m : Word) (h : pinPa [pin] x = some (a, m)) : x = a := by
  by_cases hx : x < 65536 <;> simp [pinPa, pin, hx] at h
  exact h.1
theorem pin_in (x : Nat) (h : x < 65536) : pinPa [pin] x = some (x, placedLeaf) := by simp [pinPa, pin, h]

/-- A started command of each row, the lines of its element at hand. -/
def moving (q : Quad) (ls : List Layout) (row : CRow) (t : Tile) (more : Run → Run) : State :=
  onCore (fun k => { k with hodCur := some 7, hodLines := 1 })
    { tiled t with cmds := [more { runOf (cmd 0 q ls []) with opened := needLines false (cmd 0 q ls []) row 0, slots := 1 }] }
theorem wit_HodElementsMove : ∀ x ∈ hodCases, x.2.2 ≠ .fillTile →
    let s := moving x.1 x.2.1 x.2.2 { tile with full := true } id
    let c := cmd 0 x.1 x.2.1 []
    let r := { runOf c with opened := needLines false c x.2.2 0, slots := 1 }
    nth s.cmds 0 = some r ∧ r.more = [] ∧ r.worked = false ∧ c.eng = 0 ∧ cmdRow c = x.2.2 ∧ s.poison = [] ∧ (getCore s 0).spoil = []
    ∧ c.layouts ≠ [] ∧ r.pos < winRows x.1 * winCols x.1 ∧ (rowSrc x.2.2 = true ∨ rowDst x.2.2 = true)
    ∧ hodReject (getCore s 0) c x.2.2 = none ∧ hodWaits s r x.2.2 = false
    ∧ hodTurn s r = true ∧ (hodServed s 0).isSome = true
    ∧ (needLines (hodDecodes (getCore s 0) c x.2.2) c x.2.2 0).filter (fun j => !r.opened.contains j) = []
    ∧ (tileOf (getCore s 0) (hodHandle x.1).toNat).pl = 0 ∧ r.status = 0
    ∧ r.got.length = r.pos % winCols x.1 % (32 / fmtBits (tileFmt (tileOf (getCore s 0) (hodHandle x.1).toNat)))
    ∧ r.out = [] ∧ r.lines = [] ∧ s.migs = [] := by decide +kernel
/-- A line is not yet requested, with a slot for it and without, and in a clock in which the engine has requested one; the engine goes
back to a command, and one of another slot is not its turn. -/
theorem wit_HodElementsMove_wait : let q := quad 1 0 0 5 0
    let s := moving q [layout 0x100] .copyToTile tile (fun r => { r with opened := [], slots := 0 })
    let r := runOf (cmd 0 q [layout 0x100] [])
    nth s.cmds 0 = some r ∧ hodTurn s r = true ∧ (hodServed s 0).isSome = true
    ∧ ((needLines (hodDecodes (getCore s 0) r.cmd .copyToTile) r.cmd .copyToTile 0).filter (fun j => !r.opened.contains j)).head?
        = some (4, false)
    ∧ (getCore s 0).hodReq ≤ s.clk ∧ sharedFor (getCore s 0) 6 1 = true ∧ sharedFor (getCore (busy s) 0) 6 1 = false
    ∧ ¬((getCore (onCore (fun k => { k with hodReq := 1 }) s) 0).hodReq ≤ s.clk)
    ∧ (let t := onCore (fun k => { k with hodCur := none }) s
      hodTurn t r = true ∧ hodServed t 0 = none)
    ∧ hodTurn s { r with cmd := { r.cmd with id := 8 } } = false := by decide +kernel
theorem wit_HodElementsMove_home (q : Quad) (ls : List Layout) (row : CRow) (t : Tile) (f : Run → Run) :
    egressOk (getCore (moving q ls row t f) 0) 0 (homePkg 0x100) = true ∧ reachable (moving q ls row t f) (homePkg 0x100) = true :=
  hod_may (show [].length < 4096 by decide) rfl
/-- A weight read as PAD, and one on a page that decodes nothing, into a tile of digit planes; the first of two. -/
theorem wit_HodElementsMove_planes :
    let q := quad 1 0 0 5 0
    let far : Layout := { layout 0x100 with bits := 8, fmt := .i8, ext := [0, 0] }
    let near : Layout := { layout 0x100 with bits := 8, fmt := .i8 }
    let T := planed 7
    (∃ p h, readWeight (moving q [far] .copyToTile T id) [pin] far (tileFmt T) T.pl.toNat (winO0 q) (winO1 q) id 0 0 = .cell p h true)
    ∧ readWeight (moving q [near] .copyToTile T id) [pin] near (tileFmt T) T.pl.toNat (winO0 q) (winO1 q) id 0 0 = .stop 0x06
    ∧ hodReject (getCore (moving q [far] .copyToTile T id) 0) (cmd 0 q [far] []) .copyToTile = none
    ∧ hodWaits (moving q [far] .copyToTile T id) (runOf (cmd 0 q [far] [])) .copyToTile = false
    ∧ winRows q * winCols q = 1
    ∧ 0 + 1 < winRows { q with cw2 := 0x10000000000#64 } * winCols { q with cw2 := 0x10000000000#64 } :=
  ⟨⟨0, 0, rfl⟩, rfl, by decide +kernel, by decide +kernel, by decide +kernel, by decide +kernel⟩
/-- An element that the layout has not. -/
theorem wit_HodElementsMove_pad : (index2 { layout 0x100 with ext := [0, 0] } 0 0).bind (elemAt { layout 0x100 with ext := [0, 0] }) = none
    := by decide +kernel

/-- The destination of a HOD.FILL or HOD.COPY at 0x200 is writable, and lies apart from a source at 0x100. -/
theorem wit_HodElementsMove_writable :
    let q := quad 1 0 0 0x80000000 0
    let elem (l : Layout) (r j : Nat) : Option Int := (index2 l (winO0 q + (j : Nat)) (winO1 q + (r : Nat))).bind (elemAt l)
    let l := layout 0x100
    let l' := layout 0x200
    (l'.bits = fmtBits l'.fmt ∧ l'.image = false
      ∧ (∀ r j bit, r < winRows q → j < winCols q → elem l' r j = some bit → 0 ≤ bit
          ∧ (∀ n, n < fmtBits l'.fmt → ∃ pa leaf, pinPa [pin] ((bit.toNat + n) / 8) = some (pa, leaf) ∧ inletChan pa = none)
          ∧ ∀ r' j' bit', r' < winRows q → j' < winCols q → elem l' r' j' = some bit' → (r, j) ≠ (r', j') →
              bit + fmtBits l'.fmt ≤ bit' ∨ bit' + fmtBits l'.fmt ≤ bit)
      ∧ ∀ x y a m n, pinPa [pin] x = some (a, m) → pinPa [pin] y = some (a, n) → x = y)
    ∧ ∀ r j bit n r' j' bit' n', elem l r j = some bit → elem l' r' j' = some bit' → r' < winRows q → j' < winCols q →
        n < fmtBits l.fmt → n' < fmtBits l'.fmt → ∀ pa leaf leaf',
        pinPa [pin] ((bit.toNat + n) / 8) = some (pa, leaf) → pinPa [pin] ((bit'.toNat + n') / 8) ≠ some (pa, leaf') := by
  have hr : winRows (quad 1 0 0 0x80000000 0) = 1 := by decide
  have hc : winCols (quad 1 0 0 0x80000000 0) = 1 := by decide
  have h0 : winO0 (quad 1 0 0 0x80000000 0) = 0 := by decide
  have h1 : winO1 (quad 1 0 0 0x80000000 0) = 0 := by decide
  intro q elem l l'
  simp only [q, elem, hr, hc, h0, h1, l, l', show fmtBits (layout 0x100).fmt = 32 from rfl, show fmtBits (layout 0x200).fmt = 32 from rfl]
  refine ⟨⟨rfl, rfl, ?_, ?_⟩, ?_⟩
  · intro r j bit _ _ hb
    obtain ⟨rfl, rfl, rfl⟩ := layout_elem _ r j bit hb
    refine ⟨by omega, fun n hn => ⟨_, _, pin_in _ (by omega), ?_⟩, fun r' j' bit' hr' hj' _ hne => absurd ?_ hne⟩
    · simp only [inletChan, ite_eq_right_iff, Bool.and_eq_true, decide_eq_true_eq]; omega
    · rw [show r' = 0 by omega, show j' = 0 by omega]
  · intro x y a m n hx hy; rw [pin_pa _ _ _ hx, pin_pa _ _ _ hy]
  · intro r j bit n r' j' bit' n' hb hb' _ _ hn hn' pa leaf leaf' hp hp'
    obtain ⟨rfl, rfl, rfl⟩ := layout_elem _ r j bit hb
    obtain ⟨rfl, rfl, rfl⟩ := layout_elem _ r' j' bit' hb'
    have := pin_pa _ _ _ hp
    have := pin_pa _ _ _ hp'
    omega

/-- HOD.IMLOAD of one vector word, to the last place there is and past it; the word's line at hand, good or not; and TRC.MARK. -/
theorem wit_HodCommandsStart_imload : ∀ n ∈ [1, 2],
    let q := quad 3 0 0 (BitVec.ofNat 64 (8191 * 2 ^ 51 + (n - 1) * 2 ^ 38)) 0x100
    let c := cmd 0 q [] []
    queueAt (hod q []) { core := 0, slot := 0 } 0 = c :: [] ∧ cmdRow c = .imload ∧ hodMay (hod q []) c = true
    ∧ pushDone (hod q []) c = true ∧ wbits q.cw0 0 1 = 0 ∧ wbits q.cw1 51 13 = 8191 ∧ wbits q.cw1 38 13 + 1 = n
    ∧ lineKeys false q.cw2.toNat 12 ≠ [] ∧ sharedFor (getCore (hod q []) 0) 6 1 = true := by decide +kernel
theorem wit_HodElementsMove_imload : ∀ bad ∈ [true, false],
    let q := quad 3 0 0 (BitVec.ofNat 64 (8191 * 2 ^ 51)) 0x100
    let c := cmd 0 q [] []
    let s := { moving q [] .imload tile (fun r => { r with opened := lineKeys false 0x100 12 }) with poison := if bad then [4] else [] }
    let r := { runOf c with opened := lineKeys false 0x100 12, slots := 1 }
    nth s.cmds 0 = some r ∧ cmdRow c = .imload ∧ (getCore s 0).spoil = [] ∧ wbits q.cw1 51 13 + (wbits q.cw1 38 13 + 1) ≤ 8192
    ∧ hodTurn s r = true ∧ (hodServed s 0).isSome = true
    ∧ (lineKeys false (q.cw2.toNat + r.pos * 12) 12).filter (fun j => !r.opened.contains j) = []
    ∧ (pinBytes s c.pins (q.cw2.toNat + r.pos * 12) 12).2 = bad := by decide +kernel
theorem wit_HodCommandsStart_mark : let c := cmd 4 (quad 1 0 0xAB 5 0) [] []
    queueAt (posted c base) { core := 0, slot := 0 } 4 = c :: [] ∧ cmdRow c = .mark ∧ (cmdInstr c).isSome = true
    ∧ pushDone (posted c base) c = true ∧ stalled (posted c base) c.uid 4 = false := by decide +kernel
/-- A marked record comes to the trace writer at the end of its clock, its command under way. -/
theorem wit_HodCommandsStart_flush : let c := cmd 4 (quad 1 0 0xAB 5 0) [] []
    let x : TraceIn := { part := 0, eng := 4, core := 0, bytes := [], cmd := some 7 }
    ∃ u n, ({ base with traceq := [x], cmds := [runOf c] }).traceq = [x]
      ∧ runById (placeTrace { base with traceq := [], cmds := [runOf c] } 0 []).1 c.id = some (runOf c)
      ∧ placeTrace { base with traceq := [], cmds := [runOf c] } 0 [] = (u, n) := ⟨_, _, rfl, rfl, rfl⟩

/-! ## A partition whose memory the hub engines reach too -/

/-- A partition that owns channel 15, node 0 of each level, itinerary slot 0, two armed tasks and a context area. -/
def part : Part :=
  { placedPart with
    root := 0x10000, gatmask := 0x8000, barmask := 0x80, armmax := 2, schedw := 1, lncnt := 1, grcnt := 1, phcnt := 1, jbcnt := 16
    itcnt := 1, fabhi := 4095, ctxva := 0x40000, ctxlen := 0x10000, trva := 0x38000, trlen := 0x1000, ltbase := 0x8000, ltlen := 1 }

/-- The base state with that partition, whose tables at 0x10000 to 0x30000 map its 512 MiB at 0. -/
def paged : State :=
  mem 0x10000 8 (2 ^ 36 + 2) (mem 0x20000 8 (2 ^ 36 + 3) (mem 0x30000 8 placedLeaf.toNat { base with parts := [(0, part)] }))

/-- That page as the hub engines pin it. -/
def bigPin : Pin := { vpage := 0, span := 0x20000000, pa := 0, attr := placedLeaf }

theorem paged_runs : Runs paged := by unfold Runs; decide +kernel

/-! ## The request gatherer -/

/-- A channel of one batch of up to four requests, whose deadline is 5 ns. -/
def chan : Chan :=
  { opened := true, halted := none, part := 0, buf := 0x1000, breca := 0x2000, tpl := 0x3000, tcba := 0x4000, deadline := 5, bm1 := 3
    nbuf := 1, pins := [bigPin], inlet := [], bseq := 0, batch := none, owes := none, drops := 0, closing := none }

/-- Channel 15 is that channel. -/
def gathering (ch : Chan) (tns : Nat) : State := { paged with chans := [(15, ch)], tb := { paged.tb with tns := tns } }

theorem wit_RequestsAreGathered_arrival : mapFind (gathering chan 0).parts 0 = some part ∧ part.gatmask.getLsbD 15 = true
    ∧ part.gatmask.getLsbD 14 = false ∧ mapFind (gathering chan 0).parts 1 = none ∧ (chanOf (gathering chan 0) 15).batch = none
    ∧ (chanOf (gathering chan 0) 15).opened = true ∧ (chanOf (gathering chan 0) 15).halted = none
    ∧ (chanOf (gathering chan 0) 15).closing = none
    ∧ (chanOf (gathering { chan with inlet := List.replicate 63 (0, 0) } 0) 15).inlet.length < 64
    ∧ 64 ≤ (chanOf (gathering { chan with inlet := List.replicate 64 (0, 0) } 0) 15).inlet.length
    ∧ (chanOf (gathering { chan with opened := false } 0) 15).opened = false := by decide +kernel

/-- A batch of two requests takes a third; its place in the buffer is pinned. -/
theorem wit_RequestsAreGathered_join : let ch := { chan with batch := some (2, 0) }
    (chanOf (gathering ch 0) 15).owes = none ∧ (chanOf (gathering ch 0) 15).inlet = [] ∧ (chanOf (gathering ch 0) 15).batch = some (2, 0)
    ∧ 2 < ch.bm1 ∧ ∀ i, i < 64 → pinPa ch.pins (ch.buf + 64 * ((ch.bm1 + 1) * 0 + 2) + i) = some (0x1080 + i, placedLeaf) := by decide +kernel

/-- One request at the head, the TCB of its place free or not. -/
theorem wit_RequestsAreGathered_open : let ch := { chan with inlet := [(5, 0)] }
    (chanOf (gathering ch 0) 15).batch = none ∧ (chanOf (gathering ch 0) 15).inlet = [(5, 0)] ∧ 0 < ch.bm1
    ∧ (pinByte (gathering ch 0) ch.pins (ch.tcba + 128 * 0 + 120)).1.toNat ∈ [0, 4, 6, 7]
    ∧ (pinByte (mem 0x4078 1 1 (gathering ch 0)) ch.pins (ch.tcba + 128 * 0 + 120)).1.toNat ∉ [0, 4, 6, 7]
    ∧ ∀ i, i < 64 → pinPa ch.pins (ch.buf + 64 * ((ch.bm1 + 1) * 0 + 0) + i) = some (0x1000 + i, placedLeaf) := by decide +kernel

/-- A batch one nanosecond before its deadline and at it; its template is of zeros. -/
theorem wit_RequestsAreGathered_deadline : let ch := { chan with batch := some (2, 0) }
    let s := gathering ch 5
    let x : List Byte := List.replicate 128 0
    let y := x.take 8 ++ leBytes 8 0x2000 ++ x.drop 16
    (gathering ch 4).tb.tns < 0 + ch.deadline ∧ 0 + ch.deadline ≤ s.tb.tns ∧ armRoom s ch.part = true
    ∧ (∀ i, i < 64 → pinPa ch.pins (0x2000 + i) = some (0x2000 + i, placedLeaf))
    ∧ (∀ i, i < 128 → pinPa ch.pins (0x4000 + i) = some (0x4000 + i, placedLeaf)) ∧ 0x2000 + 64 ≤ 0x4000
    ∧ (∀ i, i < 128 → pinPa ch.pins (ch.tpl + i) = some (0x3000 + i, placedLeaf) ∧ 0x2000 + 64 ≤ 0x3000 + i)
    ∧ pinBytes s ch.pins ch.tpl 128 = (x, false) ∧ armFault s ch y 0x4000 = none ∧ neverSupplied (tcbBond y) = false
    ∧ (∀ d ∈ tcbNodes y, (nodeOf s d).cxl = false) ∧ s.migs = [] ∧ s.heldw = [] ∧ s.slow = false ∧ ch.owes = none ∧ ch.deadline ≠ 0
    ∧ armRoom { s with tasks := [(1, task), (2, task)] } ch.part = false := by decide +kernel
/-- GAT.CLOSE with FLUSH under way, the inlet empty or not, with an open batch or without one. -/
theorem wit_RequestsAreGathered_flush : ∀ inlet ∈ [[], [((5 : BitVec 512), 0)]], ∀ batch ∈ [none, some (2, 0)],
    let ch := { chan with inlet := inlet, batch := batch, closing := some 1 }
    let r := runOf (cmd 3 (quad 2 0 31 0 0) [] [])
    let s := { gathering ch 5 with cmds := [r] }
    nth s.cmds 0 = some r ∧ r.more = [] ∧ r.worked = false ∧ r.cmd.eng = 3 ∧ r.cmd.quad.cw0.toNat % 16 = 15 ∧ (chanOf s 15).owes = none
    ∧ (chanOf s 15).halted = none ∧ (chanOf s 15).inlet = inlet ∧ (chanOf s 15).batch = batch := by decide +kernel
/-- A closed batch whose arming is still owed, with room for it and without. -/
theorem wit_RequestsAreGathered_owes : let ch := { chan with batch := some (2, 0), owes := some (List.replicate 128 0) }
    let s := gathering ch 5
    (chanOf s 15).owes = some (List.replicate 128 0) ∧ (chanOf s 15).halted = none ∧ pinPa ch.pins (ch.tcba + 128 * 0) = some (0x4000, placedLeaf)
    ∧ armRoom { s with tasks := [(1, task), (2, task)] } ch.part = false ∧ armRoom s ch.part = true ∧ heldIn s ch.pins = false
    ∧ onMigrating s (0x4000 + 120) = false ∧ neverSupplied (tcbBond (List.replicate 128 0)) = false
    ∧ (∀ d ∈ tcbNodes (List.replicate 128 0), (nodeOf s d).cxl = false) := by decide +kernel

/-- The record that describes that channel, at 0x5000. -/
def chanRecord : List Byte :=
  leBytes 8 0x1000 ++ leBytes 8 0x2000 ++ leBytes 8 0x3000 ++ leBytes 8 0x4000 ++ leBytes 4 5 ++ leBytes 2 3 ++ [1] ++ List.replicate 25 0

/-- A gatherer command on a channel of the given state, in the queue of the base state's unit. -/
def gat (q : Quad) (ch : Chan) : State :=
  let s := posted (cmd 3 q [] []) (gathering ch 0)
  { s with mem := memSetBytes s.mem 0x5000 chanRecord }
theorem wit_RequestsAreGathered_commands :
    ∀ x ∈ ([(quad 1 0 15 0x5000 0, .gatOpen), (quad 2 0 15 0 0, .gatClose), (quad 2 0 31 0 0, .gatFlush)] : List (Quad × CRow)),
    let s := gat x.1 chan
    let c := cmd 3 x.1 [] []
    queueAt s { core := 0, slot := 0 } 3 = c :: [] ∧ cmdRow c = x.2 ∧ (cmdInstr c).isSome = true
    ∧ (portOf (posterUnit s { core := 0, slot := 0 }) 3).halted = false ∧ stalled s c.uid 3 = false ∧ pushDone s c = true ∧ gatMay s c = true
    ∧ c.quad.cw0.toNat % 16 = 15 ∧ (partOf s c.part).gatmask.getLsbD 15 = true ∧ (partOf s c.part).gatmask.getLsbD 14 = false
    ∧ (chanOf s 15).opened = true ∧ (chanOf s 15).inlet = [] ∧ (chanOf s 15).batch = none := by decide +kernel
theorem wit_RequestsAreGathered_flushes : let q := quad 2 0 31 0 0
    let s := gat q { chan with inlet := [(5, 0)] }
    let c := cmd 3 q [] []
    queueAt s { core := 0, slot := 0 } 3 = c :: [] ∧ gatMay s c = true ∧ pushDone s c = true ∧ (chanOf s 15).inlet ≠ []
    ∧ (chanOf s 15).halted = none ∧ (chanOf s 15).opened = true := by decide +kernel
theorem wit_RequestsAreGathered_record : let s := gat (quad 1 0 15 0x5000 0) { chan with opened := false }
    pinBytes s [pin] 0x5000 64 = (chanRecord, false) ∧ chanBad chanRecord = false ∧ chanPins s 0 chanRecord = .inl [bigPin]
    ∧ pinBytes s [bigPin] (fieldNat chanRecord 16 8) 128 = (List.replicate 128 0, false)
    ∧ tcbBad (partOf s 0) (List.replicate 128 0) = false ∧ tcbPrio (List.replicate 128 0) ≠ 7
    ∧ tcbForeign (partOf s 0) (List.replicate 128 0) = false ∧ (chanOf s 15).opened = false := by decide +kernel

/-! ## Tasks -/

/-- s1 names a TCB of zeros at 0x6000. -/
def arming : State := reg 1 0x6000 paged
theorem wit_TaskWords_arm : let x := recordBytes arming 0x6000 128
    Runs arming ∧ (regRead arming 1).toNat % 128 = 0 ∧ walkHeld arming (regRead arming 1) = false
    ∧ migratingAt arming placedLeaf 0x6000 = false ∧ onMigrating arming (0x6000 + 120) = false
    ∧ poisoned arming 0x6000 128 = false ∧ tcbBad (partOf arming 0) x = false
    ∧ armedAt arming 0x6000 = none ∧ tcbPrio x ≠ 7 ∧ tcbForeign (partOf arming 0) x = false ∧ armRoom arming 0 = true
    ∧ (∀ d ∈ tcbNodes x, (nodeOf arming d).cxl = false) ∧ neverSupplied (tcbBond x) = false := by unfold Runs; decide +kernel
/-- Its address, on a core with request slots free and on one without. -/
def ArmReady (s : State) (room : Bool) : Prop := ∃ s1,
    fenceHolds (curCore s1) (getUnit s) 0 = false ∧ readBlocked (curCore s1) (getUnit s) 0 0x6000 128 = false
    ∧ linesFor (curCore s1) s.focus.slot 2 = room ∧ homeOk s1 0x6000 = true
    ∧ translate s (regRead s 1) .write = (.ok 0x6000 placedLeaf, s1)
theorem wit_TaskWords_place : ArmReady arming true ∧ ArmReady (busy arming) false := by
  constructor <;> exact ⟨_, by decide +kernel, by decide +kernel, by decide +kernel, home_near (by decide +kernel) rfl,
    xlate_eq (by decide +kernel)⟩
theorem wit_TaskWords_arm_traps : (regRead (reg 1 0x6001 paged) 1).toNat % 128 ≠ 0
    ∧ tcbBad part (recordBytes (mem 0x602A 1 1 arming) 0x6000 128) = true
    ∧ tcbPrio (recordBytes (mem 0x6026 1 7 arming) 0x6000 128) = 7 ∧ tcbBad part (recordBytes (mem 0x6026 1 7 arming) 0x6000 128) = false
    ∧ (getUnit arming).mode = .u ∧ tcbForeign part (recordBytes (mem 0x602C 1 1 arming) 0x6000 128) = true
    ∧ scalarRuns (busy arming) = true ∧ armRoom { arming with tasks := [(1, task), (2, task)] } 0 = false := by decide +kernel

/-- The TCB is armed in a state, and a unit in slot 1 runs its task. -/
def armed (st : TState) : State :=
  setUnitAt { arming with tasks := [(1, { task with va := 0x6000, pa := 0x6000, state := st })] } 0 1 { placedUnit with uid := 2, task := 1 }
theorem wit_TaskWords_signal : ∃ s1, let s := reg 1 0x6001 (armed .run)
    let x : Task := { task with va := 0x6000, pa := 0x6000, state := .run }
    Runs s ∧ (regRead s 1).toNat % 128 = 1 ∧ 1 < (regRead (reg 1 0x6002 s) 1).toNat % 128 ∧ walkHeld s (regRead s 1 - 1) = false
    ∧ armedAt s 0x6000 = some (1, x) ∧ x.state = .run ∧ (∀ y ∈ s.aways, y.task ≠ 1) ∧ 1 ≠ s.focus.slot
    ∧ fenceHolds (curCore s1) (getUnit s) 0 = false ∧ unitOfTask s1 1 = some (0, 1)
    ∧ translate s (regRead s 1 - 1) .write = (.ok 0x6000 placedLeaf, s1) := by
  have h : Runs (reg 1 0x6001 (armed .run)) := by unfold Runs; decide +kernel
  exact ⟨_, h, by decide +kernel, by decide +kernel, rfl, rfl, rfl, by decide, by decide, by decide +kernel, by decide +kernel,
    xlate_eq (by decide +kernel)⟩
theorem wit_TaskWords_retry : ∃ s1, let s := armed .held
    Runs s ∧ walkHeld s (regRead s 1) = false ∧ onMigrating s (0x6000 + 120) = false ∧ armedAt arming 0x6000 = none
    ∧ armedAt s 0x6000 = some (1, { task with va := 0x6000, pa := 0x6000, state := .held })
    ∧ translate s (regRead s 1) .write = (.ok 0x6000 placedLeaf, s1) := by
  have h : Runs (armed .held) := by unfold Runs; decide +kernel
  exact ⟨_, h, rfl, rfl, rfl, rfl, xlate_eq (by decide +kernel)⟩

/-- Node 15 of level 4, without tasks and live or not; node 0 of level 1, above the task of the zero TCB; a node of another. -/
theorem wit_TaskWords_nodes : let s := reg 1 0xF04 paged
    Runs s ∧ (regRead s 1).toNat = 4 + 256 * 15 ∧ 15 < levelCount 4 ∧ ownsNode (partOf s 0) (4, 15) = true ∧ tasksUnder s (4, 15) = []
    ∧ (nodeOf s (4, 15)).live = 0 ∧ (nodeOf { s with nodes := [(4 * 65536 + 15, { done := 0, fail := 0, live := 1, cxl := false })] } (4, 15)).live ≠ 0
    ∧ ownsNode (partOf s 0) (1, 1) = false ∧ (3#64).toNat < 4 ∧ 3 < (4#64).toNat := by unfold Runs; decide +kernel
theorem wit_TaskWords_cancel : let s := reg 1 1 { paged with tasks := [(1, task)] }
    Runs s ∧ (regRead s 1).toNat = 1 + 256 * 0 ∧ ownsNode (partOf s 0) (1, 0) = true ∧ tasksUnder s (1, 0) = [1]
    ∧ taskOf s 1 = some task ∧ (∀ w ∈ s.aways, w.task ≠ 1) ∧ unitOfTask s 1 = none ∧ onMigrating s (task.pa + 120) = false
    ∧ onMigrating { s with migs := [{ part := 0, va := 0, span := 65536, old := 0, new := 65536 }] } (task.pa + 120) = true := by
  unfold Runs; decide +kernel

/-- A decrement on its way to the armed TCB. -/
def decr : Decr := { part := 0, va := 0x6000, pa := 0x6000, leaf := placedLeaf, cancel := false, core := 0, accs := [], uid := none
                     vpage := 0, span := 0x20000000, src := none }
theorem wit_TasksAreScheduled_decrement : ∀ n ∈ [0, 1, 65535],
    let y : Task := { task with va := 0x6000, pa := 0x6000, state := .wait, depcnt := n }
    let s := { paged with tasks := [(1, y)], decrs := [decr] }
    nth s.decrs 0 = some decr ∧ decr.cancel = false ∧ decr.accs = [] ∧ decr.uid = none ∧ (∀ e ∈ s.decrs.take 0, e.pa ≠ decr.pa ∧ (decr.src = none ∨ e.src ≠ decr.src)) ∧ s.migs = []
    ∧ armedAt s decr.pa = some (1, y) ∧ y.depcnt < 65536 := by decide +kernel

/-- A READY task, to be placed beside the base state's unit. -/
def readied : State := { paged with tasks := [(1, { task with state := .ready })] }
theorem wit_TasksAreScheduled_dispatch :
    decision readied = some (0, .task 1, { core := 0, slot := 1, vbase := 0, subs := [] })
    ∧ taskOf readied 1 = some { task with state := .ready } ∧ readied.sched.next ≤ readied.clk ∧ onMigrating readied (task.pa + 120) = false := by decide +kernel

/-- A READY task that wants a step resident which is not, at the head of its queue for 4 ms, or a nanosecond less. -/
def stuck (tns : Nat) : State :=
  { paged with
    tasks := [(1, { task with body := List.replicate 41 0 ++ [1] ++ List.replicate 78 0, state := .ready, headAt := some 0 })]
    tb := { paged.tb with tns := tns } }
theorem wit_TasksAreScheduled_blocking : headTask (stuck 4000000) 0 = some (.task 1, 1, { task with
      body := List.replicate 41 0 ++ [1] ++ List.replicate 78 0, state := .ready, headAt := some 0 })
    ∧ dispatchable (stuck 4000000) (.task 1) = false
    ∧ 0 + 4000000 ≤ (stuck 4000000).tb.tns ∧ (stuck 3999999).tb.tns < 0 + 4000000 := by decide +kernel

/-- Four cores whose units' windows leave no room for the READY task of priority 7. -/
def crowdedOut : State :=
  let k := withUnit (curCore paged) 0 { placedUnit with task := 1, vlen := 16 }
  { paged with
    cores := [(0, k), (1, k), (2, k), (3, k)]
    tasks := [(1, task), (2, { task with pa := 0x7000, state := .ready
                                         body := List.replicate 38 0 ++ [7, 0, 128] ++ List.replicate 79 0 })] }
theorem wit_TasksAreScheduled_victim : victim crowdedOut = some (0, 0) ∧ (unitAt crowdedOut 0 0).live = true
    ∧ (unitAt crowdedOut 0 0).ending = none ∧ preempting crowdedOut 0 0 = false := by decide +kernel

/-- A unit of a task, asked to stop, whose image has its place in the context area. -/
def stopping : State :=
  onUnit (fun u => { u with task := 1, tcbp := 0x1000 }) { paged with tasks := [(1, task)], preempts := [(0, 4096)] }
theorem wit_TasksAreScheduled_save : let bs := imageNow stopping 0 0
    preempting stopping 0 0 = true ∧ atBoundary stopping 0 0 = false ∧ unitStopped stopping 0 0 = true
    ∧ contextBad (getCore stopping 0) (unitAt stopping 0 0) = false ∧ stopping.migs = [] ∧ stopping.heldw = [] ∧ stopping.slow = false ∧ imagePlace stopping 0 bs.length = some 0x40000
    ∧ hubPins stopping 0 .write 0 (0x40000 + bs.length - 1) (bs.length / 65536 + 2) 0x40000 [] = .inl [bigPin]
    ∧ ∀ j, j < bs.length → pinPa [bigPin] (0x40000 + j) = some (0x40000 + j, placedLeaf) := by decide +kernel

/-- The unit is away, with an image of its own length none of whose bytes has been kept. -/
def gone : State :=
  { setCore stopping 0 (withUnit (releaseAway (getCore stopping 0) (unitAt stopping 0 0)) 0 Machine.Unit.reset) with
    aways := [awayOf stopping 0 0]
    chains := [(1, [{ va := 0x40000, len := (imageNow stopping 0 0).length, pins := [bigPin] }])]
    preempts := [], tasks := [(1, { task with readyAt := stopping.tb.tns })] }
theorem wit_TasksAreScheduled_return : decision gone = some (0, .away 0, { core := 0, slot := 0, vbase := 0, subs := [] })
    ∧ gone.aways.length = 1 ∧ gone.sched.next ≤ gone.clk ∧ (∀ m ∈ chainOf gone 1, heldIn gone m.pins = false)
    ∧ (readChain { noteWaited gone 1 with sched := schedAfter gone 0 } (chainOf gone 1)).isRight = true := by decide +kernel

/-- The same with an image that has no section. -/
def saved : List Byte := imageOf 0 0 0 0 []
def kept : State :=
  { gone with
    mem := memSetBytes paged.mem 0x40000 saved, chains := [(1, [{ va := 0x40000, len := saved.length, pins := [bigPin] }])] }
theorem wit_TasksAreScheduled_read : decision kept = some (0, .away 0, { core := 0, slot := 0, vbase := 0, subs := [] })
    ∧ (readChain { noteWaited kept 1 with sched := schedAfter kept 0 } (chainOf kept 1)).isLeft = true := by decide +kernel

/-! ## The tier engine -/

/-- The head of an itinerary of one step, whose H1 and H2 may each have one step of 64 KiB in flight (R297). -/
def head (reserved : Byte) : List Byte :=
  [1, 0, reserved, 0, 0] ++ List.replicate 11 0 ++ [1, 1, 0, 0, 0, 0, 0, 0, 1, 1, 0] ++ List.replicate 5 0

/-- A step of H2 alone into tile 5 of core 0, for sub-array 0 (R298). -/
def stepBytesH2 : List Byte := [0, 0, 4, 0, 5, 0, 0, 0] ++ List.replicate 24 0

/-- The layout record of one f32 element at 0xA000 (R246). -/
def record : List Byte :=
  leBytes 8 0xA000 ++ leBytes 4 1 ++ leBytes 4 1 ++ List.replicate 12 0 ++ leBytes 6 1 ++ leBytes 6 1 ++ List.replicate 18 0 ++ [2, 0]
    ++ List.replicate 4 0

/-- The partition with layout record 0 at 0x8000 and an itinerary at 0x9000. -/
def tiered (reserved : Byte) (bytes : List Byte) : State :=
  { paged with mem := memSetBytes (memSetBytes (memSetBytes paged.mem 0x8000 record) 0x9000 (head reserved)) 0x9020 bytes }

/-- The tier commands with what role or stop they name: slot 0, the head at 0x9000; a rope's peer is package 3 with a slack of 1. -/
def tierCases : List (Quad × CRow × Nat) :=
  [(quad 1 0 0 0x9000 0, .tierRun, 0), (quad 3 0 0 0x9000 0x101, .ropeSource, 1), (quad 3 0 0x40 0x9000 0x30001, .ropeSubscriber, 2),
   (quad 2 0 0 0 0, .tierStop, 3), (quad 2 0 0x40 0 0, .tierStopDrain, 3)]

theorem wit_ItinerariesStart : ∀ x ∈ tierCases,
    let c := cmd 1 x.1 [] []
    let s := posted c (tiered 0 stepBytesH2)
    queueAt s { core := 0, slot := 0 } 1 = c :: [] ∧ cmdRow c = x.2.1 ∧ (cmdInstr c).isSome = true
    ∧ (portOf (posterUnit s { core := 0, slot := 0 }) 1).halted = false ∧ stalled s c.uid 1 = false ∧ pushDone s c = true
    ∧ ownsSlot s 0 (c.quad.cw0.toNat % 64) = true ∧ ownsSlot s 0 1 = false ∧ mapFind s.itins 0 = none
    ∧ (x.2.2 < 3 → tierReject s c x.2.2 = none ∧ pinBytes s c.pins (c.quad.cw1.toNat % 2 ^ 55) 32 = (head 0, false)
        ∧ ¬(1 < fieldNat (head 0) 2 1 ∨ fieldNat (head 0) 5 3 ≠ 0 ∨ 64 < fieldNat (head 0) 8 1 ∨ 64 < fieldNat (head 0) 16 1
          ∨ 64 < fieldNat (head 0) 24 1 ∨ fieldNat (head 0) 0 2 ≤ 0))
    ∧ pinBytes (tiered 2 stepBytesH2) c.pins 0x9000 32 = (head 2, false) ∧ 1 < fieldNat (head 2) 2 1 := by decide +kernel

/-- That itinerary running, with some of its steps read. -/
def itin (role : Nat) (steps : List (Nat × TStep)) : Itin :=
  { cmd := 7, role := role, part := 0, iva := 0x9000, nsteps := 1, prog := false, tracel := 0, wsteps := [0, 1, 1], wbytes := [0, 1, 1]
    lead := [0, 0, 0], thresh := [0, 0, 0], gain := [0, 0, 0], mbase := 0, first := 0, steps := steps, lat := [-32768, -32768, -32768]
    names := [none, none, none], dirty := [(2, 5)], late := [], fail := none, stop := none, delivered := 0, bytes := 0, rope := 9
    peer := 3, slack := 1, nsub := 1, accepted := 1, subs := [{ pkg := 3, consumed := 0, acked := [] }], sent := 0, joined := true
    consumed := 0, left := 0, gone := false }

/-- A state in which it runs in slot 0; the tile behind handle 5 and sub-array 0 exist. -/
def iterating (it : Itin) (bytes : List Byte) : State :=
  bonded [] { onCore (fun k => { k with tiles := [(5, tile)] }) (tiered 0 bytes) with itins := [(0, it)] }

theorem wit_ItinerariesStart_stop : mapFind (posted (cmd 1 (quad 2 0 0 0 0) [] []) (iterating (itin 0 []) stepBytesH2)).itins 0 =
    some (itin 0 []) := by decide +kernel

/-- Its run of TIER.RUN or TIER.ROPE, and the state in which that runs. -/
def tierQuad (role : Nat) : Quad := if role = 0 then quad 1 0 0 0x9000 0 else quad 3 0 0 0x9000 0x101
def tierEnding (it : Itin) : State := { iterating it stepBytesH2 with cmds := [runOf (cmd 1 (tierQuad it.role) [] [])] }
/-- Runs whose end is asked for: all delivered, none, all landed at every subscriber, none landed, stopped or drained, and failed. -/
def tierEndings : List Itin :=
  [{ itin 0 [] with delivered := 1 }, itin 0 [], { itin 1 [] with sent := 1, subs := [{ pkg := 3, consumed := 1, acked := [0] }] }, itin 1 [],
   { itin 0 [] with stop := some false }, { itin 0 [] with stop := some true }, { itin 0 [] with fail := some (0, 0x0E, 2) }]
theorem wit_ItinerariesStart_ends : ∀ it ∈ tierEndings, let s := tierEnding it
    let r := runOf (cmd 1 (tierQuad it.role) [] [])
    nth s.cmds 0 = some r ∧ runById s r.cmd.id = some r ∧ r.more = [] ∧ r.worked = false ∧ r.cmd.eng = 1
    ∧ s.itins.find? (fun e => e.2.cmd == r.cmd.id) = some (0, it) ∧ (∀ e ∈ it.steps, ∀ h ∈ e.2.started, h ∈ e.2.done) ∧ s.deps = [] := by
  decide +kernel

/-- Whether a hop starts step `i`, and whether it fails at step `i`. -/
def goes (i : Nat) : HopTry → Bool
  | .go j _ => i == j
  | _ => false
def fails (i : Nat) : HopTry → Bool
  | .fail j _ => i == j
  | _ => false
theorem goes_some {i : Nat} {x : HopTry} (h : goes i x = true) : ∃ t, x = .go i t := by
  cases x <;> simp [goes] at h; exact ⟨_, by rw [h]⟩
theorem fails_some {i : Nat} {x : HopTry} (h : fails i x = true) : ∃ c, x = .fail i c := by
  cases x <;> simp [fails] at h; exact ⟨_, by rw [h]⟩

/-- H2 may start its step; a step of zeros, which names no hop, fails at the lowest hop that has a window (log 29). -/
theorem wit_HopsMoveSteps_start : mapFind (iterating (itin 0 []) stepBytesH2).itins 0 = some (itin 0 [])
    ∧ slotNext (iterating (itin 0 []) stepBytesH2) 0 2 = true ∧ ∃ t, hopTry (iterating (itin 0 []) stepBytesH2) (itin 0 []) 2 = .go 0 t :=
  ⟨by decide +kernel, by decide +kernel, goes_some (by decide +kernel)⟩
theorem wit_HopsMoveSteps_fail : slotNext (iterating (itin 0 []) []) 0 1 = true
    ∧ ∃ c, hopTry (iterating (itin 0 []) []) (itin 0 []) 1 = .fail 0 c := ⟨by decide +kernel, fails_some (by decide +kernel)⟩

/-- A step at work in its hops: 64 bytes from 0x100 to 0xB000, the tile 5. -/
def tstep (hops : Nat) (started done : List Nat) (moved delivered : Bool) : TStep :=
  { sly := 0, hops := hops, handle := 5, sub := 0, gen := 0, core := 0, due := 0, lpva := 0xC000, stva := 0xB000, lo := 0x100, len := 64
    layout := some (layout 0x100), started := started, done := done, pins := [bigPin], moved := moved, pos := 0, copy := []
    spoilt := [], fore := [], delivered := delivered, reached := false }

/-- H0 and H1 under way: the bytes of both ends are pinned. -/
theorem wit_HopsMoveSteps_copy : ∀ h ∈ [0, 1], let t := tstep 3 [0, 1] (if h = 0 then [] else [0]) false false
    let s := iterating (itin 0 [(0, t)]) stepBytesH2
    (itin 0 [(0, t)]).steps.find? (fun e => hopCan s 0 h e.1 e.2) = some (0, t) ∧ s.poison = [] ∧ s.migs = [] ∧ ¬((itin 0 [(0, t)]).role = 2 ∧ h = 1)
    ∧ t.pos < t.len ∧ t.len ≤ ({ t with pos := 64 } : TStep).pos ∧ hopCan s 0 h 0 { t with pos := 64 } = true
    ∧ ∀ j, j < t.len → pinPa t.pins ((if h = firstHop t.hops then t.lo else t.lpva) + j) =
          some ((if h = firstHop t.hops then t.lo else t.lpva) + j, placedLeaf)
        ∧ pinPa t.pins ((if h = 0 then t.lpva else t.stva) + j) = some ((if h = 0 then t.lpva else t.stva) + j, placedLeaf)
        ∧ inletChan ((if h = 0 then t.lpva else t.stva) + j) = none := by decide +kernel

/-- H2 before and after its deposits, into a tile that stands and one that does not. -/
theorem wit_HopsMoveSteps_deposit : let t := tstep 4 [2] [] false false
    let s := iterating (itin 0 [(0, t)]) stepBytesH2
    (itin 0 [(0, t)]).steps.find? (fun e => hopCan s 0 2 e.1 e.2) = some (0, t) ∧ t.layout = some (layout 0x100) ∧ s.poison = []
    ∧ (tileOf (getCore s 0) 5).valid = true ∧ (tileOf (getCore s 0) 5).gen = t.gen ∧ (tileOf (getCore s 0) 5).acc = false
    ∧ storageIn (tileOf (getCore s 0) 5) = true ∧ (tileOf (getCore s 0) 5).pl = 0 ∧ (layout 0x100).fmt = tileFmt (tileOf (getCore s 0) 5)
    ∧ (tileOf (getCore s 0) 6).valid = false
    ∧ (itin 0 [(0, { t with moved := true })]).steps.find? (fun e => hopCan s 0 2 e.1 e.2) = some (0, { t with moved := true }) := by
  decide +kernel

/-- The step's last hop of an itinerary with PROG whose command leaves records. -/
theorem wit_HopsMoveSteps_progress : let t := tstep 4 [2] [] true false
    let it := { itin 0 [(0, t)] with prog := true }
    it.steps.find? (fun e => hopCan (tierEnding it) 0 2 e.1 e.2) = some (0, t) ∧ t.moved = true ∧ 0 < haltStep it ∧ 2 = lastHop t.hops
    ∧ runById (tierEnding it) it.cmd = some (runOf (cmd 1 (tierQuad 0) [] [])) ∧ qMode (tierQuad 0) ≤ 1 := by decide +kernel

/-- L(2) is to be recomputed in clock 5; the oldest step waits for sub-array 0, whose MCNT is 0. -/
theorem wit_HopsMoveSteps_lateness : let s := { iterating (itin 0 []) stepBytesH2 with clk := 5 }
    (itin 0 []).role ≠ 2 ∧ (itin 0 []).lat.length = 3 ∧ (itin 0 []).names.length = 3 ∧ (itin 0 []).dirty = [(2, 5)] ∧ 5 ≤ s.clk
    ∧ (iterating (itin 0 []) stepBytesH2).clk < 5 ∧ (nth (itin 0 []).wsteps 2).getD 0 ≠ 0
    ∧ oldestStep s (noteReached s { itin 0 [] with dirty := [] }) 2 1 0 = some (0, stepOf stepBytesH2) ∧ mcntOf s 0 0 = some 0 := by
  decide +kernel

/-! ## Ropes -/

/-- A flit from this package to itself, the next of its pair whatever this package's number. -/
def flit (body : FlitBody) : Flit := { arrived := 0, src := ownPkg, dst := ownPkg, seq := 0, body := body }
theorem flit_next (s : State) (b : FlitBody) : arrivalOf { s with net := [flit b] } 0 = .next (flit b) := by simp [arrivalOf, nth, flit]
theorem flit_taken (s : State) (b : FlitBody) : takeFlit { s with net := [flit b] } 0 (flit b) = { s with net := [] } := by
  simp [takeFlit, flit, dropAt]

/-- A source with room for one more subscriber, and a join that suits it; one from a package outside the fabric window does not. -/
def joining (pkg : Nat) : State :=
  { iterating { itin 1 [] with accepted := 0, subs := [] } [] with
    joins := [{ arrived := 0, src := pkg, dst := 0, seq := 0, body := .join 9 pkg 7 1 1 }], clk := 1 }
theorem wit_RopesCarrySteps_join : nth (joining 4095).joins 0 = some { arrived := 0, src := 4095, dst := 0, seq := 0, body := .join 9 4095 7 1 1 }
    ∧ ropeSource (joining 4095) 9 = some (0, { itin 1 [] with accepted := 0, subs := [] }) ∧ joinNext (joining 4095) 9 4095 0 0 = true
    ∧ 0 < (joining 4095).clk
    ∧ (partOf (joining 4095) 0).fablo ≤ 4095 ∧ 4095 ≤ (partOf (joining 4095) 0).fabhi ∧ ¬(4096 ≤ (partOf (joining 4096) 0).fabhi)
    ∧ (itin 1 []).sent = 0 ∧ (itin 1 []).slack ≤ 1 ∧ 1 = (itin 1 []).nsteps ∧ 0 < (itin 1 []).nsub := by decide +kernel

/-- The same join with word that its subscriber leaves behind it. -/
theorem wit_RopesCarrySteps_gone : let g : Flit := { arrived := 0, src := 4095, dst := 0, seq := 1, body := .leave 9 4095 }
    let s := { joining 4095 with joins := (joining 4095).joins ++ [g] }
    joinNext s 9 4095 0 0 = true ∧ ∃ x ∈ dropAt s.joins 0, x.body = .leave 9 4095 :=
  ⟨by decide +kernel, _, List.mem_singleton.mpr rfl, rfl⟩
/-- A delivered step to send, and one not delivered. -/
theorem wit_RopesCarrySteps_send : let t := tstep 2 [1] [1] false true
    mapFind (tierEnding (itin 1 [(0, t)])).itins 0 = some (itin 1 [(0, t)]) ∧ mapFind (itin 1 [(0, t)]).steps (itin 1 []).sent = some t
    ∧ (itin 1 [(0, t)]).role = 1 ∧ (itin 1 [(0, t)]).nsub ≤ (itin 1 [(0, t)]).accepted ∧ t.delivered = true
    ∧ (itin 1 [(0, t)]).sent < consOf (itin 1 [(0, t)]) + (itin 1 [(0, t)]).slack
    ∧ (tstep 2 [] [] false false).delivered = false
    ∧ ∀ u ∈ (itin 1 [(0, t)]).subs, tierEgress (tierEnding (itin 1 [(0, t)])) (itin 1 [(0, t)]) u.pkg = true := by decide +kernel
/-- The same with a byte that is uncorrectable at STVA, and with a full journal. -/
theorem wit_RopesCarrySteps_send_else : let t := tstep 2 [1] [1] false true
    (List.range t.len).filter (fun i => (pinByte { tierEnding (itin 1 [(0, t)]) with poison := [0xB000 / 64] } t.pins (t.stva + i)).2) ≠ []
    ∧ tierEgress (onCore (fun k => { k with journal := List.replicate 4096 { part := 5, pkg := some 9, first := 0, last := 0 } })
        (tierEnding (itin 1 [(0, t)]))) (itin 1 [(0, t)]) 3 = false := by decide +kernel

/-- Flits of a rope that are taken as they come: a join, an answer for the subscriber's command, and word that package 3 leaves. -/
theorem wit_RopesCarrySteps_gets :
    arrivalOf { iterating (itin 2 []) [] with net := [flit (.joinAnswer 9 7 true false)] } 0 = .next (flit (.joinAnswer 9 7 true false))
    ∧ arrivalOf { iterating (itin 1 []) [] with net := [flit (.join 9 3 7 1 1)] } 0 = .next (flit (.join 9 3 7 1 1))
    ∧ arrivalOf { iterating (itin 1 []) [] with net := [flit (.leave 9 3)] } 0 = .next (flit (.leave 9 3))
    ∧ (iterating (itin 2 []) []).itins.find? (fun e => e.2.cmd == 7 && e.2.role == 2) = some (0, itin 2 [])
    ∧ ropeSource (iterating (itin 1 []) []) 9 = some (0, itin 1 []) ∧ (iterating (itin 1 []) []).joins = [] :=
  ⟨flit_next _ _, flit_next _ _, flit_next _ _, rfl, rfl, rfl⟩

theorem wit_RopesCarrySteps_report : arrivalOf { iterating (itin 1 []) [] with net := [flit (.consumed 9 3 1)] } 0 =
      .next (flit (.consumed 9 3 1)) ∧ ropeSource { iterating (itin 1 []) [] with net := [flit (.consumed 9 3 1)] } 9 = some (0, itin 1 []) :=
  ⟨flit_next _ _, by rfl⟩

/-- A copy for a rope that runs here in no subscriber, and for one whose first step takes it. -/
theorem wit_RopesCarrySteps_copy : arrivalOf { paged with net := [flit (.copy 9 0 [1] [])] } 0 = .next (flit (.copy 9 0 [1] []))
    ∧ ∀ slot it, ropeSubscriber { paged with net := [flit (.copy 9 0 [1] [])] } 9 = some (slot, it) → it.joined = false :=
  ⟨flit_next _ _, fun _ _ h => by simp [ropeSubscriber, show paged.itins = [] by decide +kernel] at h⟩

/-- A step of H1 and H2 for a subscriber, staged at 0xB000. -/
def stepBytesRope : List Byte := [0, 0, 6, 0, 5, 0, 0, 0] ++ List.replicate 16 0 ++ leBytes 8 0xB000
def landing : State := iterating (itin 2 []) stepBytesRope
def landed : TStep := { stepOf stepBytesRope with layout := some { layout 0xA000 with base := 0xA000 }, lo := 0xA000, len := 4 }
theorem wit_RopesCarrySteps_landing : let b : FlitBody := .copy 9 0 [1, 2, 3, 4] []
    let s := { landing with net := [flit b] }
    arrivalOf s 0 = .next (flit b) ∧ takeFlit s 0 (flit b) = { landing with net := [] } ∧ ropeSubscriber s 9 = some (0, itin 2 [])
    ∧ (itin 2 []).joined = true ∧ (itin 2 []).gone = false ∧ (itin 2 []).stop = none ∧ 0 < haltStep (itin 2 [])
    ∧ lookStep { landing with net := [] } (itin 2 []) 0 = (stepOf stepBytesRope, none)
    ∧ prepStep { landing with net := [] } (itin 2 []) (stepOf stepBytesRope) = .inl landed
    ∧ rangePins { landing with net := [] } 0 .write 1 landed.stva 4 [] = .inl [bigPin]
    ∧ copyHeld { landing with net := [] } (itin 2 []) 0 4 = false ∧ stepRoom { landing with net := [] } (itin 2 []) 1 = true
    ∧ byteRoom { landing with net := [] } (itin 2 []) 1 landed = true
    ∧ copyHeld { landing with net := [], migs := [{ part := 0, va := 0, span := 0x20000000, old := 0, new := 0x20000000 }] } (itin 2 []) 0 4
        = true :=
  ⟨flit_next _ _, flit_taken _ _, by rfl, by decide +kernel⟩
/-- A copy under way to STVA, at its start and at its end. -/
theorem wit_RopesCarrySteps_hop : ∀ pos ∈ [0, 4], let t := { tstep 6 [1] [] false false with pos := pos, copy := [1, 2, 3, 4] }
    let s := iterating (itin 2 [(0, t)]) stepBytesRope
    mapFind s.itins 0 = some (itin 2 [(0, t)]) ∧ (itin 2 [(0, t)]).role = 2
    ∧ (itin 2 [(0, t)]).steps.find? (fun e => hopCan s 0 1 e.1 e.2) = some (0, t)
    ∧ (pos = 0 → t.pos < t.copy.length) ∧ (pos = 4 → t.copy.length ≤ t.pos) ∧ s.migs = [] ∧ s.poison = [] ∧ t.spoilt = []
    ∧ ∀ j, j < 4 → pinPa t.pins (t.stva + j) = some (0xB000 + j, placedLeaf) ∧ inletChan (0xB000 + j) = none := by decide +kernel

theorem wit_RopesCarrySteps_leave : mapFind (iterating (itin 1 []) []).itins 0 = some (itin 1 []) ∧ (itin 1 []).role = 1
    ∧ (itin 1 []).subs.find? (fun u => u.pkg == 3) = some { pkg := 3, consumed := 0, acked := [] }
    ∧ ropeSubscriber (iterating (itin 1 []) []) (itin 1 []).rope = none := by decide +kernel

/-! ## The splice unit -/

/-- A parameter block of two ranks, this one rank 0, whose member list is at 0x7000 (R340). -/
def block (op flags count peer : Nat) : List Byte :=
  [BitVec.ofNat 8 op, 0, 0, BitVec.ofNat 8 flags] ++ leBytes 2 2 ++ leBytes 2 0 ++ leBytes 8 0x7000 ++ leBytes 4 (if op ≤ 5 then 1 else 0) ++ leBytes 4 count
    ++ leBytes 6 0 ++ leBytes 2 peer ++ List.replicate 8 0 ++ leBytes 8 0x100 ++ leBytes 8 1 ++ List.replicate 72 0

/-- The same without a flag's address and value. -/
def plain (b : List Byte) : List Byte := b.take 40 ++ List.replicate 88 0

/-- The members: this package, whatever its number, and another (R339). -/
def peer : Nat := (ownPkg + 1) % 4096
def members : List Byte := leBytes 8 ownPkg ++ leBytes 8 peer

theorem ownPkg_lt : ownPkg < 4096 := Nat.mod_lt _ (by decide)
theorem members_own : entryAt members 0 = ownPkg := by
  have h := ownPkg_lt
  simp [entryAt, fieldNat, members, leNat_leBytes]
  omega
theorem peer_other : peer ≠ ownPkg := by have h := ownPkg_lt; unfold peer; omega
theorem members_peer : entryAt members 1 = peer := by
  have h : (leBytes 8 ownPkg ++ leBytes 8 peer).drop 8 = leBytes 8 peer := List.drop_left' (leBytes_length 8 ownPkg)
  have h' : (leBytes 8 peer).take 8 = leBytes 8 peer := List.take_of_length_le (by simp)
  rw [entryAt, fieldNat, members, h, h', leNat_leBytes]
  unfold peer
  omega

/-- The base state with the member list in memory and a splice command in its unit's queue. -/
def splicing (c : Cmd) : State :=
  let s := posted c (onCore (fun k => { k with tiles := [(5, tile)] }) paged)
  { s with mem := paged.mem.take 1 ++ ((span 0 16).zip members).map (fun e => (0x7000 + e.1, e.2)) ++ paged.mem.drop 1 }

/-- An all-gather of one element into memory, an all-reduce, a put and a signal. -/
def gatherCmd : Cmd := cmd 2 (quad 1 0 0 0x7100 0) [layout 0x100, { layout 0x200 with ext := [2, 1] }] (plain (block 2 0 1 0))
def reduceCmd : Cmd := cmd 2 (quad 1 0 0 0x7100 0) [layout 0x100, layout 0x200] (plain (block 0 0 1 0))
def putCmd : Cmd := cmd 2 (quad 2 0 0 0x7100 0) [layout 0x100] (plain (block 6 2 1 1))
def signalCmd : Cmd := cmd 2 (quad 3 0 0 0x7100 0) [] (block 7 0 0 1)

theorem hubRead_flat (s : State) (p : Nat) (leaf : Word) (n va : Nat)
    (h : ∀ i, i < n → translateHub s p (va + i) .read = .ok (va + i) leaf) : hubRead s p va n = some (memBytes s.mem va n) := by
  induction n generalizing va with
  | zero => rfl
  | succ n ih =>
    have h0 := h 0 (by omega)
    rw [Nat.add_zero] at h0
    rw [hubRead, h0, ih (va + 1) (fun i hi => by rw [show va + 1 + i = va + (i + 1) by omega]; exact h (i + 1) (by omega))]
    rfl
theorem splicing_list (c : Cmd) : memBytes (splicing c).mem 0x7000 16 = members := by
  have h : (splicing c).mem = (0, 1) :: (((span 0 16).zip members).map (fun e => (0x7000 + e.1, e.2)) ++ paged.mem.drop 1) := rfl
  rw [h]
  rfl
theorem splice_bytes (c : Cmd) (hp : c.part = 0) (hg : bGva c.block = 0x7000) (hr : bNrank c.block = 2)
    (h : ∀ i, i < 16 → translateHub (splicing c) 0 (0x7000 + i) .read = .ok (0x7000 + i) placedLeaf) :
    hubBytes (splicing c) c.part (bGva c.block) (8 * bNrank c.block) = .inl members := by
  have hz : ∀ pa, poisoned (splicing c) pa 1 = false := fun _ => rfl
  rw [hp, hg, hr, hubBytes, hubRead_flat _ _ _ _ _ h, splicing_list]
  refine if_neg ?_
  rw [Bool.not_eq_true, List.any_eq_false]
  intro a _
  split <;> simp [hz]

theorem splice_good (c : Cmd) (hb : blockBad c.block = false) (hp : c.part = 0)
    (hg : bGva c.block = 0x7000) (hr : bNrank c.block = 2) (hk : bMyrank c.block = 0) (hc : c.core = 0) (hl : lengthBad (splicing c) c members = false)
    (hn : rowNeed c.block ≤ 1) (hf : (bOp c.block == 6 && bAow c.block) = false)
    (hd : bDtile c.block = false ∨ bOp c.block = 6 ∧ bPeer c.block = 1)
    (ht : ∀ i, i < 16 → translateHub (splicing c) 0 (0x7000 + i) .read = .ok (0x7000 + i) placedLeaf) :
    spliceReject (splicing c) c = .inr members := by
  have h := ownPkg_lt
  have h3 : peer < 4096 := Nat.mod_lt _ (by decide)
  have h1 : membersBad c members = false := by
    simp only [membersBad, hr, hk, hc, span, List.any, Nat.zero_add, members_own, members_peer, entryBad, entryPkg, entryCore]
    cases bDtile c.block <;> simp <;> omega
  have h2 : ¬rowNeed c.block > (if bDtile c.block then 64 else 1024) := by split <;> omega
  have h4 : putFmtBad (splicing c) c members = false := by simp only [putFmtBad, hf, Bool.false_and]
  have h5 : handleBad (splicing c) c members = false := by
    rcases hd with hd | ⟨ho, hpeer⟩
    · simp [handleBad, hd]
    · have hne := peer_other
      have hne' : peer % 2 ^ 12 = peer := Nat.mod_eq_of_lt h3
      simp [handleBad, ho, hpeer, members_peer, entryPkg]
      omega
  simp [spliceReject, hb, splice_bytes c hp hg hr ht, h1, h4, hl, h2, h5]

theorem gather_good : spliceReject (splicing gatherCmd) gatherCmd = .inr members :=
  splice_good gatherCmd (by decide +kernel) rfl (by decide) (by decide) (by decide) rfl (by decide +kernel) (by decide) (by decide)
    (.inl (by decide)) (by decide +kernel)
theorem reduce_good : spliceReject (splicing reduceCmd) reduceCmd = .inr members :=
  splice_good reduceCmd (by decide +kernel) rfl (by decide) (by decide) (by decide) rfl (by decide +kernel) (by decide) (by decide)
    (.inl (by decide)) (by decide +kernel)
theorem put_good : spliceReject (splicing putCmd) putCmd = .inr members :=
  splice_good putCmd (by decide +kernel) rfl (by decide) (by decide) (by decide) rfl (by decide +kernel) (by decide) (by decide)
    (.inr (by decide)) (by decide +kernel)
theorem signal_good : spliceReject (splicing signalCmd) signalCmd = .inr members :=
  splice_good signalCmd (by decide +kernel) rfl (by decide) (by decide) (by decide) rfl (by decide +kernel) (by decide) (by decide)
    (.inl (by decide)) (by decide +kernel)

/-- A package that a port leads to and that is not cut off is reachable, and a core whose journal is empty may send to it. -/
theorem may_send (s : State) (pkg : Dest) (h : (span 0 16).any (fun p => (fportOf s p).up) = true) (hc : s.cutPkgs = [])
    (h' : (getCore s 0).journal.length < 4096) : reachable s pkg = true ∧ egressOk (getCore s 0) 0 pkg = true := by
  cases pkg <;> simp [reachable, h, hc, egressOk, h']

theorem wit_SpliceCommandsStart : ∀ x ∈ ([(gatherCmd, .allGather), (reduceCmd, .allReduce), (putCmd, .put), (signalCmd, .sigSet)] :
      List (Cmd × CRow)), let s := splicing x.1
    queueAt s { core := 0, slot := 0 } 2 = x.1 :: [] ∧ x.1.eng = 2 ∧ cmdRow x.1 = x.2 ∧ (cmdInstr x.1).isSome = true
    ∧ (portOf (posterUnit s { core := 0, slot := 0 }) 2).halted = false ∧ stalled s x.1.uid 2 = false ∧ pushDone s x.1 = true ∧ s.colls = [] ∧ s.cmds = []
    ∧ s.anns = [] := by decide +kernel
theorem wit_SpliceCommandsStart_collective : spliceReject (splicing gatherCmd) gatherCmd = .inr members ∧ bOp gatherCmd.block ≤ 5
    ∧ rowNeed gatherCmd.block = 0 ∧ peersOf gatherCmd.block = [1]
    ∧ ∀ q ∈ [0, 1], reachable (splicing gatherCmd) (destOf (entryPkg (entryAt members q))) = true
        ∧ egressOk (getCore (splicing gatherCmd) 0) 0 (destOf (entryPkg (entryAt members q))) = true :=
  ⟨gather_good, by decide, by decide, by decide, fun _ _ => may_send _ _ (by decide +kernel) rfl (by decide +kernel)⟩

/-- A collective holding rows of the hub, or any other that runs. -/
def coll (c : Cmd) (rows : Nat) : Coll :=
  { cmd := c, op := bOp c.block, rank := 0, core := 0
    ann := { collid := 1, rank := 0, tgt := 0, core := 0, agree := agreeBytes c.block, members := members, dst := layout 0x200 }
    rows := rows, holds := true, announced := true, toHear := [1], heard := [], shared := false, queued := [], unacked := [], landing := []
    coming := 2, written := [], contrib := [], kept := [], jobs := [], bad := [], fore := [], pruned := 0, sent := 0, seed := 0, fail := none }

theorem wit_SpliceCommandsStart_rows : spliceReject (splicing reduceCmd) reduceCmd = .inr members ∧ bOp reduceCmd.block ≤ 5
    ∧ 0 < rowNeed reduceCmd.block ∧ bDtile reduceCmd.block = false
    ∧ hubRows { splicing reduceCmd with colls := [coll { reduceCmd with id := 1 } 1024] } < rowNeed reduceCmd.block
    ∧ (∀ x ∈ [coll { reduceCmd with id := 1 } 1024], x.cmd.id ≠ reduceCmd.id)
    ∧ rowNeed reduceCmd.block ≤ hubRows { splicing reduceCmd with colls := [coll { reduceCmd with id := 1 } 1] }
    ∧ ∀ x ∈ [coll { reduceCmd with id := 1 } 1], x.holds = true :=
  ⟨reduce_good, by decide, by decide, by decide, by decide +kernel, by simp [coll, reduceCmd, cmd], by decide +kernel, by simp [coll]⟩
theorem wit_SpliceCommandsStart_put : spliceReject (splicing putCmd) putCmd = .inr members ∧ bOp putCmd.block = 6
    ∧ reachable (splicing putCmd) (destOf (entryPkg (entryAt members (bPeer putCmd.block)))) = true
    ∧ egressOk (getCore (splicing putCmd) 0) 0 (destOf (entryPkg (entryAt members (bPeer putCmd.block)))) = true :=
  ⟨put_good, by decide, may_send _ _ (by decide +kernel) rfl (by decide +kernel)⟩
theorem wit_SpliceCommandsStart_signal : spliceReject (splicing signalCmd) signalCmd = .inr members ∧ bOp signalCmd.block = 7
    ∧ signalClear (splicing signalCmd) signalCmd = true
    ∧ signalClear { splicing signalCmd with colls := [coll { gatherCmd with id := 1 } 0] } signalCmd = false
    ∧ reachable (splicing signalCmd) (destOf (entryPkg (entryAt members (bPeer signalCmd.block)))) = true
    ∧ egressOk (getCore (splicing signalCmd) 0) 0 (destOf (entryPkg (entryAt members (bPeer signalCmd.block)))) = true :=
  ⟨signal_good, by decide, by decide +kernel, by decide +kernel, may_send _ _ (by decide +kernel) rfl (by decide +kernel)⟩

/-- A block whose OP is reserved ends its command at once. -/
theorem wit_SpliceCommandsStart_reject :
    spliceReject (splicing { gatherCmd with block := plain (block 2 8 1 0) }) { gatherCmd with block := plain (block 2 8 1 0) } =
      .inl (0x06, 0) := by decide +kernel

/-- One element of a put for tile 5, or for a tile that is not VALID. -/
def piece (handle : BitVec 12) : Piece :=
  { group := members, collid := 1, put := true, rank := 0, tgt := 1, srcPkg := 3, srcCore := 0, cmd := 7, core := 0, handle := handle, gen := 0, fmt := .f32
    kind := .write, ranked := false, cls := 0, width := 32, seg := 0, newRow := false, last := true, elems := [(0, 5)], bad := [] }
def tiles : State := onCore (fun k => { k with tiles := [(5, tile)] }) paged
/-- A started all-gather that has announced itself, with jobs and more. -/
def ending (f : Coll → Coll) : State := { paged with colls := [f (coll gatherCmd 0)], cmds := [runOf gatherCmd] }
/-- A job of some elements, whose sender is package 3. -/
def job (elems : List (Nat × Nat)) : WJob :=
  { elems := elems, bad := [], out := [], cover := [], row := none, ack := some (3, .signalAck 0 0) }
theorem wit_SpliceCommandsEnd : ∀ f ∈ ([fun c => { c with jobs := [job [(0, 5)]] }, fun c => { c with ann := { c.ann with dst := { layout 0x200 with ext := [0, 0] } }, jobs := [job [(0, 5)]] },
      fun c => { c with jobs := [job []], unacked := [1] }, fun c => { c with unacked := [1] },
      fun c => { c with queued := [(1, [piece 5])] }, fun c => { c with fail := some (0x13, 6, 1) }, fun c => { c with fail := some (0x06, 2, 1) }, fun c => { c with toHear := [], coming := 0 }] : List (Coll → Coll)),
    let s := ending f
    nth s.cmds 0 = some (runOf gatherCmd) ∧ runById s gatherCmd.id = some (runOf gatherCmd) ∧ (runOf gatherCmd).more = []
    ∧ (runOf gatherCmd).worked = false ∧ gatherCmd.eng = 2 ∧ collOf s gatherCmd.id = some (f (coll gatherCmd 0))
    ∧ (f (coll gatherCmd 0)).cmd = gatherCmd ∧ (f (coll gatherCmd 0)).announced = true ∧ (f (coll gatherCmd 0)).holds = true := by
  intro f hf
  simp only [List.mem_cons, List.not_mem_nil, or_false] at hf
  rcases hf with rfl | rfl | rfl | rfl | rfl | rfl | rfl | rfl <;> exact ⟨rfl, rfl, rfl, rfl, rfl, rfl, rfl, rfl, rfl⟩
/-- The element that the job writes, and one that the destination has not; its bytes are pinned. -/
theorem wit_SpliceCommandsEnd_element : let l := (coll gatherCmd 0).ann.dst
    elemAt l (dstIndex gatherCmd.block l 0) = some (8 * 0x200) ∧ elemAt { l with ext := [0, 0] } (dstIndex gatherCmd.block { l with ext := [0, 0] } 0) = none
    ∧ (ending id).poison = [] ∧ (ending id).migs = [] ∧ pinsMigrate (ending id) gatherCmd.pins 0x200 (bytesOver (8 * 0x200) l.bits) = false
    ∧ pinsMigrate (ending id) [{ pin with attr := withMig placedLeaf true }] 0x200 4 = true
    ∧ (∀ f g a u v, pinPa gatherCmd.pins f = some (a, u) → pinPa gatherCmd.pins g = some (a, v) → f = g)
    ∧ ∀ i, i < l.bits → ∃ pa leaf, pinPa gatherCmd.pins ((8 * 0x200 + i) / 8) = some (pa, leaf) ∧ inletChan pa = none :=
  ⟨by decide +kernel, by decide +kernel, rfl, rfl, by decide +kernel, by decide +kernel,
    fun f g a u v hf hg => by rw [pin_pa f a u hf, pin_pa g a v hg],
    fun i hi => ⟨_, _, pin_in _ (by have : i < 32 := hi; omega), by
      have : i < 32 := hi
      simp only [inletChan, ite_eq_right_iff, Bool.and_eq_true, decide_eq_true_eq]; omega⟩⟩
/-- The destination is final, or an element is still to come. -/
theorem wit_SpliceCommandsEnd_over : spliceOver (ending (fun c => { c with toHear := [], coming := 0 })) { coll gatherCmd 0 with toHear := [], coming := 0 } = true
    ∧ spliceOver (ending id) (coll gatherCmd 0) = false := ⟨rfl, rfl⟩

/-! ## Flits -/

/-- A flit of another package that has been applied already, and one that is not there. -/
theorem wit_FlitsAreApplied_again :
    arrivalOf { paged with
        net := [{ flit (.consumed 9 3 1) with src := ownPkg + 1 }], recvSeq := [(ownPkg + 1, 1)] } 0 = .again
    ∧ arrivalOf paged 0 = .notYet := by
  constructor
  · simp [arrivalOf, nth, flit, mapGet]
  · rfl

theorem wit_FlitsAreApplied_piece : let s := { tiles with net := [flit (.piece (piece 5))] }
    let T := tileOf (getCore s 0) 5
    arrivalOf s 0 = .next (flit (.piece (piece 5))) ∧ (piece 5).put = true ∧ (piece 5).bad = [] ∧ (piece 5).elems ≠ []
    ∧ (piece 5).ranked = false ∧ (T.valid = true ∧ T.gen = (piece 5).gen ∧ T.acc = false ∧ T.pl = 0 ∧ (piece 5).width = fmtBits (tileFmt T)
      ∧ (piece 5).kind = .write ∧ ∀ e ∈ (piece 5).elems, e.1 / tileCols T < tileRows T ∧ e.1 % tileCols T < tileCols T)
    ∧ (tileOf (getCore s 0) 6).valid = false := ⟨flit_next _ _, by decide +kernel⟩

theorem wit_FlitsAreApplied_signal : let b : FlitBody := .signal 0 0x100 1 false 0 7
    let s := { paged with net := [flit b] }
    arrivalOf s 0 = .next (flit b) ∧ corePart s 0 = some 0 ∧ translateHub s 0 0x100 .write = .ok 0x100 placedLeaf
    ∧ inletChan 0x100 = none ∧ migratingAt s placedLeaf 0x100 = false ∧ translateHub s 0 0x20000000 .write = .fail 0x04 :=
  ⟨flit_next _ _, by rfl, by rfl, by decide, by rfl, by rfl⟩

/-- A member's announcement, of the terms of the collective that runs here or of others. -/
def announce (agree : List Byte) : Announce := { (coll gatherCmd 0).ann with rank := 1, agree := agree }
/-- The last peer's announcement is held, or is still to come. -/
theorem wit_SpliceCommandsEnd_spent : (coll gatherCmd 0).toHear = [1] ∧ (ending id).anns = []
    ∧ [flit (.announce (announce []))].any (announces (peerKey (coll gatherCmd 0) 1)) = true :=
  ⟨rfl, rfl, by simp [announces, annKey, peerKey, announce, coll, flit]⟩
def collecting (c : Coll) (b : FlitBody) : State := { paged with colls := [c], net := [flit b] }
theorem annAt_same (a : Announce) (s : State) (h : s.colls = [{ coll gatherCmd 0 with toHear := [1, 2] }])
    (hc : a.collid = 1 := by rfl) (hk : a.core = 0 := by rfl) (ht : a.tgt = 0 := by rfl) (hm : a.members = members := by rfl) :
    annAt s a = some { coll gatherCmd 0 with toHear := [1, 2] } := by
  simp [annAt, h, hc, hk, ht, hm, coll, show bOp gatherCmd.block = 2 by decide]
theorem wit_FlitsAreApplied_announce : let a := announce (agreeBytes gatherCmd.block)
    let c := { coll gatherCmd 0 with toHear := [1, 2] }
    arrivalOf (collecting c (.announce a)) 0 = .next (flit (.announce a))
    ∧ annAt (collecting c (.announce a)) a = some c ∧ c.announced = true
    ∧ collOf (collecting c (.announce a)) c.cmd.id = some c ∧ c.fail = none ∧ a.agree = c.ann.agree ∧ a.members = c.ann.members
    ∧ a.rank ∈ c.toHear ∧ (∃ q ∈ c.toHear, q ≠ a.rank) ∧ (announce []).agree ≠ c.ann.agree
    ∧ annAt (collecting c (.announce (announce []))) (announce []) = some c
    ∧ annAt { paged with net := [flit (.announce a)] } a = none ∧ annKey a ∉ (collecting c (.announce a)).spent
    ∧ (let t := { collecting c (.announce a) with spent := [annKey a] }
      arrivalOf t 0 = .next (flit (.announce a)) ∧ annKey a ∈ t.spent) :=
  ⟨flit_next _ _, annAt_same _ _ rfl, by rfl, by rfl, by rfl, by rfl, by rfl, by decide, by decide, by decide, annAt_same _ _ rfl, by rfl,
    List.not_mem_nil, flit_next _ _, List.mem_singleton.mpr rfl⟩
/-- Rank 1 may be met under its own number, and the last to be heard is it alone. -/
theorem wit_FlitsAreApplied_last : let a := announce (agreeBytes gatherCmd.block)
    (∀ q ∈ (coll gatherCmd 0).toHear, q = a.rank) ∧ (coll gatherCmd 0).shared = false ∧ (coll gatherCmd 0).announced = true
    ∧ collOf (collecting (coll gatherCmd 0) (.announce a)) (coll gatherCmd 0).cmd.id = some (coll gatherCmd 0)
    ∧ annAt (collecting (coll gatherCmd 0) (.announce a)) a = some (coll gatherCmd 0)
    ∧ shareOf gatherCmd.block 0 1 = [(0, 0)]
    ∧ elemAt (layout 0x100) ((unflat (layout 0x100).ext 0).map (fun (n : Nat) => (n : Int))) = some (8 * 0x100) :=
  ⟨by simp [coll, announce], rfl, rfl, rfl,
    by simp [annAt, collecting, announce, coll, show bOp gatherCmd.block = 2 by decide], by decide +kernel, by decide +kernel⟩

/-- A collective that has another's flits to take, its member list of zeros: an element into tile 0 or memory, as its block says. -/
def lone : List Byte := List.replicate 16 0
def member (op flags alg coming : Nat) : Coll :=
  let c := cmd 2 (quad 1 0 0 0x7100 0) [layout 0x100, layout 0x200] ((plain (block op flags 1 0)).set 1 (BitVec.ofNat 8 alg))
  { coll c 2 with ann := { (coll c 2).ann with members := lone }, coming := coming }
def share : Piece := { piece 0 with group := lone, put := false, tgt := 0, srcCore := 1 }
/-- That collective on a core whose tile 0 stands, with a flit of another member. -/
def takes (c : Coll) : State := { onCore (fun k => { k with tiles := [(0, tile)] }) paged with colls := [c] }
def taking (c : Coll) (y : Piece) : State := { takes c with net := [flit (.piece y)] }
theorem taken (c : Coll) (y : Piece) : takeFlit (taking c y) 0 (flit (.piece y)) = { takes c with net := [] } := flit_taken (takes c) _
/-- A tile destination under ALG 3 and RANKED, one by one tree, memory of a gather and of a reduction whose share is the last or is not. -/
def takers : List Coll := [member 1 2 0 2, member 0 3 0 2, member 0 2 1 1, member 0 2 1 2, member 2 0 0 2, member 0 0 0 2, member 0 0 0 1]
theorem wit_FlitsAreApplied_share : ∀ c ∈ takers, arrivalOf (taking c share) 0 = .next (flit (.piece share))
    ∧ collAt (taking c share) share.group share.collid share.tgt share.core = some c ∧ collOf (taking c share) c.cmd.id = some c ∧ c.op ≠ 5 := by
  intro c hc
  refine ⟨flit_next _ _, ?_⟩
  simp only [takers, List.mem_cons, List.not_mem_nil, or_false] at hc
  rcases hc with rfl | rfl | rfl | rfl | rfl | rfl | rfl <;> exact ⟨rfl, rfl, by decide⟩
theorem wit_FlitsAreApplied_forms :
    takers.map (fun c => (bDtile c.cmd.block, bRanked c.cmd.block, oneTree c, decide (c.coming ≤ share.elems.length), c.op)) =
      [(true, false, false, false, 1), (true, true, true, false, 0), (true, false, true, true, 0), (true, false, true, false, 0),
        (false, false, false, false, 2), (false, false, true, false, 0), (false, false, true, true, 0)] := by decide +kernel
theorem wit_FlitsAreApplied_fits : let c := member 1 2 0 2
    let T := tileOf (getCore (taking c share) 0) (entryHandle (entryAt lone 0)).toNat
    T.valid = true ∧ T.gen = entryGen (entryAt lone 0) ∧ T.acc = false ∧ T.pl = 0 ∧ share.width = fmtBits (tileFmt T) ∧ share.elems ≠ []
    ∧ ∀ e ∈ share.elems, e.1 / tileCols T < tileRows T ∧ e.1 % tileCols T < tileCols T := by decide +kernel

/-- A transposing all-to-all with landing rows free, with none, and with a flit before it; its flit is the last of a segment or not. -/
def rowed (last : Bool) : Piece := { share with newRow := true, last := last }
theorem wit_FlitsAreApplied_rows : ∀ last ∈ [true, false], let c := member 5 0 0 4
    let s := taking c (rowed last)
    let f := flit (.piece (rowed last))
    arrivalOf s 0 = .next f ∧ collAt s (rowed last).group (rowed last).collid (rowed last).tgt (rowed last).core = some c
    ∧ collOf s c.cmd.id = some c ∧ c.op = 5 ∧ (rowsUsed s c).length + winners (takeFlit s 0 f) c f (rowed last).srcCore < c.rows
    ∧ ¬((rowsUsed s c).length + winners (takeFlit s 0 f) c f (rowed last).srcCore < 0)
    ∧ rowRival (takeFlit s 0 f) c f.arrived f.src (rowed last).srcCore = false := by
  intro last hl
  refine ⟨flit_next _ _, rfl, rfl, rfl, ?_, Nat.not_lt_zero _, ?_⟩
  · rw [show winners (takeFlit (taking (member 5 0 0 4) (rowed last)) 0 (flit (.piece (rowed last)))) (member 5 0 0 4)
      (flit (.piece (rowed last))) (rowed last).srcCore = 0 by simp [winners, flit]]
    cases last <;> decide
  · rw [taken]
    cases last <;> rfl
theorem wit_FlitsAreApplied_withdraw : let b : FlitBody := .withdraw lone 1 1 0 0
    let c := member 2 0 0 2
    arrivalOf (collecting c b) 0 = .next (flit b) ∧ collAt (collecting c b) lone 1 0 0 = some c
    ∧ collOf (collecting c b) c.cmd.id = some c ∧ c.fail = none
    ∧ collAt { paged with net := [flit b] } lone 1 0 0 = none := ⟨flit_next _ _, by rfl, by rfl, by rfl, by rfl⟩

/-- A remote row of one element for tile 5, and the MEPI that hands it over. -/
def remoteRow : RemoteRow :=
  { srcPkg := 0, srcCore := 0, srcSub := 0, srcSlot := 0, srcUid := 1, srcId := 0, pc := 0, srcRow := 0, dstPkg := 3, core := 0, handle := 5
    gen := 0, fmt := 0, cls := 0, add := false, ranked := false, elems := [{ r := 0, c := 0, bits := 5 }] }
theorem wit_FlitsAreApplied_row : let s := { tiles with net := [flit (.row remoteRow)] }
    let T := tileOf (getCore s 0) 5
    arrivalOf s 0 = .next (flit (.row remoteRow)) ∧ remoteRow.ranked = false ∧ remoteRow.add = false ∧ remoteRow.elems ≠ []
    ∧ (T.valid = true ∧ T.gen = remoteRow.gen ∧ T.acc = false ∧ T.pl = 0 ∧ T.fmt = remoteRow.fmt
      ∧ ∀ e ∈ remoteRow.elems, 0 ≤ e.r ∧ 0 ≤ e.c ∧ e.r < tileRows T ∧ e.c < tileCols T)
    ∧ (tileOf (getCore { paged with net := [flit (.row remoteRow)] } 0) 5).valid = false := ⟨flit_next _ _, by decide +kernel⟩

def handing (clk : Nat) : State :=
  { bonded [{ mflight with effect := .epiRemote 1 [remoteRow] }] paged with clk := clk }
theorem wit_FlitsAreApplied_handoff : let g := { mflight with effect := .epiRemote 1 [remoteRow] }
    (∃ b ∈ subOf (getCore (handing 9) 0) 0, b.flights.find? (fun f => match f.effect with
        | .epiRemote _ (_ :: _) => true
        | _ => false) = some g)
    ∧ g.effect = .epiRemote 1 (remoteRow :: []) ∧ preempting (handing 9) 0 g.slot = false ∧ g.stuck = false
    ∧ egressOk (getCore (handing 9) 0) ((corePart (handing 9) 0).getD 0) (destOf remoteRow.dstPkg) = true
    ∧ g.issue + g.late + 8 + (remoteRow.srcRow + 1) * ceilDiv remoteRow.elems.length 128 = 9 ∧ 9 ≤ (handing 9).clk ∧ (handing 8).clk < 9 :=
  ⟨⟨_, rfl, by decide +kernel⟩, by decide +kernel⟩
/-- No tile of the row's stands on its core, or a full one does in this package. -/
theorem wit_FlitsAreApplied_full : rowMeetsFull (handing 9) remoteRow = false
    ∧ rowMeetsFull { onCore (fun k => { k with tiles := [(5, { tile with full := true })] }) paged with clk := 9 }
        { remoteRow with dstPkg := ownPkg } = true := by
  constructor
  · simp [rowMeetsFull, show (rowWords (getCore (handing 9) remoteRow.core) remoteRow) = none by decide +kernel]
  · simp only [rowMeetsFull, beq_self_eq_true, Bool.true_and]; decide +kernel

/-- A share that came back, for a collective that has ended, and for one with landing rows free or none. -/
def offered (c : Coll) : State := { taking c (rowed false) with net := [], back := [flit (.piece (rowed false))] }
theorem wit_FlitsAreApplied_reoffer : let y := rowed false
    let f := flit (.piece y)
    let c := member 5 0 0 4
    nth { paged with back := [f] }.back 0 = some f ∧ collAt { paged with back := [f] } y.group y.collid y.tgt y.core = none
    ∧ nth (offered c).back 0 = some f ∧ collAt (offered c) y.group y.collid y.tgt y.core = some c ∧ collOf (offered c) c.cmd.id = some c
    ∧ (rowsUsed (offered c) c).length < c.rows ∧ ({ c with rows := 0 } : Coll).rows ≤ (rowsUsed (offered c) c).length
    ∧ rowRival { offered c with back := dropAt (offered c).back 0 } c (offered c).clk f.src y.srcCore = false :=
  ⟨rfl, rfl, rfl, rfl, rfl, by decide, Nat.zero_le _, rfl⟩

/-- Port 15 at either rate, after sixteen and seventeen replays; another port up, or none. -/
def porting (fast : Bool) (n : Nat) : State := { base with fports := [(15, { up := true, fast := fast, replays := List.replicate n 0 })] }
def lastPort : State :=
  { base with
    fports := (span 0 15).map (fun p => (p, { up := false, fast := true, replays := [] })) ++
      [(15, { up := true, fast := true, replays := [] })]
    colls := [{ coll signalCmd 0 with unacked := [1] }] }
theorem wit_PortsFail : 15 < 16 ∧ (fportOf (porting true 17) 15).up = true ∧ (fportOf (porting true 17) 15).fast = true
    ∧ (fportOf (porting false 17) 15).fast = false
    ∧ 16 < ((fportOf (porting true 17) 15).replays.filter (fun x => (porting true 17).tb.tns < x + 1000000)).length
    ∧ ((fportOf (porting true 16) 15).replays.filter (fun x => (porting true 16).tb.tns < x + 1000000)).length ≤ 16
    ∧ ∃ q, q < 16 ∧ q ≠ 15 ∧ (fportOf (porting true 17) q).up = true :=
  ⟨by decide, by decide +kernel, by decide +kernel, by decide +kernel, by decide +kernel, by decide +kernel, 0, by decide +kernel⟩
theorem wit_PortsFail_last : ∃ c, (fportOf lastPort 15).up = true ∧ (∀ q, q < 16 → q ≠ 15 → (fportOf lastPort q).up = false)
    ∧ lastPort.colls = [c] ∧ c.op = 7 ∧ c.unacked = [bPeer c.cmd.block] ∧ c.fail = none ∧ entryPkg (entryAt c.ann.members (bPeer c.cmd.block)) ≠ ownPkg :=
  ⟨{ coll signalCmd 0 with unacked := [1] }, by decide +kernel, by decide +kernel, rfl, by decide, by decide, rfl, by
    show entryPkg (entryAt members (bPeer signalCmd.block)) ≠ ownPkg
    rw [show bPeer signalCmd.block = 1 by decide, members_peer]
    have := peer_other; have : peer < 4096 := Nat.mod_lt _ (by decide); simp only [entryPkg]; omega⟩
/-- With the last port down, the root of a TREE broadcast has sent its shares and waits for the other member. -/
def castCmd : Cmd := cmd 2 (quad 1 0 0 0x7100 0) [layout 0x100] ((block 3 0 1 0).set 1 2)
def casting : Coll := { coll castCmd 0 with shared := true, toHear := [], unacked := [1] }
theorem wit_PortsFail_prune : castRoot casting = true ∧ casting.announced = true ∧ casting.fail = none ∧ casting.heard = []
    ∧ (∀ q ∈ casting.unacked, q < bNrank casting.cmd.block ∧ q ≠ casting.rank) := by decide +kernel

/-! ## Vector words -/

/-- The vector stream of the base state's unit is forked at word 0; its window has 64 rows, knot 4 is clear and knot 5 set, queue 3 is
its own without a token, and tile 5 is full or not. -/
def vectors (full : Bool) (ws : List (Nat × BitVec 96)) : State :=
  onUnit (fun u => { u with vlen := 64 })
    (onCore (fun k => { k with
        imemV := ws, knots := 32, tokq := [(3, { owner := some 1, count := 0, rsv := 0 })], tiles := [(5, { tile with full := full })] })
      (State.reset.withFetchWord 96 0))

/-- One word of every form of the table's vector rows, as the sequencer takes it. -/
def vectorForms : List (VIn × BitVec 4) :=
  [(vinOf .add 0 vw, 0), (vinOf .and 0 { vw with typ := 5 }, 0), (vinOf .rmax 0 { vw with b := 0 }, 0), (vinOf .mov 0 { vw with b := 0 }, 0),
   (vinOf .perm 0 { vw with b := 0x8018 }, 0), (vinOf .cvt 2 { vw with b := 0 }, 0), (vinTile .ldt { vt with handle := 5 }, 0),
   (vinCtl .knotAny 0x8010 0xF 0xF 0xF false, 4), (vinCtl .knotAll 0x8010 0xF 0xF 0xF false, 4), (vinCtl .nop 0 0xF 0xF 0xF false, 0)]

theorem wit_VectorWordsIssue : vecSlot (getCore (vectors true []) 0) = some 0 ∧ plainForked (vectors true []) 0 0 8 = true
    ∧ (getCore (vectors true []) 0).mismatch = false
    ∧ ∀ x ∈ vectorForms, let s := vectors true []
      let k := getCore s 0
      let u := unitAt s 0 0
      vinFieldsOk x.1 = true ∧ vinShapeOk u k.vec x.1 0 k.vec.strm.rotb.toNat = true ∧ ownsQueue k u.uid x.1.take = true
      ∧ ownsQueue k u.uid x.1.give = true ∧ x.1.knot = 0xF ∧ vinFault k u (ctxOf s 0 0 8 false) x.1 = none
      ∧ tokensReady k x.1.take x.1.give = true ∧ tileReady k s.clk x.1 = true
      ∧ loadBehind s (ctxOf s 0 0 8 false) x.1 = false ∧ pipeFreeAt k.vec x.1.op ≤ s.clk
      ∧ vinLanded k u s.clk (ctxOf s 0 0 8 false) x.1 = true := by decide +kernel
theorem wit_VectorWordsIssue_store : let s := vectors false []
    let v := vinTile .stt { vt with row := 0x8010, handle := 5 }
    vinFieldsOk v = true ∧ vinShapeOk (unitAt s 0 0) (getCore s 0).vec v 0 0 = true
    ∧ vinFault (getCore s 0) (unitAt s 0 0) (ctxOf s 0 0 8 false) v = none ∧ tileReady (getCore s 0) s.clk v = true
    ∧ vinLanded (getCore s 0) (unitAt s 0 0) s.clk (ctxOf s 0 0 8 false) v = true := by decide +kernel

/-- A VLDT behind a deposit of its stream into the word that it reads, and one that names a tile that is not VALID. -/
theorem wit_VectorWordsIssue_load : let v := vinTile .ldt { vt with handle := 5 }
    let d : Deposit := { src := .vec 0 0, core := 0, handle := 5, gen := 0, word := 0, data := 0, mask := 0, kind := .write, ranked := none
                         cls := 0, due := 0, held := false, bad := false }
    loadBehind { vectors true [] with deps := [d] } (ctxOf (vectors true []) 0 0 8 false) v = true
    ∧ vinFieldsOk { v with handle := 6 } = true ∧ vinShapeOk (unitAt (vectors true []) 0 0) (getCore (vectors true []) 0).vec { v with handle := 6 } 0 0 = true
    ∧ (vinFault (getCore (vectors true []) 0) (unitAt (vectors true []) 0 0) (ctxOf (vectors true []) 0 0 8 false) { v with handle := 6 }).map (·.1)
        = some 0x07 := by decide +kernel

/-- The checker core disagrees on the word. -/
theorem wit_VectorWordsIssue_mismatch : let s := onCore (fun k => { k with mismatch := true }) (vectors true [])
    vecSlot (getCore s 0) = some 0 ∧ plainForked s 0 0 8 = true ∧ (getCore s 0).mismatch = true := by decide +kernel

/-- A knot that is clear, a token that is not there, a queue of another, and a TYPE that is not assigned. -/
theorem wit_VectorWordsIssue_else : let s := vectors true []
    let k := getCore s 0
    k.knots.getLsbD (4#4).toNat = false ∧ k.knots.getLsbD (5#4).toNat = true
    ∧ ownsQueue k 1 3 = true ∧ tokensReady k 3 0xF = false ∧ ownsQueue k 1 2 = false
    ∧ vinFieldsOk (vinOf .add 0 { vw with typ := 15 }) = false := by decide +kernel

/-- The control words; the limits of VMOD, with a loop counter of one, for a body of one word and for an interval above its length. -/
theorem wit_VectorControlWords : let s := onCore (fun k => { k with vec := { k.vec with strm := { k.vec.strm with lc3 := 1 } } }) (vectors true [])
    let k := getCore s 0
    vecSlot k = some 0 ∧ plainForked s 0 0 8 = true ∧ k.mismatch = false ∧ k.badWords = [] ∧ k.vec.strm.pc.toNat + 1 ≤ 8191 ∧ ¬(1 < 1)
    ∧ (nth ((span 1 1).map (rawWord k 8)) 0).getD 0 / 2 ^ 88 % 256 < 0x70 ∧ k.vec.strm.lc3 ≠ 0 ∧ k.vec.strm.lc2 = 0 ∧ (2#16).toNat < 4 ∧ (3#16).toNat < 4 ∧ 4 ≤ (4#16).toNat
    ∧ k.knots.getLsbD (4#4).toNat = false ∧ k.knots.getLsbD (5#4).toNat = true ∧ inFlight k 8 = false ∧ 1 < 2
    ∧ inFlight { k with vec := { k.vec with flights := [flight] } } 8 = true := by decide +kernel

/-- A word whose first row is due: VADD, VSTT of a row into tile 5, VKNOT.ANY. -/
def landingsOf (op : VOp) (typ : Fmt) : State :=
  onCore (fun k => { k with vec := { k.vec with flights := [{ flight with op := op, typ := typ, tile := tile, last := 1 }] } })
    { vectors false [] with clk := 100 }
def landings (op : VOp) : State := landingsOf op .f32
theorem wit_RowsLand : ∀ op ∈ ([.add, .and, .sel, .packZip, .rmax, .fma] : List VOp), let k := getCore (landings op) 0
    let f := { flight with op := op, tile := tile, last := 1 }
    nextShadow k (landings op).clk = none ∧ nextLanding k (landings op).clk = some f ∧ f.lanes ≤ 32 ∧ rowKey f.dst f.next = some 10
    ∧ vopWrites f.op = true := by decide +kernel
/-- Each other operation that writes rows, a VCVT and a VLDT among them, on floating and on integer elements. -/
theorem wit_RowsLand_more : ∀ op ∈ ([.sra, .clmul, .clmulh, .cmpeq, .cmplt, .cmple, .cls, .bcastRow0, .trn, .rot, .perm, .sub, .min, .max, .abs,
      .neg, .mul, .fms, .nfma, .scale, .rcp, .rsq, .exp2, .log2, .tanh, .sigm, .sinpi, .cospi, .rnd, .rmin, .rarg, .rsum, .csum, .cvt, .ldt]
      : List VOp), ∀ typ ∈ [Fmt.f32, Fmt.i32], let k := getCore (landingsOf op typ) 0
    let f := { flight with op := op, typ := typ, tile := tile, last := 1 }
    nextShadow k (landingsOf op typ).clk = none ∧ nextLanding k (landingsOf op typ).clk = some f ∧ f.lanes ≤ 32 ∧ rowKey f.dst f.next = some 10
    ∧ vopWrites f.op = true := by decide +kernel
/-- A write of a latency shadow is due, of one lane of row 10. -/
theorem wit_RowsLand_shadow : let w : PendWrite := { off := 40, row := 10, lanes := 1, value := 7 }
    nextShadow (getCore (onCore (fun k => { k with vec := { k.vec with shadow := [w], base := some 60 } }) (landings .add)) 0) 100 = some w := by
  decide +kernel
theorem wit_RowsLand_else : ∀ op ∈ ([.stt, .knotAny, .knotAll] : List VOp), let k := getCore (landings op) 0
    let f := { flight with op := op, tile := tile, last := 1 }
    nextShadow k (landings op).clk = none ∧ nextLanding k (landings op).clk = some f ∧ f.lanes ≤ 32 := by decide +kernel
/-- Row 0 of a word on T2 elements is to be checked: all its elements are 0, or the lowest is the reserved code. -/
def t2Word : VFlight := { flight with op := .unpkLo, typ := .t2, last := 1, issue := 100 }
def checking (v : Row) : State :=
  onCore (fun k => { k with vrows := [(0, v)], vec := { k.vec with flights := [t2Word] } }) { vectors false [] with clk := 100 }
theorem wit_RowsLand_check : nextShadow (getCore (checking 2) 0) 100 = none ∧ nextLanding (getCore (checking 2) 0) 100 = none := by
  decide +kernel
theorem wit_RowsLand_check_next : nextCheck (getCore (checking 2) 0) 100 = some t2Word := by decide +kernel
theorem wit_RowsLand_check_stream : vecSlot (getCore (checking 2) 0) = some t2Word.slot ∧ (getCore (checking 2) 0).vec.strm.mode = .forked := by
  decide +kernel
theorem wit_RowsLand_reserved : readsReserved (getCore (checking 0) 0) t2Word 0 = false
    ∧ readsReserved (getCore (checking 2) 0) t2Word 0 = true := by decide +kernel

/-! ## Courses, repeats and modulo loops -/

/-- The word an instruction is encoded as. -/
def word (n : Nat) (i : Instr) : BitVec n := BitVec.ofNat n (((encode i).map (·.2)).getD 0)

/-- A bound group of the vector sequencer and sub-array 0, both at word 0 of the given words. -/
def bound (v : BitVec 96) (m : BitVec 192) : State :=
  onUnit (fun u => { u with group := 0x101 })
    (onCore (fun k => { k with
        imemM := [(0, m)], vec := { k.vec with strm := { k.vec.strm with mode := .bound } }
        mats := [(0, { Strm.reset with mode := .bound })] }) (bonded [] (vectors true [(0, v)])))

/-- The words of its next course. -/
def course (s : State) : List (Ctx × Fetched × SAct) :=
  (courseActs 0 0 (endsCourse (fetchWord (getCore s 0) 8 (getCore s 0).vec.strm.pc.toNat)) (maskStreams (unitAt s 0 0).group)
    { state := s, acts := [] }).acts

/-- A course of two NOPs goes; one whose matrix word is none faults, one that lacks a token waits, one whose branches differ does
neither; and a VWAIT ends the run. -/
theorem wit_SequencersStep_course : let s := bound (word 96 (.vnop 0xF 0xF 0xF true)) (word 192 (.mnop mi))
    vecSlot (getCore s 0) = some 0 ∧ groupMayIssue s 0 0 = true ∧ courseStops s 0 0 = false ∧ (courseFault (course s)).isNone = true
    ∧ courseWaits (course s) = false ∧ branchesDiffer (course s) = false ∧ (courseViol (course s)).isNone = true
    ∧ (unitAt s 0 0).leaving = false ∧ (unitAt (onUnit (fun u => { u with leaving := true }) s) 0 0).leaving = true
    ∧ (∀ n ∈ maskStreams (unitAt s 0 0).group, (strmOf (getCore s 0) 1 n).mod = none) := by decide +kernel
/-- The matrix stream is in a loop and has no word in this slot. -/
def courseLoop : State :=
  onCore (fun k => { k with mats := [(0, { Strm.reset with
      mode := .bound
      mod := some { len := 1, ii := 2, tcur := 2, t := 1, exk := 0xF, exs := false, ctr := none, begun := false, body := [0] } })] })
    (bound (word 96 (.vnop 0xF 0xF 0xF true)) 0)
/-- The words of its course, once the slots of its loops have begun. -/
def loopCourse : List (Ctx × Fetched × SAct) :=
  (courseActs 0 0 false (maskStreams (unitAt courseLoop 0 0).group)
    { state := beginCourse 0 0 (maskStreams (unitAt courseLoop 0 0).group) courseLoop, acts := [] }).acts
theorem wit_SequencersStep_course_loop : groupMayIssue courseLoop 0 0 = true ∧ courseStops courseLoop 0 0 = false
    ∧ endsCourse (fetchWord (getCore courseLoop 0) 8 (getCore courseLoop 0).vec.strm.pc.toNat) = false
    ∧ (courseFault loopCourse).isNone = true ∧ courseWaits loopCourse = false ∧ branchesDiffer loopCourse = false
    ∧ (courseViol loopCourse).isNone = true
    ∧ loopCourse.any (fun a => a.1.strm == 0 && match a.2.2 with
        | .skipped => true
        | _ => false) = true
    ∧ (strmOf (getCore courseLoop 0) 1 0).mod ≠ none := by decide +kernel
theorem wit_SequencersStep_course_else :
    (courseFault (course (bound (word 96 (.vnop 0xF 0xF 0xF true)) 0))).any (fun x => x.2.1 != 0x0D && x.2.1 != 0x0E) = true
    ∧ (let s := bound (word 96 (.vnop 0xF 3 0xF true)) (word 192 (.mnop mi))
      (courseFault (course s)).isNone = true ∧ courseWaits (course s) = true)
    ∧ (let s := bound (word 96 (.vbrAlways 5 true)) (word 192 (.mbrKset mc 4 5))
      (courseFault (course s)).isNone = true ∧ courseWaits (course s) = false ∧ branchesDiffer (course s) = true)
    ∧ endsCourse (fetchWord (getCore (bound (word 96 (.vwaitSet 5 true)) 0) 0) 8 0) = true := by decide +kernel

/-- A VADD that is to issue twice more; a control word there. -/
def repeating (w : BitVec 96) : State :=
  onCore (fun k => { k with vec := { k.vec with strm := { k.vec.strm with repn := 2, repcnt := 2 } } }) (vectors true [(0, w)])
theorem wit_SequencersStep_repeat : let s := repeating (word 96 (.vadd vw))
    let k := getCore s 0
    let v := vinOf .add 0 vw
    vecSlot k = some 0 ∧ mayIssue s 0 0 8 = true ∧ k.vec.strm.mode = .forked ∧ k.vec.strm.mod = none ∧ k.vec.strm.repcnt ≠ 0 ∧ k.mismatch = false
    ∧ fetchWord k 8 0 = .instr (.vadd vw) ∧ vinOfInstr (.vadd vw) = some (v, 0)
    ∧ (rawWord k 8 0 / 2 ^ 88 % 256 < 0x70) ∧ loadBehind s (ctxOf s 0 0 8 false) v = false ∧ v.op ≠ .nop ∧ v.take = 0xF ∧ v.give = 0xF ∧ vinFieldsOk v = true
    ∧ vinShapeOk (unitAt s 0 0) k.vec v (2 - 2) 0 = true ∧ vinFault k (unitAt s 0 0) (ctxOf s 0 0 8 false) v = none ∧ v.knot = 0xF
    ∧ tileReady k s.clk v = true ∧ pipeFreeAt k.vec v.op ≤ s.clk ∧ vinLanded k (unitAt s 0 0) s.clk (ctxOf s 0 0 8 false) v = true := by
  decide +kernel
theorem wit_SequencersStep_repeat_knot : (getCore (repeating (word 96 (.vadd vw))) 0).knots.getLsbD (4#4).toNat = false
    ∧ vinFieldsOk { vinOf .add 0 vw with knot := 4 } = true ∧ vinFault (getCore (repeating 0) 0) (unitAt (repeating 0) 0 0)
      (ctxOf (repeating 0) 0 0 8 false) { vinOf .add 0 vw with knot := 4 } = none := by decide +kernel
theorem wit_SequencersStep_repeat_control : let k := getCore (repeating (word 96 (.vbrAlways 5 true))) 0
    0x70 ≤ rawWord k 8 0 / 2 ^ 88 % 256 ∧ rawWord k 8 0 / 2 ^ 88 % 256 ≤ 0x76 ∧ k.vec.strm.pc.toNat < 8192 := by decide +kernel

/-- A loop of one body word, two trips apart by two clocks: its word is due at clock 0 and none at clock 1. -/
def trips (t : Nat) : ModState :=
  { len := 1, ii := 2, tcur := 2, t := t, exk := 0xF, exs := false, ctr := none, begun := false
    body := [((encode (.vadd vw)).map (·.2)).getD 0] }
def looping (t : Nat) : State :=
  onCore (fun k => { k with vec := { k.vec with strm := { k.vec.strm with mod := some (trips t) } } }) (vectors true [])
theorem wit_SequencersStep_modulo : let s := looping 0
    let k := getCore s 0
    let v := vinOf .add 0 vw
    let c := ctxOf s 0 0 8 false
    vecSlot k = some 0 ∧ mayIssue s 0 0 8 = true ∧ (strmOf k 1 8).mode = .forked ∧ (strmOf k 1 8).mod = some (trips 0)
    ∧ k.mismatch = false ∧ loadBehind s { c with pc := 1, rotb := 0, step := 0 } v = false
    ∧ slotWord 8 { trips 0 with begun := true } = some 0 ∧ fetchRaw 8 ((nth (trips 0).body 0).getD 0) = .instr (.vadd vw)
    ∧ vinOfInstr (.vadd vw) = some (v, 0) ∧ v.op ≠ .nop ∧ v.knot = 0xF ∧ v.take = 0xF ∧ v.give = 0xF ∧ vinFieldsOk v = true
    ∧ vinShapeOk (unitAt s 0 0) k.vec v 0 0 = true ∧ vinFault k (unitAt s 0 0) { c with pc := 1, rotb := 0, step := 0 } v = none
    ∧ tileReady k s.clk v = true ∧ pipeFreeAt k.vec v.op ≤ s.clk
    ∧ vinLanded k (unitAt s 0 0) s.clk { c with pc := 1, rotb := 0, step := 0 } v = true := by decide +kernel
theorem wit_SequencersStep_modulo_none : slotWord 8 { trips 1 with begun := true } = none
    ∧ mayIssue (looping 1) 0 0 8 = true ∧ (strmOf (getCore (looping 1) 0) 1 8).mod = some (trips 1) := by decide +kernel

/-- A vector stream that may issue, and a scalar unit that runs, for a word that is no instruction and one that is not fetched. -/
theorem wit_SequencersStep_illegal : let s := vectors true []
    s.focus.core = 0 ∧ vecSlot (getCore s 0) = some 0 ∧ mayIssue s 0 0 8 = true ∧ (strmOf (getCore s 0) 1 8).mode = .forked
    ∧ (strmOf (getCore s 0) 1 8).mod = none ∧ (getCore s 0).mismatch = false ∧ scalarRuns base = true := by decide +kernel

/-! ## Matrix words -/

/-- An i8 MMAC of one row of handle 1 by one brick of handle 2 into handle 4, and an i32 MEPI of handle 4 into handle 5. -/
def arrayMac : MmacF := { mm with mm1 := 0 }
def arrayEpi : MepiF := { me with fmt := 5, ha := 4, hc := 5 }

/-- Sub-array 0 of one brick, its active set loaded from handle 2, its stream forked at word 0; the four tiles those words name. The
activations are FULL and the destination is not, unless the word is to find them otherwise. -/
def arrays (acts dest : Bool) (k0 : BitVec 16) : State :=
  let scratch : Tile := { tile with rowsm1 := 0, colsm1 := 31 }
  onCore (fun k => { k with
      knots := k0, tokq := [(3, { owner := some 1, count := 0, rsv := 0 })]
      mats := [(0, { Strm.reset with mode := .forked })]
      subs := [(0, { newSub 1 0 .loc 0 1 0 1 0 with afmt := 7, sfmt := 7, atag := [(0, { valid := true, handle := 2, gen := 0 })] })]
      tiles := [(1, { scratch with fmt := 7, full := acts }), (2, { scratch with fmt := 7, pl := 4, rowsm1 := 31, full := true }),
        (4, { scratch with fmt := 5, acc := true, sub := 0 }), (5, { scratch with fmt := 5, full := dest })] })
    { State.reset.withFetchWord 192 0 with parts := [(0, part)] }

/-- Its sub-array. -/
def array (k : Core) : Sub := (subOf k 0).getD (newSub 1 0 .loc 0 1 0 1 0)

/-- The words NOP, MARK, SWAP and MLDW, MMAC, MEPI of each form, as those tiles let them issue. -/
theorem wit_MatrixWordsIssue : let s := arrays true false 0
    let k := getCore s 0
    let b := array k
    let x := tileOf k 2
    matSlot k 0 = some 0 ∧ subOf k 0 = some b ∧ plainForked s 0 0 0 = true ∧ ownsQueue k 1 0xF = true ∧ mi.stampen = false ∧ mi.stamp = 0
    ∧ mi.knot = 0xF ∧ tokensReady k 0xF 0xF = true ∧ b.loadFree ≤ s.clk ∧ k.spoil = []
    ∧ (x.valid = true ∧ x.ownerUid = 1 ∧ x.acc = false ∧ x.pl ≠ 0) ∧ (0 + tileRows x / 32 ≤ b.h ∧ 0 + tileCols x / 32 ≤ b.w ∧ b.sfmt = x.fmt)
    ∧ (x.full = true ∧ x.fullAt ≤ s.clk ∧ x.clearing = none ∧ x.p1 ≠ 0)
    ∧ mmacFieldsOk arrayMac = true ∧ macCheck k b (ctxOf s 0 0 0 false) arrayMac = none
    ∧ (isFull (tileOf k 1) s.clk = true ∧ storageIn (tileOf k 1) = true ∧ storageIn (tileOf k 4) = true ∧ b.arrayFree ≤ s.clk
      ∧ epiReads b 4 = false) ∧ 32 * (tileOf k 4).p2 + tileCols (tileOf k 4) ≤ 512
    ∧ mepiFieldsOk arrayEpi = true ∧ epiCheck s k b (ctxOf s 0 0 0 false) arrayEpi none = none
    ∧ epiCheck s k b (ctxOf s 0 0 0 false) arrayEpi (some { pkg := 0, core := 0, gen := 0 }) = none
    ∧ (storageIn (tileOf k 4) = true ∧ b.drainFree ≤ s.clk ∧ b.flights = [] ∧ isFull (tileOf k 5) s.clk = false
      ∧ storageIn (tileOf k 5) = true ∧ macWritesTile b 4 = false) := by decide +kernel

/-- A queue of another and a token that is not there, a knot clear and set, a stamp to come and one that has passed; a handle MLDW may
not take and a place it has not; formats and extents MMAC and MEPI may not have; and operands that are not ready. -/
theorem wit_MatrixWordsIssue_else : let s := { arrays false true 32 with clk := 5 }
    let k := getCore s 0
    let b := array k
    let c := ctxOf s 0 0 0 false
    ownsQueue k 1 2 = false ∧ ownsQueue k 1 3 = true ∧ tokensReady k 3 0xF = false
    ∧ k.knots.getLsbD (4#4).toNat = false ∧ k.knots.getLsbD (5#4).toNat = true
    ∧ (9#40 + 0 - BitVec.ofNat 40 s.clk).toNat = 4 ∧ 2 ^ 39 ≤ (3#40 + 0 - BitVec.ofNat 40 s.clk).toNat
    ∧ (tileOf k 9).valid = false ∧ ¬(3 + tileRows (tileOf k 2) / 32 ≤ b.h)
    ∧ (macCheck k b c { arrayMac with fmt := 0 }).any (fun x => x.1 != 0x0E) = true
    ∧ macCheck k b c arrayMac = none ∧ isFull (tileOf k 1) s.clk = false
    ∧ (epiCheck s k b c { arrayEpi with ha := 5 } none).any (fun x => x.1 != 0x0E) = true
    ∧ epiCheck s k b c arrayEpi none = none ∧ isFull (tileOf k 5) s.clk = true := by decide +kernel
theorem wit_MatrixWordsIssue_stamped : ({ mi with stampen := true, stamp := 0 } : MIssue).stampen = true
    ∧ plainForked (arrays false true 32) 0 0 0 = true ∧ (0#40 + 0 - BitVec.ofNat 40 (arrays false true 32).clk).toNat = 0
    ∧ ¬(isFull (tileOf (getCore (arrays false true 32) 0) 2) 0 = true ∧ (array (getCore (arrays false true 32) 0)).loadFree ≤ 0
      ∧ tokensReady (getCore (arrays false true 32) 0) 3 0xF = true) := by decide +kernel

/-- A word of the activations is uncorrectable, or none that the MMAC reads; and so with an MEPI's scale. -/
theorem wit_MatrixWordsIssue_spoilt : let s := arrays true false 0
    let k := getCore s 0
    let bad (w : Nat) : Core := { k with spoil := [tileKey (tileOf k 1) w] }
    macSpoilt k arrayMac = false ∧ macSpoilt (bad 0) arrayMac = true ∧ macSpoilt (bad 64) arrayMac = false
    ∧ epiSpoilt k arrayEpi = false ∧ epiSpoilt (bad 0) { arrayEpi with hw := 1, scm := 1 } = true := by decide +kernel

/-- The same MMAC of F16, into F32. -/
theorem wit_MatrixWordsIssue_float : let s := onCore (fun k => { k with
      subs := k.subs.map (fun e => (e.1, { e.2 with afmt := 2 }))
      tiles := k.tiles.map (fun e => (e.1, { e.2 with fmt := if e.1 = 4 then 0 else 2 })) }) (arrays true false 0)
    macCheck (getCore s 0) (array (getCore s 0)) (ctxOf s 0 0 0 false) { arrayMac with fmt := 2 } = none
    ∧ integerPath .f16 .f16 = false ∧ integerPath .i8 .i8 = true ∧ mmacFieldsOk { arrayMac with fmt := 2 } = true := by decide +kernel

/-- The control words: a counter of 2, a word in flight, bodies that are well and that are not, and the stamps of the words above. -/
def matrixWords (fs : List MFlight) (ws : List (Nat × BitVec 192)) : State :=
  onCore (fun k => { k with
      imemM := ws, mats := k.mats.map (fun e => (e.1, { e.2 with lc2 := 2 }))
      subs := k.subs.map (fun e => (e.1, { e.2 with flights := fs })) }) (arrays true false 32)
theorem wit_MatrixControlWords : let s := matrixWords [] []
    let k := getCore s 0
    let body := (span 1 1).map (rawWord k 0)
    matSlot k 0 = some 0 ∧ subOf k 0 = some (array k) ∧ plainForked s 0 0 0 = true ∧ (matOf k 0).passed = false
    ∧ ({ matOf k 0 with passed := true } : Strm).passed = true ∧ mc.stampen = false ∧ mc.stamp = 0
    ∧ k.knots.getLsbD (4#4).toNat = false ∧ k.knots.getLsbD (5#4).toNat = true
    ∧ ¬(1 < 1) ∧ ¬(8191 < (matOf k 0).pc.toNat + 1) ∧ ¬(0x08 ≤ (nth body 0).getD 0 / 2 ^ 184 % 256) ∧ k.badWords = []
    ∧ (matOf k 0).lc2 ≠ 0 ∧ (matOf k 0).lc3 = 0 ∧ (3#16).toNat < 4 ∧ (2#16).toNat < 4 ∧ 4 ≤ (4#16).toNat ∧ (1#6).toNat + 1 < (2#6).toNat + 1 := by decide +kernel
theorem wit_MatrixControlWords_flight : ((array (getCore (matrixWords [mflight] []) 0)).flights.all (·.retired)) = false
    ∧ plainForked (matrixWords [mflight] []) 0 0 0 = true := by decide +kernel
theorem wit_MatrixControlWords_loop : let s := matrixWords [] [(1, word 192 (.mbrEnd mc)), (3, word 192 (.mnop mi))]
    let k := getCore s 0
    0x08 ≤ rawWord k 0 1 / 2 ^ 184 % 256 ∧ rawWord k 0 1 / 2 ^ 184 % 256 ≤ 0x0B ∧ rawWord k 0 2 / 2 ^ 184 % 256 ≠ 0x0C
    ∧ rawWord k 0 3 / 2 ^ 184 % 256 = 0x0C := by decide +kernel

/-! ## Matrix words retire, deposits land -/

/-- One word in flight with the given effect, due now; a retained word since the mark; and sub-array 0 upset, if it is. -/
def retiring (e : MEffect) (up : List SubUpset) : State :=
  onCore (fun k => { k with
      upset := up
      subs := k.subs.map (fun x => (x.1, { x.2 with
        age := 1, flights := [{ mflight with effect := e }]
        win := [{ word := .mmac mi arrayMac, id := 0, pc := 7, issue := 3, due := 6, mark := false, handles := [], effect := .mac 4 [2] true [], blocks := [2], accdis := true, mepi := false, out := 0
                  sets := [], clears := [], bad := false }] })) }) { arrays true false 0 with clk := 9 }

/-- A weight tile of one brick whose first digit has both its magnitude bits, which is reserved, and the same without them. -/
def coded (s : State) : State :=
  onCore (fun k => { k with scratch := mapSet [(tileKey (tileOf k 2) 32, 1)] (tileKey (tileOf k 2) 64) 1 }) s
def brick : Tile := tileOf (getCore (arrays true false 0) 0) 2

theorem wit_MatrixWordsRetire : ∀ e ∈ ([.none, .epi 4, .mac 4 [] false [], .epiRemote 4 [], .mac 4 [] true [2], .again false, .again true]
      : List MEffect),
    let s := retiring e []
    let k := getCore s 0
    let b := array k
    subOf k 0 = some b ∧ firstDue (b.flights.filter (mayRetire s 0 0)) = some { mflight with effect := e }
    ∧ (matOf k 0).mode ≠ .stopping := by decide +kernel
/-- The word waits for a remote row, or for a contribution of its own that stands in a landing row. -/
theorem wit_MatrixWordsRetire_waits : ∀ x ∈ [(1, []), (0, [Park.mk (.mat 0 0 0) 5 0 0 1 0 0 .write 0 false])],
    let f : MFlight := { mflight with effect := .epi 4, unacked := x.1 }
    let s := onCore (fun k => { k with parked := x.2, subs := k.subs.map (fun y => (y.1, { y.2 with flights := [f] })) })
      { arrays true false 0 with clk := 9 }
    firstDue ((array (getCore s 0)).flights.filter (mayRetire s 0 0)) = some f
    ∧ 0 < f.unacked + ((getCore s 0).parked.filter (fun p => p.src == .mat 0 0 f.id)).length := by decide +kernel
theorem wit_MatrixWordsRetire_load : let s := retiring (.load brick 2 4 true 0 0) []
    let k := getCore s 0
    firstDue ((array k).flights.filter (mayRetire s 0 0)) = some { mflight with effect := .load brick 2 4 true 0 0 }
    ∧ 32 * 0 + tileCols brick ≤ 512
    ∧ (∀ i, i < tileRows brick → ∀ j, j < tileCols brick → cellReserved (tileFmt brick) (loadedCell k brick 0 4 i j) = false)
    ∧ cellReserved (tileFmt brick) (loadedCell (getCore (coded s) 0) brick 0 4 0 0) = true := by decide +kernel

/-- An upset of sub-array 0 since clock 8, of one of its accumulator blocks. -/
def upset9 : SubUpset := { sub := 0, due := 8, block := some 2, cause := 0x0D }
/-- An upset of a sub-array that replays, and of one that has its last replay still before it. -/
theorem wit_MatrixWordsRetire_upset : let s := retiring .none [upset9]
    let k := getCore s 0
    let b := array k
    k.upset = [upset9] ∧ upset9.sub = 0 ∧ upset9.due ≤ s.clk ∧ slotOfUid k b.holder = some 0 ∧ b.replayTo ≤ s.clk ∧ mayReplay s 0 0 b = true ∧ (sinceMark b).length = 1
    ∧ (unitAt s 0 0).group.getLsbD 0 = false ∧ bypasses s (unitAt s 0 0) 0x0D = false ∧ (matOf k 0).mode ≠ .stopping
    ∧ mayReplay s 0 0 { b with age := 65 } = false := by decide +kernel
/-- A word since the mark that has retired already is to be put in flight again. -/
theorem wit_MatrixWordsRetire_second : let s := retiring .none [upset9]
    (sinceMark (array (getCore s 0))).all (fun w => (array (getCore s 0)).flights.any (fun f => f.id == w.id)) = true
    ∧ (sinceMark { array (getCore s 0) with flights := [] }).map (·.id) = [0] := by decide +kernel
theorem wit_MatrixWordsRetire_trace : (partOf { retiring .none [upset9] with parts := [] } 0).trlen < 96
    ∧ mayReplay { retiring .none [upset9] with parts := [] } 0 0 (array (getCore (retiring .none [upset9]) 0)) = true := by
  decide +kernel

/-- Deposits of an f32 word into a tile of one element: writing and adding, held and not, of a tile that may take it, one whose last
it is, one FULL, one being cleared, and one that is no longer allocated. -/
def dep (kind : DepKind) : Deposit :=
  { src := .cmd 0, core := 0, handle := 5, gen := 0, word := 0, data := 1, mask := 1, kind := kind, ranked := none, cls := 0
    due := 0, held := false, bad := false }
def depositing (d : Deposit) (t : Tile) : State := { tiled t with deps := [d] }
theorem wit_MatrixWordsRetire_deposits : ∀ x ∈ ([dep .write, dep (.sum .f32), { dep .write with held := true }] : List Deposit),
    nth (depositing x tile).deps 0 = some x ∧ x.due ≤ (depositing x tile).clk ∧ x.ranked = none
    ∧ handleRefused (getCore (depositing x tile) 0) x = false ∧ codeRefused (getCore (depositing x tile) 0) x = false
    ∧ releaseWaits (depositing x tile) x = false ∧ mapFind (getCore (depositing x tile) 0).seen 5 = none ∧ tile.clearing = none ∧ tile.p1 ≠ 0 ∧ tile.full = false
    ∧ handleRefused (getCore (depositing x { tile with full := true }) 0) x = false ∧ isFull { tile with full := true } 0 = true
    ∧ handleRefused (getCore (depositing x { tile with clearing := some 9 }) 0) x = false
    ∧ (tileOf (getCore (depositing x { tile with valid := false }) 0) 5).valid = false
    ∧ (tileOf (getCore (depositing x { tile with target := 1 }) 0) 5).arrival + 1 = 1 := by decide +kernel
theorem wit_MatrixWordsRetire_clearing : let s := depositing (dep .write) { tile with clearing := some 3 }
    (tileOf (getCore s 0) 5).clearing = some 3 ∧ s.clk < 3 ∧ 3 ≤ ({ s with clk := 4 } : State).clk := by decide +kernel
/-- A deposit that is early, one behind another of its agent, and one whose tile a TSETF has seen in this clock. -/
theorem wit_MatrixWordsRetire_ordered : ({ dep .write with due := 1 } : Deposit).due > (depositing (dep .write) tile).clk
    ∧ (∃ e ∈ ({ depositing (dep .write) tile with deps := [dep .write, dep .write] } : State).deps.take 1,
        e.src = (dep .write).src ∧ e.cls = (dep .write).cls)
    ∧ mapFind (getCore (onCore (fun k => { k with seen := [(5, 0)] }) (depositing (dep .write) tile)) 0).seen 5 = some 0 := by
  refine ⟨by decide +kernel, ⟨dep .write, by decide +kernel, rfl, rfl⟩, by decide +kernel⟩
/-- A T2 sum into the reserved code is refused; and a VSTT's last word of a tile waits for an earlier store of its unit. -/
theorem wit_MatrixWordsRetire_refused : let x := { dep (.sum .t2) with data := 2, mask := 3 }
    let T : Tile := { tile with fmt := 12 }
    handleRefused (getCore (depositing x T) 0) x = false ∧ codeRefused (getCore (depositing x T) 0) x = true := by decide +kernel
theorem wit_MatrixWordsRetire_release : let d := { dep .write with src := .vec 0 0 }
    let s := onCore (fun k => { k with accs := [access (.store 5) true], vec := { k.vec with flights := [{ flight with issue := 5 }] } })
      (depositing d { tile with target := 1 })
    handleRefused (getCore s 0) d = false ∧ codeRefused (getCore s 0) d = false ∧ releaseWaits s d = true := by decide +kernel

/-! ## Quads and pages -/

/-- Quad 0 in a given condition, at a given TNS, with or without a live unit in its cores. -/
def quadded (x : Quadrant) (tns : Nat) (live : Bool) : State :=
  onUnit (fun u => { u with live := live }) { base with quads := [(0, x)], tb := { base.tb with tns := tns } }
def atRest : Quadrant := { serving := true, stopping := false, test := none, passed := 0, failed := [] }
theorem wit_QuadsAndPages_test : (quadAt (quadded atRest 0 true) 0).test = none ∧ (quadAt (quadded atRest 0 true) 0).failed = []
    ∧ (unitAt (quadded atRest 0 true) 0 0).live = true ∧ (unitAt (quadded atRest 0 true) 0 0).ending = none := by decide +kernel
theorem wit_QuadsAndPages_empty (c : Nat) : c / 4 = 0 → ∀ e ∈ (getCore (quadded atRest 0 false) c).units, e.2.live = false := by
  intro h
  have h4 : c < 4 := by omega
  have all : ∀ j, j < 4 → ∀ e ∈ (getCore (quadded atRest 0 false) j).units, e.2.live = false := by decide +kernel
  exact all c h4
theorem wit_QuadsAndPages_ends : (quadAt (quadded { atRest with test := some 5 } 2000005 false) 0).test = some 5
    ∧ 5 + 2000000 ≤ (quadded { atRest with test := some 5 } 2000005 false).tb.tns
    ∧ (quadded { atRest with test := some 5 } 2000004 false).tb.tns < 5 + 2000000 := by decide +kernel
def quadJournal : State :=
  onCore (fun k => { k with journal := [{ part := 0, pkg := none, first := 1, last := 1 }] })
    (quadded { atRest with test := some 5 } 2000005 false)
theorem wit_QuadsAndPages_journal : (getCore quadJournal 0).journal = [{ part := 0, pkg := none, first := 1, last := 1 }]
    ∧ mapHas quadJournal.parts 0 = true ∧ (quadAt quadJournal 0).test = some 5 := by decide +kernel
theorem wit_QuadsAndPages_spare : let s := quadded { atRest with failed := [1] } 0 true
    1 % 4 ∈ (quadAt s (1 / 4)).failed ∧ (∀ e ∈ (getCore s 1).units, e.2.live = false) ∧ lentTo s 1 = none
    ∧ (s.spares.filter (fun e => e.1 / 4 == 1 / 128)).length < 4
    ∧ 4 ≤ (({ s with spares := [(0, 8), (1, 9), (2, 10), (3, 11)] } : State).spares.filter (fun e => e.1 / 4 == 1 / 128)).length := by
  decide +kernel

/-- The paged state with a second frame for its page, and a task and a translation in the first. -/
def movable : State :=
  onCore (fun k => { k with tlb := [{ part := 0, vpage := 0, span := 0x20000000, leaf := placedLeaf }] })
    { paged with
      parts := [(0, { part with wins := part.wins ++ [{ base := 0x20000000, len := 0x20000000, tier := 1 }] })]
      tasks := [(1, { task with va := 0x6000, pa := 0x6000 })], cmds := [runOf { cmd 0 (fillQuad 0) [] [] with pins := [bigPin] }] }
def mig : Mig := { part := 0, va := 0, span := 0x20000000, old := 0, new := 0x20000000 }
theorem wit_QuadsAndPages_migrates : let s := movable
    let pt := partOf s 0
    let leaf : Word := BitVec.ofNat 64 (memNat s.mem 0x30000 8)
    leafPlace s.mem 0x6000 walkLevels pt.root = some (0x30000, 29) ∧ mapHas s.parts 0 = true ∧ (0x6000#64).toNat < 2 ^ 55
    ∧ 65536 * 0x2000 % 2 ^ 29 = 0 ∧ inWindows pt (65536 * 0x2000) = true ∧ inWindows pt (65536 * 0x2000 + 2 ^ 29 - 1) = true
    ∧ leaf.getLsbD 38 = false ∧ (withMig leaf true).getLsbD 38 = true ∧ runOver (retentionRanges s) (65536 * pteBits leaf 0 36) (2 ^ 29) = false
    ∧ (let t := { s with boxes := [(1, { Mailbox.reset with cmd := some { w0 := 3, w1 := 0x101, w2 := 0, w3 := 0, w4 := 0, w5 := 0, w6 := 0, w7 := 0 } })] }
      runOver (retentionRanges t) (65536 * pteBits leaf 0 36) (2 ^ 29) = true ∧ pageTier 0x10000000000 = 2) := by decide +kernel
theorem wit_QuadsAndPages_remaps : let s := { movable with migs := [mig] }
    Memory.wf s.mem = true ∧ nth s.migs 0 = some mig ∧ 0 < mig.span ∧ mig.old + mig.span ≤ mig.new
    ∧ leafPlace (copyPage mig s.mem) mig.va walkLevels (partOf s mig.part).root = some (0x30000, 29)
    ∧ taskOf s 1 = some { task with va := 0x6000, pa := 0x6000 } ∧ (nth s.cmds 0).isSome = true ∧ s.heldw = []
    ∧ pagesIn { s with mem := copyPage mig s.mem } (partOf s mig.part) (fun f => decide (mig.old ≤ f ∧ f < mig.old + mig.span)) =
        [(mig.va, 0x20000000, withMig placedLeaf false)]
    ∧ (∃ e ∈ (getCore s 0).tlb, e.part = mig.part ∧ e.vpage = mig.va ∧ 65536 * pteBits e.leaf 0 36 = mig.old) := by decide +kernel

/-- A record at 0x9000 that names two pages, malformed or not; what is under way on a range that is in use, or not. -/
def invalRecord (n : Nat) (at13 : Byte) : State :=
  { movable with mem := memSetBytes movable.mem 0x9000 (leBytes 8 0x10000 ++ leBytes 4 n ++ [0, at13]) }
theorem wit_QuadsAndPages_invalidates : let r := memBytes (invalRecord 2 0).mem 0x9000 16
    mapHas (invalRecord 2 0).parts 0 = true ∧ mapHas (invalRecord 2 0).parts 1 = false ∧ (0x9000#64).toNat % 16 = 0
    ∧ fieldNat r 0 8 = 0x10000 ∧ fieldNat r 8 4 = 2 ∧ fieldNat r 13 3 = 0 ∧ fieldNat (memBytes (invalRecord 2 1).mem 0x9000 16) 13 3 ≠ 0
    ∧ usesRange { invalRecord 2 0 with cmds := [], tasks := [] } 0 0x10000 0x30000 = false
    ∧ usesRange (invalRecord 2 0) 0 0x10000 0x30000 = true := by decide +kernel

/-! ## Mailboxes, resets and the time base -/

/-- The window of an operation of partition `p` (or stack), with its words at 8 and 16. -/
def window (op p : Nat) (w1 w2 : Word) : Window :=
  { w0 := BitVec.ofNat 64 (op + 256 * p), w1 := w1, w2 := w2, w3 := 0, w4 := 0, w5 := 0, w6 := 0, w7 := 0 }

/-- The descriptor of a partition with key 5 alone, of given armed tasks. -/
def descriptor (p arms : Nat) : List Byte :=
  [BitVec.ofNat 8 p, 1] ++ leBytes 2 arms ++ leBytes 2 5 ++ leBytes 2 1 ++ leBytes 2 5 ++ leBytes 2 5 ++ List.replicate 244 0

/-- That descriptor at 0x8000; the partition of it exists, or not. -/
def managed (bs : List Byte) (old : List (Nat × Part)) : State :=
  { paged with mem := memSetBytes paged.mem 0x8000 bs, parts := old }
theorem wit_MailboxCommands_create : let s := managed (descriptor 3 4) [(0, part)]
    let r := windowBytes (window 1 3 0x8000 0)
    let b := memBytes s.mem 0x8000 256
    fieldNat r 1 1 = 3 ∧ fieldNat r 5 3 = 0 ∧ fieldNat r 24 40 = 0 ∧ fieldNat r 16 8 = 0 ∧ fieldNat r 8 8 = 0x8000 ∧ fieldNat r 0 1 = 1
    ∧ s.fw.verified = true ∧ (boxOf s 0).cmd = none ∧ partBad b 3 = false ∧ armsBad s 3 (partOfBytes b) = false
    ∧ mapHas s.parts 3 = false ∧ partRefused s 3 (partOfBytes b) = false
    ∧ partBad (memBytes (managed (descriptor 2 4) []).mem 0x8000 256) 3 = true
    ∧ partRefused (managed (descriptor 3 4) [(0, { part with keybase := 5 })]) 3 (partOfBytes b) = true := by decide +kernel
theorem wit_MailboxCommands_resize : let s := managed (descriptor 3 4) [(3, { partOfBytes (descriptor 3 2) with quads := [7] })]
    let b := memBytes s.mem 0x8000 256
    let old := partOf s 3
    partBad b 3 = false ∧ armsBad s 3 (partOfBytes b) = false ∧ mapHas s.parts 3 = true ∧ fixedChanged old.raw b = false
    ∧ partRefused s 3 (partOfBytes b) = false ∧ (∀ j ∈ barsLost old (partOfBytes b), barHeld s j = false)
    ∧ (∀ j ∈ nodesLost old (partOfBytes b), (nodeOf s j).live = 0)
    ∧ fixedChanged (partOf (managed (descriptor 3 4) [(3, part)]) 3).raw b = true
    ∧ mapHas (managed (descriptor 3 4) []).parts 3 = false := by decide +kernel
theorem wit_MailboxCommands_others : fieldNat (windowBytes (window 7 0 0 0)) 0 1 = 7 ∧ fieldNat (windowBytes (window 0 0 0 0)) 0 1 = 0
    ∧ ¬(fieldNat (windowBytes (window 3 16 0 0)) 1 1 < 16)
    ∧ (boxOf { paged with boxes := [(0, { Mailbox.reset with cmd := some (window 3 0 0 0) })] } 0).cmd.isSome = true
    ∧ ({ paged with fw := { paged.fw with verified := false } } : State).fw.verified = false
    ∧ mapHas paged.parts 0 = true ∧ fieldNat (windowBytes (window 4 0 0 2048)) 16 8 = 2048 ∧ fieldNat (windowBytes (window 4 0 0 0)) 16 8 = 0
    ∧ (unitAt paged 0 0).live = true ∧ (unitAt paged 0 0).ending = none ∧ (unitAt paged 0 0).part = 0
    ∧ (unitAt paged 0 0).part ≠ 5 ∧ fieldNat (windowBytes (window 5 0 0 16)) 16 8 = 16 := by decide +kernel

/-- A partition whose one page, of 4 TiB, begins in group 0 of stack 0, and which has no window of tier 2 to take it. -/
def wide : State := mem 0x10000 8 (2 ^ 36 + 2) (mem 0x20000 8 placedLeaf.toNat { base with parts := [(0, part)] })

/-- RETAIN of group 1 of stack 0, in and out, and of group 0, whose page a partition may be unable to move; and what is malformed. -/
theorem wit_MailboxCommands_retain : let r := windowBytes (window 3 0 0x102 0)
    fieldNat r 1 1 < 4 ∧ fieldNat r 8 1 = 2 ∧ fieldNat r 9 1 = 1 ∧ fieldNat (windowBytes (window 3 0 0x2 0)) 9 1 = 0
    ∧ 15 < fieldNat (windowBytes (window 3 0 0x10 0)) 8 1 ∧ 1 < fieldNat (windowBytes (window 3 0 0x200 0)) 9 1
    ∧ fieldNat (windowBytes (window 3 0 0x100 0)) 8 1 = 0 ∧ fieldNat (windowBytes (window 3 0 0x100 0)) 9 1 = 1
    ∧ 3 < fieldNat (windowBytes (window 1 4 0 0)) 1 1 := by decide +kernel
theorem wit_MailboxCommands_retain_pages : cannotTake wide part (groupRanges 0 1) = true ∧ cannotTake paged part (groupRanges 0 2) = false := by
  decide +kernel
theorem wit_MailboxCommands_retain_kept : ¬∃ e ∈ paged.parts, cannotTake paged e.2 (groupRanges 0 2) = true := by
  rw [show paged.parts = [(0, part)] by decide +kernel]
  rintro ⟨e, he, h⟩
  rw [List.mem_singleton.mp he, wit_MailboxCommands_retain_pages.2] at h
  exact Bool.false_ne_true h
theorem wide_parts : wide.parts = [(0, part)] := by decide +kernel

/-- Groups on their way into retention, and one that a command still uses. -/
def leaving (used : Bool) : State :=
  { paged with
    hbm := [(0, { scrub := 0, retained := 0, leaving := 1 })]
    cmds := if used = true then [runOf { cmd 0 (fillQuad 0) [] [] with pins := [bigPin] }] else [] }
theorem wit_MailboxCommands_powerOff : (stackOf (leaving false) 0).leaving ≠ 0
    ∧ usesPhysical (leaving false) (runOver (groupRanges 0 1)) = false ∧ usesPhysical (leaving true) (runOver (groupRanges 0 1)) = true
    ∧ (boxOf (leaving false) 1).window = windowOf [] ∧ (stackOf paged 0).leaving = 0 := by decide +kernel

/-- A RECOVER in form, malformed, and with a partition there; whether an image verifies is a free value, which no state settles. -/
theorem wit_MailboxCommands_recover : let r := windowBytes (window 1 0 0x1000 64)
    fieldNat r 0 1 = 1 ∧ fieldNat r 1 1 = 0 ∧ fieldNat r 5 3 = 0 ∧ fieldNat r 20 44 = 0 ∧ fieldNat r 8 8 % 4096 = 0
    ∧ fieldNat (windowBytes (window 1 1 0 0)) 1 1 ≠ 0 ∧ paged.parts ≠ [] ∧ State.reset.parts = [] ∧ (boxOf paged 2).cmd = none := by
  decide +kernel

/-- An accepted RECOVER, of an image that verifies as the free values have it. -/
theorem wit_MailboxCommands_recover_good (h : Config.firmwareVerifies (Config.hostBytes State.reset.fresh 64) = true) :
    let r := windowBytes (window 1 0 0x1000 64)
    let img := Config.hostBytes State.reset.fresh (fieldNat r 16 4)
    (boxOf State.reset 2).cmd = none ∧ fieldNat r 0 1 = 1 ∧ State.reset.parts = []
    ∧ ¬(fieldNat r 1 1 ≠ 0 ∨ fieldNat r 5 3 ≠ 0 ∨ fieldNat r 20 44 ≠ 0 ∨ fieldNat r 8 8 % 4096 ≠ 0)
    ∧ Config.firmwareVerifies img = true ∧ State.reset.fw.fused.toNat ≤ (Config.firmwareSeq img).toNat :=
  ⟨rfl, rfl, rfl, by decide +kernel, h, Nat.zero_le _⟩

/-- A DESTROY that waits for its unit, one whose units are over, and one that frees what nothing uses. -/
def destroying (freeing : Bool) (ps : List (Nat × Part)) (s : State) : State :=
  { s with parts := ps, boxes := [(0, { Mailbox.reset with window := window 3 0 0 0, cmd := some (window 3 0 0 0), freeing := freeing })] }
theorem wit_MailboxCommands_destroys : let r := windowBytes (window 3 0 0 0)
    fieldNat r 0 1 = 3 ∧ fieldNat r 1 1 = 0 ∧ unitsOver (destroying false [(0, part)] paged) 0 = false
    ∧ unitsOver (destroying false [(0, part)] State.reset) 0 = true ∧ partQuiet (destroying true [(0, part)] State.reset) 0 = true
    ∧ (boxOf (destroying true [(0, part)] State.reset) 0).window = window 3 0 0 0
    ∧ Memory.wf (destroying true [(0, part)] State.reset).mem = true := by decide +kernel

/-- A partition there and not; a place in a window and past it; a reset that is due and not; a partition without tasks; no partition. -/
theorem wit_ResetsAndTime : mapHas paged.parts 0 = true ∧ mapHas paged.parts 5 = false ∧ (0x108 % 8 = 0 ∧ 0x108 / 256 < 3 ∧ 0x108 % 256 < 64)
    ∧ 3 ≤ 0x300 / 256 ∧ 64 ≤ 0x40 % 256 ∧ paged.fw.verified = true
    ∧ ({ base with fw := { base.fw with resetAt := some 0 } } : State).fw.resetAt = some 0 ∧ 0 ≤ base.clk
    ∧ ({ base with fw := { base.fw with resetAt := some 1000 } } : State).fw.resetAt = some 1000 ∧ base.clk < 1000
    ∧ (∀ d ∈ partNodes (partOf paged 0), tasksUnder paged d = []) ∧ 0 < 400 ∧ State.reset.parts = []
    ∧ 500000000 ≤ 500000000 % 1000000000 ∧ State.reset.tb.tns % 1000000000 < 500000000 := by decide +kernel

/-! ## Encodings and steps -/

/-- A scalar, a vector and a matrix instruction that has a word; an event has none. -/
theorem wit_DecodeUndoesEncode : Instr.wf (.add 3 4 5) = true ∧ encode (.add 3 4 5) = some (32, 0x04642800)
    ∧ Instr.wf (.vadd vw) = true ∧ encode (.vadd vw) = some (96, 0x0108_0508_0104_0180_000F_FF00)
    ∧ Instr.wf (.mswap mi) = true ∧ (encode (.mswap mi)).isSome = true ∧ encode .coldReset = none := by decide +kernel

/-- A unit about to issue the NOP at address 0, first in its core's turn, with the line of that word in the core's cache. -/
def fetching : State :=
  let s := State.reset.withFetchWord 32 1
  setCore s 0 { getCore s 0 with icache := [(0, false)] }
theorem wit_StepRunsDecodedInstruction_scalar : ∃ t0, let s := fetching
    let k := getCore s 0
    let s1 := { s with turns := [] }
    let t := fetchLine t0 0
    (dueNow s = none ∧ s.turns = [.scalar 0] ∧ k.issuedAt ≠ some s.clk ∧ (0 : Nat) = (k.lastSlot + 1) % 4 ∧ slotMayIssue s1 0 0 = true
      ∧ (unitAt s 0 0).pc.toNat % 4 = 0 ∧ walkHeld (takeIssue (focusOn s1 0 0 0)) (unitAt s 0 0).pc = false)
    ∧ translate (takeIssue (focusOn s1 0 0 0)) (unitAt s 0 0).pc .fetch = (.ok 0 placedLeaf, t0)
    ∧ poisoned t0 0 4 = false ∧ (0, false) ∈ (curCore t0).icache ∧ (0, true) ∉ (curCore t0).icache
    ∧ decodeScalar (memNat t.mem 0 4) = .instr .nop ∧ regsUsable k (unitAt s 0 0) s.clk .nop = true
    ∧ heldWord .nop t (exec .nop t) = false ∧ (unitAt t 0 0).diverged = false
    ∧ checkHeld 0 0 (comparedAs .nop) t (exec .nop t) = false
    ∧ (rivalOf 0 (9 + issuedSlot 0 s1 (exec .nop t)) s1 (exec .nop t)).isNone = true :=
  ⟨(translate (takeIssue (focusOn { fetching with turns := [] } 0 0 0)) 0 .fetch).2, by decide +kernel⟩

/-- A sequencer about to issue a vector word, and a sub-array's a matrix word. -/
theorem wit_StepRunsDecodedInstruction_vector : let s := State.reset.withFetchWord 96 (word 96 (.vadd vw)).toNat
    let k := getCore s 0
    dueNow s = none ∧ s.turns = [.vector 0] ∧ vecSlot k = some 0 ∧ k.vec.strm.mode = .forked ∧ k.vec.strm.mod = none
    ∧ k.vec.strm.repcnt = 0 ∧ mayIssue { s with turns := [] } 0 0 8 = true ∧ k.vec.strm.pc.toNat < 8192
    ∧ k.badWords.contains k.vec.strm.pc.toNat = false
    ∧ decodeVector (mapGet 0 k.imemV k.vec.strm.pc.toNat).toNat = .instr (.vadd vw)
    ∧ (rivalOf 0 0 { s with turns := [] } (exec (.vadd vw) (focusOn { s with turns := [] } 0 0 0))).isNone = true := by decide +kernel
theorem wit_StepRunsDecodedInstruction_matrix : let s := State.reset.withFetchWord 192 (word 192 (.mswap mi)).toNat
    let k := getCore s 0
    dueNow s = none ∧ s.turns = [.matrix 0 0] ∧ matSlot k 0 = some 0 ∧ (matOf k 0).mode = .forked ∧ (matOf k 0).mod = none
    ∧ mayIssue { s with turns := [] } 0 0 0 = true ∧ (matOf k 0).pc.toNat < 8192 ∧ k.badWords.contains (8192 + (matOf k 0).pc.toNat) = false
    ∧ decodeMatrix (mapGet 0 k.imemM (matOf k 0).pc.toNat).toNat = .instr (.mswap mi)
    ∧ (rivalOf 0 1 { s with turns := [] } (exec (.mswap mi) (focusOn { s with turns := [] } 0 0 0))).isNone = true := by decide +kernel
/-- A unit at a knot that is not set: its retry changes nothing, so nothing goes before it. -/
theorem wit_StepRunsDecodedInstruction_occur : let s := waiting (.knotWait 3) base
    atTalloc (unitAt s 0 0) = false ∧ (rivalOf 0 9 s (exec (.scalarWaitResume 0 0) s)).isNone = true
    ∧ issuedSlot 0 State.reset (turnScalar 0 State.reset) = 4 ∧ isStep (.scalarWaitResume 0 0) = true
    ∧ (chanOf { base with chans := [(15, { chan with owes := some [] })] } 15).owes.isSome = true := by decide +kernel
/-- After reset there is no turn, and nothing that could be done. -/
theorem reset_moves : partMoves State.reset ++ State.reset.cores.flatMap (fun e => coreMoves State.reset e.1 e.2) =
    [execRetentionPowerOff 0, execRetentionPowerOff 1, execRetentionPowerOff 2, execRetentionPowerOff 3, execRecoverReset] := rfl
theorem wit_StepRunsDecodedInstruction_idle : State.reset.turns = [] ∧ dueNow State.reset = none
    ∧ ∀ m ∈ partMoves State.reset ++ State.reset.cores.flatMap (fun e => coreMoves State.reset e.1 e.2), m State.reset = .next State.reset := by
  refine ⟨rfl, rfl, ?_⟩
  rw [reset_moves]
  intro m hm
  simp only [List.mem_cons, List.not_mem_nil, or_false] at hm
  rcases hm with rfl | rfl | rfl | rfl | rfl <;> rfl

/-- A HOD.FILL at the head of its port's queue, at its engine's turn; and a step of the part that the schedule names. -/
theorem wit_StepRunsDecodedInstruction_others : let s := { posted (cmd 0 (fillQuad 0) [] []) base with turns := [.engine 0 0 0] }
    dueNow s = none ∧ (cmdInstr (cmd 0 (fillQuad 0) [] [])).isSome = true
    ∧ queueAt { s with turns := [] } { core := 0, slot := 0 } 0 = [cmd 0 (fillQuad 0) [] []]
    ∧ ({ base with turns := [.occur (.quadTest 0)] } : State).turns = [.occur (.quadTest 0)] ∧ isStep (.quadTest 0) = true
    ∧ dueNow { base with turns := [.occur (.quadTest 0)] } = none := by decide +kernel

theorem wit_MemoryStaysCanonical : MemoryCanonical (State.reset.withFetchWord 32 1) := by unfold MemoryCanonical; decide +kernel
theorem wit_TokenQueuesStayBounded : (State.reset.withFetchWord 32 1).aways = []
    ∧ ∀ c, TokensBounded (getCore (State.reset.withFetchWord 32 1) c) := by
  refine ⟨rfl, fun c q => ?_⟩
  cases c with
  | zero => exact Nat.zero_le 32
  | succ n => exact Nat.zero_le 32
theorem wit_MemoryStaysCanonical_steps : ∃ t, step (State.reset.withFetchWord 32 1) = .next t := by
  have h : (match step (State.reset.withFetchWord 32 1) with
    | .next _ => true
    | _ => false) = true := by decide +kernel
  revert h
  cases step (State.reset.withFetchWord 32 1) with
  | next t => exact fun _ => ⟨t, rfl⟩
  | fault f => exact fun h => nomatch h
  | refused r => exact fun h => nomatch h

/-! ## Results the spec writes out -/

/-- R126, R127, R129, R130: the values of the scalar chapter's worked example. -/
def edges : State := reg 4 0x8000000000000000 (reg 5 0xFFFFFFFFFFFFFFFF base)
theorem test_scalar_edges :
    ∀ x ∈ ([(.hset 4 3 0x8000, 4, 0x8000000000000000), (.addi 5 0 0xFFFF, 5, 0xFFFFFFFFFFFFFFFF),
      (.clz 10 4, 10, 0), (.ctz 11 4, 11, 63), (.srai 12 4 63, 12, 0xFFFFFFFFFFFFFFFF),
      (.mulhu 13 5 5, 13, 0xFFFFFFFFFFFFFFFE)] : List (Instr × BitVec 5 × Word)),
      regRead (after x.1 edges) x.2.1 = x.2.2 := by decide +kernel
theorem test_division_edges :
    ∀ x ∈ ([(.div 6 4 5, 0x8000000000000000), (.rem 7 4 5, 0), (.divu 8 5 0, 0xFFFFFFFFFFFFFFFF), (.rem 9 5 0, 0xFFFFFFFFFFFFFFFF)]
      : List (Instr × Word)), ((curCore (after x.1 edges)).divider.map (·.value)) = some x.2
      ∧ ((curCore (after x.1 edges)).divider.map (·.due)) = some (edges.clk + 36) := by decide +kernel

/-- R126: an ADD wraps, and one whose destination is a source reads it first. -/
theorem test_add_wraps : regRead (after (.add 5 5 5) edges) 5 = 0xFFFFFFFFFFFFFFFE := by decide +kernel

/-- R122 to R124: TRAP saves the word after it, and the register's value. -/
theorem test_trap_enters : let u := getUnit (after (.trap 5) (onUnit (fun u => { u with pc := 0x40, tvec := 0x1000 }) edges))
    u.mode = .s ∧ u.pc = 0x1000 ∧ u.epc = 0x44 ∧ u.eval = 0xFFFFFFFFFFFFFFFF := by decide +kernel

/-- R73: the digits of the I8 weight 0x5B. -/
theorem test_digits : [recodeDigit 8 0x5B 3, recodeDigit 8 0x5B 2, recodeDigit 8 0x5B 1, recodeDigit 8 0x5B 0] = [1, 2, -1, -1] := by decide

/-- R75: that weight at each precision, from planes (sign, high, low) 001, 010, 101, 101. -/
theorem test_weight_precision :
    (List.map (fun P => weightValue .i8 (5 + 8 * 5 + 64 * 2 + 512 * 4) 0 P) [0, 3, 2, 1]) =
      [some (xint 91), some (xint 92), some (xint 96), some (xint 64)] := by decide

/-- R149, R150, R158: the worked allocation of a BF16 weight tile at handle 40. -/
theorem test_talloc_places : let s := after (.talloc 6 5) (reg 5 0x014001F01F000028 base)
    let t := tileOf (curCore s) 40
    regRead s 6 = 0x1028 ∧ t.gen = 1 ∧ t.p1 = 32 ∧ t.p0 = 0 ∧ t.p2 = 0 ∧ t.p3 = 2 ∧ t.target = 896 := by decide +kernel

/-- R191, R194: the words of the matrix chapter's worked example. -/
theorem test_decode_matrix_data :
    decodeTableWord 192 0x0310_2800_A12C_0000_220F_FF00_0000_0000_0004_0000_0000_0000 =
      some (.mmac mi { fmt := 1, hw := 0x28, ha := 0xA, hc := 0x12C, sha := 0, shc := 0, dprec := 2, nega := false, negw := false
                       accdis := true, mm1 := 1, kr0 := 0, krm1 := 0, nc0 := 0, ncm1 := 0 })
    ∧ decodeTableWord 192 0x0410_0012_C032_0000_010F_FF00_0000_0000_0020_0000_0000_0000 =
      some (.mepi { mi with mark := true }
        { fmt := 1, hw := 0, ha := 0x12C, hc := 0x32, sha := 0, shc := 0, sat := false, rnd := 0, scm := 0, bias := false, act := 1
          aow := false, ranked := false, zacc := false, cls := 0 }) := by decide +kernel

/-- R220 and the rules of each operation: the rows of the vector chapter's base-2 softmax, four lanes of row 0. -/
def lanes (a b c d : Nat) : Row := BitVec.ofNat 1024 (a + b * 2 ^ 32 + c * 2 ^ 64 + d * 2 ^ 96)
def landed16 (op : VOp) (a b : Row) : Row :=
  let at2 (i : Nat) : Opnd := { level := 2, base := i, shift := 0 }
  let f : VFlight := { flight with op := op, a := at2 22, b := at2 24, dst := at2 30, lanes := 4, last := 1 }
  match execRowLanding 0 (onCore (fun k => { k with
      vrows := [(22, a), (24, b)], vec := { k.vec with flights := [f] } }) { vectors false [] with clk := 100 }) with
  | .next t => vrow (getCore t 0) 30
  | _ => 0
theorem test_softmax_rows :
    landed16 .rmax (lanes 0x40A00000 0x40800000 0x40400000 0x40400000) 0 = lanes 0x40A00000 0x40A00000 0x40A00000 0x40A00000
    ∧ landed16 .sub (lanes 0x40A00000 0x40800000 0x40400000 0x40400000) (lanes 0x40A00000 0x40A00000 0x40A00000 0x40A00000) =
        lanes 0 0xBF800000 0xC0000000 0xC0000000
    ∧ landed16 .rsum (lanes 0x3F800000 0x3F000000 0x3E800000 0x3E800000) 0 = lanes 0x40000000 0x40000000 0x40000000 0x40000000
    ∧ landed16 .mul (lanes 0x3F800000 0x3F000000 0x3E800000 0x3E800000) (lanes 0x3F000000 0x3F000000 0x3F000000 0x3F000000) =
        lanes 0x3F000000 0x3E800000 0x3E000000 0x3E000000 := by decide +kernel
theorem test_softmax_functions :
    landed16 .exp2 (lanes 0 0xBF800000 0xC0000000 0xC0000000) 0 = lanes 0x3F800000 0x3F000000 0x3E800000 0x3E800000
    ∧ landed16 .rcp (lanes 0x40000000 0x40000000 0x40000000 0x40000000) 0 = lanes 0x3F000000 0x3F000000 0x3F000000 0x3F000000 := by
  decide +kernel

end Sys2Proof.Tests
end

section
/-! SUPPORT. Every step keeps memory in its canonical form (R2, R19, log 4). Most of the model's functions do not touch memory at all: for each
of these a simp lemma `f_mem` says so. Those that write memory do it through `memSetByte`, `memSetBytes`, `memSetNat`, `homeWrite`, `hubWrite`
or a filter, which keep the form; for each a simp lemma `f_mem_wf` or, where it gives an outcome, `f_wf` carries the form through. -/
namespace Sys2Proof.Machine

/-! ## States rebuilt by folds, options and conditions -/

theorem foldl_mem {α : Type} (f : State → α → State) (hf : ∀ s a, (f s a).mem = s.mem) (l : List α) (s : State) :
    (l.foldl f s).mem = s.mem := by
  induction l generalizing s with
  | nil => rfl
  | cons a l ih => rw [List.foldl_cons, ih, hf]

@[simp] theorem mem_ite (c : Prop) [Decidable c] (s t : State) : (if c then s else t).mem = if c then s.mem else t.mem :=
  apply_ite State.mem c s t

theorem getD_mem {o : Option State} {s u : State} (ho : ∀ t, o = some t → t.mem = s.mem) (hu : u.mem = s.mem) : (o.getD u).mem = s.mem := by
  cases o with
  | none => exact hu
  | some t => exact ho t rfl

/-! ## Outcomes and answers -/

/-- Memory of the state that an outcome goes on to, if it goes on, stands in its canonical form. -/
def NextWf : Host.Outcome State Fault Refusal → Prop
  | .next t => Memory.wf t.mem = true
  | _ => True

@[simp] theorem nextWf_next (t : State) : NextWf (.next t) ↔ Memory.wf t.mem = true := Iff.rfl
@[simp] theorem nextWf_fault (f : Fault) : NextWf (.fault f) := trivial
@[simp] theorem nextWf_refused (r : Refusal) : NextWf (.refused r) := trivial
@[simp] theorem nextWf_ite (c : Prop) [Decidable c] (o o' : Host.Outcome State Fault Refusal) :
    NextWf (if c then o else o') ↔ if c then NextWf o else NextWf o' := by split <;> rfl

/-- Memory of the state that a scalar word's answer carries, if it carries one, stands in its canonical form. -/
def ActWf : Act → Prop
  | .done t => Memory.wf t.mem = true
  | .jump t _ => Memory.wf t.mem = true
  | .leave t => Memory.wf t.mem = true
  | .waitIn t => Memory.wf t.mem = true
  | _ => True

@[simp] theorem actWf_done (t : State) : ActWf (.done t) ↔ Memory.wf t.mem = true := Iff.rfl
@[simp] theorem actWf_jump (t : State) (pc : Word) : ActWf (.jump t pc) ↔ Memory.wf t.mem = true := Iff.rfl
@[simp] theorem actWf_leave (t : State) : ActWf (.leave t) ↔ Memory.wf t.mem = true := Iff.rfl
@[simp] theorem actWf_waitIn (t : State) : ActWf (.waitIn t) ↔ Memory.wf t.mem = true := Iff.rfl
@[simp] theorem actWf_wait : ActWf .wait := trivial
@[simp] theorem actWf_hold : ActWf .hold := trivial
@[simp] theorem actWf_lack (who : Nat) : ActWf (.lack who) := trivial
@[simp] theorem actWf_trap (cause : BitVec 8) (eval : Word) : ActWf (.trap cause eval) := trivial
@[simp] theorem actWf_trapAfter (cause : BitVec 8) (eval : Word) : ActWf (.trapAfter cause eval) := trivial
@[simp] theorem actWf_ite (c : Prop) [Decidable c] (a b : Act) : ActWf (if c then a else b) ↔ if c then ActWf a else ActWf b := by
  split <;> rfl

/-- Memory of the state that a vector or matrix word's answer carries, if the word goes, stands in its canonical form. -/
def SActWf : SAct → Prop
  | .go t _ _ => Memory.wf t.mem = true
  | _ => True

@[simp] theorem sActWf_go (t : State) (occ : Nat) (tgt : Option (BitVec 14)) : SActWf (.go t occ tgt) ↔ Memory.wf t.mem = true := Iff.rfl
@[simp] theorem sActWf_skipped : SActWf .skipped := trivial
@[simp] theorem sActWf_notReady : SActWf .notReady := trivial
@[simp] theorem sActWf_viol : SActWf .viol := trivial
@[simp] theorem sActWf_fault (cause : BitVec 8) (eval : Word) : SActWf (.fault cause eval) := trivial
@[simp] theorem sActWf_ite (c : Prop) [Decidable c] (a b : SAct) : SActWf (if c then a else b) ↔ if c then SActWf a else SActWf b := by
  split <;> rfl

@[simp] theorem Memory.wf_ite (c : Prop) [Decidable c] (m n : List Host.Cell) :
    Memory.wf (if c then m else n) = true ↔ if c then Memory.wf m = true else Memory.wf n = true := by split <;> rfl

theorem foldl_wf {α : Type} {f : State → α → State} {l : List α} {s : State}
    (hf : ∀ t a, Memory.wf t.mem = true → Memory.wf (f t a).mem = true) (hs : Memory.wf s.mem = true) : Memory.wf (l.foldl f s).mem = true :=
  List.foldlRecOn (motive := fun t => Memory.wf t.mem = true) l f hs fun t ht a _ => hf t a ht

theorem getD_mem_wf {o : Option State} {s : State} (ho : ∀ t, o = some t → Memory.wf t.mem = true) (hs : Memory.wf s.mem = true) :
    Memory.wf (o.getD s).mem = true := by
  cases o with
  | none => exact hs
  | some t => exact ho t rfl

/-! ## Registers, units and agents -/

@[simp] theorem regWriteAfter_mem (s : State) (r : BitVec 5) (v : Word) (n : Nat) : (regWriteAfter s r v n).mem = s.mem := by
  simp [regWriteAfter]

@[simp] theorem regWriteAt_mem (s : State) (c i : Nat) (r : BitVec 5) (v : Word) : (regWriteAt s c i r v).mem = s.mem := by
  simp [regWriteAt]

@[simp] theorem noteEgress_mem (s : State) (core part : Nat) (pkg : Dest) : (noteEgress s core part pkg).mem = s.mem := by simp [noteEgress]

@[simp] theorem marksChanged_mem (s : State) : (marksChanged s).mem = s.mem := rfl

@[simp] theorem freeWord_mem (s : State) : (freeWord s).2.mem = s.mem := rfl

@[simp] theorem setEvl_mem (s : State) (c i : Nat) : (setEvl s c i).mem = s.mem := rfl

@[simp] theorem translate_mem (s : State) (va : Word) (kind : AccessKind) : (translate s va kind).2.mem = s.mem := by simp [translate]

theorem translate_ok_mem {s t : State} {va : Word} {kind : AccessKind} {x : Xlate} (e : translate s va kind = (x, t)) : t.mem = s.mem := by
  rw [← translate_mem s va kind, e]

@[simp] theorem takeTrap_mem (s : State) (stream : Nat) (cause : BitVec 8) (eval epc : Word) :
    (takeTrap s stream cause eval epc).mem = s.mem :=
  rfl

@[simp] theorem noteAsk_mem (s : State) (who : Nat) : (noteAsk s who).mem = s.mem := rfl

@[simp] theorem wordDone_mem (u : Unit) (t : State) (pc : Word) : (wordDone u t pc).mem = t.mem := by simp [wordDone]

@[simp] theorem scalarWord_wf {i : Instr} {body : State → Act} {s : State} (hs : Memory.wf s.mem = true) (hb : ActWf (body s)) :
    NextWf (scalarWord i body s) := by
  simp only [scalarWord]
  split
  · revert hb
    cases body s <;> simp [hs]
  · exact hs

/-! ## What words of a register form share -/

@[simp] theorem opRR_wf {i : Instr} {n : Nat} {f : Word → Word → Word} {rd ra rb : BitVec 5} {s : State} (hs : Memory.wf s.mem = true) :
    NextWf (opRR i n f rd ra rb s) := by
  simp [opRR, hs]

@[simp] theorem opR_wf {i : Instr} {f : Word → Word} {rd ra : BitVec 5} {s : State} (hs : Memory.wf s.mem = true) :
    NextWf (opR i f rd ra s) := by
  simp [opR, hs]

@[simp] theorem opBranch_wf {i : Instr} {c : Word → Word → Bool} {ra rb : BitVec 5} {off : BitVec 16} {s : State}
    (hs : Memory.wf s.mem = true) : NextWf (opBranch i c ra rb off s) := by
  simp [opBranch, hs]

/-! ## Flags -/

@[simp] theorem noteFlags_mem (s : State) (c i : Nat) : (noteFlags s c i).mem = s.mem := by
  simp only [noteFlags]
  split <;> simp

/-! ## Register words -/

@[simp] theorem opDiv_wf {i : Instr} {f : Word → Word → Word} {rd ra rb : BitVec 5} {s : State} (hs : Memory.wf s.mem = true) :
    NextWf (opDiv i f rd ra rb s) := by
  refine scalarWord_wf hs ?_
  dsimp only
  split <;> simp [hs]

@[simp] theorem dividerDone_mem (s : State) (c : Nat) : (dividerDone s c).mem = s.mem := by
  simp only [dividerDone]
  split <;> simp

/-! ## Flits -/

@[simp] theorem sendFlit_mem (s : State) (dst : Nat) (b : FlitBody) : (sendFlit s dst b).mem = s.mem := by simp [sendFlit]

@[simp] theorem sendFrom_mem (s : State) (part core dst : Nat) (b : FlitBody) : (sendFrom s part core dst b).mem = s.mem := by
  simp [sendFrom]

@[simp] theorem sendAck_mem (s : State) (core dst : Nat) (b : FlitBody) : (sendAck s core dst b).mem = s.mem := by simp [sendAck]

@[simp] theorem takeFlit_mem (s : State) (k : Nat) (f : Flit) : (takeFlit s k f).mem = s.mem := by simp [takeFlit]

theorem onFlit_mem_wf {s : State} {k : Nat} {f : State → Flit → Option State} (hs : Memory.wf s.mem = true)
    (hf : ∀ t fl u, Memory.wf t.mem = true → f t fl = some u → Memory.wf u.mem = true) : Memory.wf (onFlit s k f).mem = true := by
  unfold onFlit
  split
  · rename_i fl _
    exact getD_mem_wf (fun u hu => hf _ _ u (by simp [hs]) hu) hs
  · exact hs
  · exact hs

@[simp] theorem handOver_mem (s : State) (f : Flit) : (handOver s f).mem = s.mem := by simp [handOver]

/-! ## Inlets -/

@[simp] theorem withChan_mem (s : State) (c : Nat) (ch : Chan) : (withChan s c ch).mem = s.mem := rfl

@[simp] theorem inletRefuse_mem (s : State) (c : Nat) : (inletRefuse s c).mem = s.mem := rfl

theorem inletOffer_mem {s t : State} {c : Nat} {line : BitVec 512} (h : inletOffer s c line = some t) : t.mem = s.mem := by
  simp only [inletOffer] at h
  split at h
  · cases h; simp
  · split at h <;> cases h; simp

/-! ## Accesses -/

@[simp] theorem issueAccess_mem (s : State) (a : Access) : (issueAccess s a).mem = s.mem := rfl

@[simp] theorem useLines_mem (s : State) (n : Nat) (pkg : Dest) : (useLines s n pkg).mem = s.mem := by simp [useLines]

@[simp] theorem mergeQuanta_mem (s : State) : (mergeQuanta s).mem = s.mem := by
  simp only [mergeQuanta]
  (repeat' split) <;> simp

@[simp] theorem memWord_wf {i : Instr} {acc : AccKind} {cls : BitVec 4} {n : Nat} {ea : Word} {kind : AccessKind} {rd : BitVec 5}
    {s : State} (hs : Memory.wf s.mem = true) : NextWf (memWord i acc cls n ea kind rd s) := by
  refine scalarWord_wf hs ?_
  obtain ⟨x, t, hx⟩ : ∃ x t, translate s ea kind = (x, t) := ⟨_, _, rfl⟩
  cases x <;> simp [hx, translate_ok_mem hx, hs]

@[simp] theorem opLoad_wf {i : Instr} {signed : Bool} {n : Nat} {rd ra : BitVec 5} {cls : BitVec 4} {off : BitVec 12} {s : State}
    (hs : Memory.wf s.mem = true) : NextWf (opLoad i signed n rd ra cls off s) := by
  simp [opLoad, hs]

@[simp] theorem opStore_wf {i : Instr} {n : Nat} {rs ra : BitVec 5} {cls : BitVec 4} {off : BitVec 12} {s : State}
    (hs : Memory.wf s.mem = true) : NextWf (opStore i n rs ra cls off s) := by
  simp [opStore, hs]

@[simp] theorem opAtomic_wf {i : Instr} {op : AtomOp} {rd ra rb : BitVec 5} {cls : BitVec 4} {use : BitVec 3} {size : BitVec 1}
    {s : State} (hs : Memory.wf s.mem = true) : NextWf (opAtomic i op rd ra rb cls use size s) := by
  simp [opAtomic, hs]

@[simp] theorem returnReg_mem (s : State) (core : Nat) (a : Access) (r : BitVec 5) (v : Word) : (returnReg s core a r v).mem = s.mem := by
  simp [returnReg]

@[simp] theorem performLoad_mem (s : State) (core : Nat) (a : Access) (signed : Bool) : (performLoad s core a signed).mem = s.mem := by
  simp [performLoad]

@[simp] theorem performAtom_mem_wf {s : State} {core : Nat} {a : Access} {op : AtomOp} {use : BitVec 3} {b expect : Word}
    (hs : Memory.wf s.mem = true) : Memory.wf (performAtom s core a op use b expect).mem = true := by
  simp [performAtom, hs, Memory.wf_memSetNat]

@[simp] theorem performSpc_mem_wf {s : State} {core : Nat} {a : Access} {b : Word} {rb : BitVec 5} (hs : Memory.wf s.mem = true) :
    Memory.wf (performSpc s core a b rb).mem = true := by
  simp only [performSpc]
  split <;> simp [hs, Memory.wf_memSetNat]

@[simp] theorem consumeBad_mem (s : State) (core : Nat) (a : Access) : (consumeBad s core a).mem = s.mem := by simp [consumeBad]

@[simp] theorem touchInlet_mem (s : State) (core c : Nat) (a : Access) : (touchInlet s core c a).mem = s.mem := by
  simp only [touchInlet]
  split <;> simp

@[simp] theorem performOne_mem_wf {s : State} {core k : Nat} {a : Access} (hs : Memory.wf s.mem = true) :
    Memory.wf (performOne s core k a).mem = true := by
  simp only [performOne]
  split
  · simp [hs]
  · split
    · simp [hs]
    · split <;> simp [hs, Memory.wf_memSetNat]

@[simp] theorem performAll_mem_wf {s : State} {core : Nat} {xs : List Access} (hs : Memory.wf s.mem = true) :
    Memory.wf (performAll s core xs).mem = true := by
  induction xs generalizing s with
  | nil => exact hs
  | cons x xs ih => exact ih (by simp [hs])

@[simp] theorem perform_mem_wf {s : State} {core : Nat} {a : Access} (hs : Memory.wf s.mem = true) :
    Memory.wf (perform s core a).mem = true := by
  simp [perform, hs]

@[simp] theorem tryPerform_mem_wf {s : State} {core k : Nat} {resp : Bool} (hs : Memory.wf s.mem = true) :
    Memory.wf (tryPerform s core k resp).mem = true := by
  unfold tryPerform
  split <;> simp [hs]

@[simp] theorem execRequestSlotGrant_wf {core k : Nat} {s : State} (hs : Memory.wf s.mem = true) :
    NextWf (execRequestSlotGrant core k s) := by
  simp only [execRequestSlotGrant]
  split <;> simp [hs]

/-! ## Waits, knots and tokens -/

@[simp] theorem wfeBody_wf {t : State} (hs : Memory.wf t.mem = true) : ActWf (wfeBody t) := by simp [wfeBody, hs]

@[simp] theorem knotWaitBody_wf {num : BitVec 4} {t : State} (hs : Memory.wf t.mem = true) : ActWf (knotWaitBody num t) := by
  simp [knotWaitBody, hs]

@[simp] theorem tokGiveBody_wf {num : BitVec 4} {t : State} (hs : Memory.wf t.mem = true) : ActWf (tokGiveBody num t) := by
  simp [tokGiveBody, hs]

@[simp] theorem tokTakeBody_wf {num : BitVec 4} {t : State} (hs : Memory.wf t.mem = true) : ActWf (tokTakeBody num t) := by
  simp [tokTakeBody, hs]

@[simp] theorem tokCfgBody_wf {ra rb : BitVec 5} {t : State} (hs : Memory.wf t.mem = true) : ActWf (tokCfgBody ra rb t) := by
  simp [tokCfgBody, hs]

/-! ## Tiles -/

@[simp] theorem unpark_mem (s : State) (core : Nat) (hs : List Nat) : (unpark s core hs).mem = s.mem := rfl

@[simp] theorem reportTile_mem (s : State) (id : Nat) : (reportTile s id).mem = s.mem := rfl

@[simp] theorem reportHop_mem (s : State) (slot step : Nat) (status : BitVec 8) (sub : Nat) :
    (reportHop s slot step status sub).mem = s.mem := by
  unfold reportHop
  split <;> simp

@[simp] theorem markRefused_mem (s : State) (d : Deposit) : (markRefused s d).mem = s.mem := rfl

@[simp] theorem discardDeposit_mem (s : State) (d : Deposit) : (discardDeposit s d).mem = s.mem := by
  unfold discardDeposit
  split <;> simp

@[simp] theorem landDeposit_mem (s : State) (k : Nat) (held : Bool) : (landDeposit s k held).mem = s.mem := by
  simp only [landDeposit]
  (repeat' split) <;> simp

@[simp] theorem execTileClearEnd_wf {core h : Nat} {s : State} (hs : Memory.wf s.mem = true) : NextWf (execTileClearEnd core h s) := by
  simp only [execTileClearEnd]
  split <;> simp [hs]

@[simp] theorem tallocBody_wf {rd ra : BitVec 5} {s : State} (hs : Memory.wf s.mem = true) : ActWf (tallocBody rd ra s) := by
  simp only [tallocBody]
  (repeat' split) <;> simp [hs]

@[simp] theorem tfreeBody_wf {ra : BitVec 5} {s : State} (hs : Memory.wf s.mem = true) : ActWf (tfreeBody ra s) := by simp [tfreeBody, hs]

@[simp] theorem tsetfBody_wf {ra rb : BitVec 5} {s : State} (hs : Memory.wf s.mem = true) : ActWf (tsetfBody ra rb s) := by
  simp [tsetfBody, hs]

@[simp] theorem twaitBody_wf {ra rb : BitVec 5} {s : State} (hs : Memory.wf s.mem = true) : ActWf (twaitBody ra rb s) := by
  simp [twaitBody, hs]

@[simp] theorem execShapeW_wf {ra rb : BitVec 5} {s : State} (hs : Memory.wf s.mem = true) : NextWf (execShapeW ra rb s) := by
  refine scalarWord_wf hs ?_
  obtain ⟨x, t, hx⟩ : ∃ x t, translate s (regRead s rb) .read = (x, t) := ⟨_, _, rfl⟩
  cases x with
  | fail c => simp [hx]
  | ok pa leaf =>
    simp only [hx, actWf_ite]
    cases shapeOfBytes (recordBytes t pa 16) <;> simp [translate_ok_mem hx, hs]

/-! ## Streams -/

@[simp] theorem engStartBody_wf {ra rb : BitVec 5} {t : State} (hs : Memory.wf t.mem = true) : ActWf (engStartBody ra rb t) := by
  simp [engStartBody, hs]

@[simp] theorem stopStream_mem (t : State) (n : Nat) : (stopStream t n).mem = t.mem := by simp [stopStream]

@[simp] theorem stopStreams_mem (t : State) (xs : List Nat) : (stopStreams t xs).mem = t.mem := by
  induction xs generalizing t with
  | nil => rfl
  | cons x xs ih => simp [stopStreams, ih]

@[simp] theorem endGroup_mem (t : State) (mask : BitVec 9) : (endGroup t mask).mem = t.mem := by simp [endGroup]

@[simp] theorem streamFault_mem (s : State) (core slot n : Nat) (cause : BitVec 8) (eval : Word) :
    (streamFault s core slot n cause eval).mem = s.mem :=
  rfl

@[simp] theorem passGate_wf {g : Gate} {f : SAct} (hf : SActWf f) : SActWf (passGate g f) := by
  cases g <;> simp [passGate, hf]

/-! ## Bonds -/

@[simp] theorem bondInstall_wf {nw : Bool} {rd : BitVec 5} {r : List Byte} {t : State} (hs : Memory.wf t.mem = true) :
    ActWf (bondInstall nw rd r t) := by
  simp [bondInstall, hs]

@[simp] theorem bondBody_wf {nw : Bool} {rd ra : BitVec 5} {t : State} (hs : Memory.wf t.mem = true) : ActWf (bondBody nw rd ra t) := by
  obtain ⟨x, t', hx⟩ : ∃ x t', translate t (regRead t ra) .read = (x, t') := ⟨_, _, rfl⟩
  cases x <;> simp [bondBody, hx, translate_ok_mem hx, hs]

@[simp] theorem drainBody_wf {ra : BitVec 5} {t : State} (hs : Memory.wf t.mem = true) : ActWf (drainBody ra t) := by simp [drainBody, hs]

/-! ## The vector sequencer -/

@[simp] theorem vectorAct_wf {c : Ctx} {v : VIn} {target : BitVec 4} {s : State} (hs : Memory.wf s.mem = true) :
    SActWf (vectorAct c v target s) := by
  simp [vectorAct, hs]

@[simp] theorem finishVector_mem (s : State) (core : Nat) : (finishVector s core).mem = s.mem := rfl

@[simp] theorem checkRow_mem (s : State) (core : Nat) (f : VFlight) : (checkRow s core f).mem = s.mem := by simp [checkRow]

@[simp] theorem landOne_mem (s : State) (core : Nat) (f : VFlight) : (landOne s core f).mem = s.mem := by
  simp only [landOne]
  (repeat' split) <;> simp

@[simp] theorem execRowLanding_wf {core : Nat} {s : State} (hs : Memory.wf s.mem = true) : NextWf (execRowLanding core s) := by
  simp only [execRowLanding]
  (repeat' split) <;> simp [hs]

/-! ## The matrix sequencer -/

@[simp] theorem matrixAct_wf {c : Ctx} {f : MIssue} {i : Instr} {fieldsOk : Bool} {check : Option (BitVec 8 × Word)} {ready order : Bool}
    {occ : Nat} {l : MLaunch} {upd : Sub → Sub} {out : List Deposit} {s : State} (hs : Memory.wf s.mem = true) :
    SActWf (matrixAct c f i fieldsOk check ready order occ l upd out s) := by
  simp [matrixAct, hs]

@[simp] theorem mnopAct_wf {c : Ctx} {f : MIssue} {i : Instr} {s : State} (hs : Memory.wf s.mem = true) : SActWf (mnopAct c f i s) := by
  simp [mnopAct, hs]

@[simp] theorem mmarkAct_wf {c : Ctx} {f : MIssue} {i : Instr} {s : State} (hs : Memory.wf s.mem = true) : SActWf (mmarkAct c f i s) := by
  simp [mmarkAct, hs]

@[simp] theorem mswapAct_wf {c : Ctx} {f : MIssue} {i : Instr} {s : State} (hs : Memory.wf s.mem = true) : SActWf (mswapAct c f i s) := by
  simp [mswapAct, hs]

@[simp] theorem mldwAct_wf {c : Ctx} {f : MIssue} {hw : BitVec 12} {dprec : BitVec 4} {clr : Bool} {br0 : BitVec 3} {bc0 : BitVec 4}
    {i : Instr} {s : State} (hs : Memory.wf s.mem = true) : SActWf (mldwAct c f hw dprec clr br0 bc0 i s) := by
  simp [mldwAct, hs]

@[simp] theorem mmacAct_wf {c : Ctx} {f : MIssue} {m : MmacF} {i : Instr} {s : State} (hs : Memory.wf s.mem = true) :
    SActWf (mmacAct c f m i s) := by
  simp [mmacAct, hs]

@[simp] theorem mepiAct_wf {c : Ctx} {f : MIssue} {e : MepiF} {dest : Option MDest} {i : Instr} {s : State} (hs : Memory.wf s.mem = true) :
    SActWf (mepiAct c f e dest i s) := by
  simp [mepiAct, hs]

@[simp] theorem retireOne_mem (s : State) (core n : Nat) (b : Sub) (f0 : MFlight) : (retireOne s core n b f0).mem = s.mem := by
  simp [retireOne]

@[simp] theorem execWordRetirement_wf {core sub : Nat} {s : State} (hs : Memory.wf s.mem = true) :
    NextWf (execWordRetirement core sub s) := by
  simp only [execWordRetirement]
  (repeat' split) <;> simp [hs]

/-! ## Sequencers, courses and stream words -/

@[simp] theorem setStrm_mem (s : State) (c : Ctx) (f : Strm → Strm) : (setStrm s c f).mem = s.mem := rfl

@[simp] theorem vctl_wf {c : Ctx} {ok course : Bool} {r : SAct} (hr : SActWf r) : SActWf (vctl c ok course r) := by
  simp [vctl, hr]

@[simp] theorem branchLoop_wf {c : Ctx} {lc : BitVec 2} {target : BitVec 13} {s : State} (hs : Memory.wf s.mem = true) :
    SActWf (branchLoop c lc target s) := by
  simp [branchLoop, hs]

@[simp] theorem branchEnd_wf {c : Ctx} {s : State} (hs : Memory.wf s.mem = true) : SActWf (branchEnd c s) := by simp [branchEnd, hs]

@[simp] theorem modulo_wf {c : Ctx} {lenm1 iim1 : BitVec 6} {tsrc : Bool} {trips : BitVec 16} {exk : BitVec 4} {exs : Bool} {s : State}
    (hs : Memory.wf s.mem = true) : SActWf (modulo c lenm1 iim1 tsrc trips exk exs s) := by
  simp [modulo, hs]

@[simp] theorem knotHold_wf {c : Ctx} {leave : Bool} {k : BitVec 4} {sense : Bool} {s : State} (hs : Memory.wf s.mem = true) :
    SActWf (knotHold c leave k sense s) := by
  simp [knotHold, hs]

@[simp] theorem shapeWord_wf {c : Ctx} {rowsm1 : BitVec 6} {lanesm1 : BitVec 5} {s : State} (hs : Memory.wf s.mem = true) :
    SActWf (shapeWord c rowsm1 lanesm1 s) := by
  simp [shapeWord, hs]

@[simp] theorem knotWord_wf {c : Ctx} {k : BitVec 4} {v : Bool} {s : State} (hs : Memory.wf s.mem = true) : SActWf (knotWord c k v s) := by
  simp [knotWord, hs]

@[simp] theorem mlaunch_wf {c : Ctx} {m : MCtl} {i : Instr} {clk : Nat} {r : SAct} (hr : SActWf r) : SActWf (mlaunch c m i clk r) := by
  cases r <;> simp_all [mlaunch]

@[simp] theorem mctl_wf {c : Ctx} {m : MCtl} {i : Instr} {ok : Bool} {s : State} {f : State → SAct} (hf : SActWf (f s)) :
    SActWf (mctl c m i ok s f) := by
  simp [mctl, hf]

@[simp] theorem holdAtWait_wf {c : Ctx} {s : State} (hs : Memory.wf s.mem = true) : SActWf (holdAtWait c s) := by simp [holdAtWait, hs]

@[simp] theorem mwaitAct_wf {c : Ctx} {leave : Bool} {m : MCtl} {i : Instr} {s : State} {f : State → SAct} (hs : Memory.wf s.mem = true)
    (hf : ∀ t, Memory.wf t.mem = true → SActWf (f t)) : SActWf (mwaitAct c leave m i s f) := by
  have hr := hf s hs
  simp only [mwaitAct]
  split
  · exact mlaunch_wf (hf _ (by simp [hs]))
  · split
    · simp [hs]
    · refine passGate_wf ?_
      split
      · simp [hs]
      · exact mlaunch_wf hr

@[simp] theorem vectorCtl_wf {c : Ctx} {i : Instr} {s : State} (hs : Memory.wf s.mem = true) : SActWf (vectorCtl c i s) := by
  unfold vectorCtl
  split <;> simp [hs]

@[simp] theorem vectorStep_wf {c : Ctx} {i : Instr} {s : State} (hs : Memory.wf s.mem = true) : SActWf (vectorStep c i s) := by
  simp only [vectorStep]
  (repeat' split) <;> simp [hs]

@[simp] theorem matrixStep_wf {c : Ctx} {leave : Bool} {i : Instr} {s : State} (hs : Memory.wf s.mem = true) :
    SActWf (matrixStep c leave i s) := by
  unfold matrixStep
  split
  case h_15 => exact mwaitAct_wf hs fun t ht => by simp [ht]
  case h_16 => exact mwaitAct_wf hs fun t ht => by simp [ht]
  case h_17 => exact mwaitAct_wf hs fun t ht => by split <;> simp [ht]
  all_goals simp [hs]

@[simp] theorem streamStep_wf {c : Ctx} {leave : Bool} {i : Instr} {s : State} (hs : Memory.wf s.mem = true) :
    SActWf (streamStep c leave i s) := by
  simp [streamStep, hs]

@[simp] theorem fetchedStep_wf {c : Ctx} {leave : Bool} {w : Fetched} {s : State} (hs : Memory.wf s.mem = true) :
    SActWf (fetchedStep c leave w s) := by
  unfold fetchedStep
  split <;> simp [hs]

theorem applyWordResult_mem_wf {s : State} {c : Ctx} {adv : Option (BitVec 14) → Strm → Strm} {r : SAct} (hs : Memory.wf s.mem = true)
    (hr : SActWf r) : Memory.wf (applyWordResult s c adv r).mem = true := by
  cases r <;> simp_all [applyWordResult]

@[simp] theorem vectorWord_wf {i : Instr} {s : State} (hs : Memory.wf s.mem = true) : NextWf (vectorWord i s) := by
  simp only [vectorWord]
  split <;> simp [hs, applyWordResult_mem_wf]

@[simp] theorem matrixWord_wf {i : Instr} {s : State} (hs : Memory.wf s.mem = true) : NextWf (matrixWord i s) := by
  simp only [matrixWord]
  split <;> simp [hs, applyWordResult_mem_wf]

@[simp] theorem streamDecodeFault_mem (n : Nat) (slot : Option Nat) (cause : BitVec 8) (s : State) :
    (streamDecodeFault n slot cause s).mem = s.mem := by
  unfold streamDecodeFault
  split <;> simp

@[simp] theorem scalarDecodeFault_wf {cause : BitVec 8} {eval : Word} {s : State} (hs : Memory.wf s.mem = true) :
    NextWf (scalarDecodeFault cause eval s) := by
  simp [scalarDecodeFault, hs]

@[simp] theorem execIllegal_wf {st : Stream} {s : State} (hs : Memory.wf s.mem = true) : NextWf (execIllegal st s) := by
  unfold execIllegal
  split <;> simp [hs]

@[simp] theorem execFetch_wf {st : Stream} {s : State} (hs : Memory.wf s.mem = true) : NextWf (execFetch st s) := by
  unfold execFetch
  split <;> simp [hs]

@[simp] theorem execRepStep_wf {core : Nat} {s : State} (hs : Memory.wf s.mem = true) : NextWf (execRepStep core s) := by
  simp only [execRepStep]
  split <;> simp [hs, applyWordResult_mem_wf]

@[simp] theorem execModuloSlot_wf {core stream : Nat} {s : State} (hs : Memory.wf s.mem = true) :
    NextWf (execModuloSlot core stream s) := by
  simp only [execModuloSlot]
  split
  · exact hs
  · split
    · exact hs
    · split
      · split <;> simp [hs, applyWordResult_mem_wf]
      · exact hs

theorem courseWord_wf {c : Ctx} {leave : Bool} {s : State} (hs : Memory.wf s.mem = true) : SActWf (courseWord c leave s).2.2 := by
  unfold courseWord
  split
  · simp [hs]
  · split <;> simp [hs]

theorem courseActs_mem_wf {core slot : Nat} {leave : Bool} {ns : List Nat} {x : Course} (hs : Memory.wf x.state.mem = true) :
    Memory.wf (courseActs core slot leave ns x).state.mem = true := by
  induction ns generalizing x with
  | nil => exact hs
  | cons n ns ih =>
    have ha := courseWord_wf (c := ctxOf x.state core slot n true) (leave := leave) hs
    refine ih ?_
    dsimp only
    split
    · rename_i hgo
      rw [hgo] at ha
      exact ha
    · exact hs

@[simp] theorem beginCourse_mem (core slot : Nat) (xs : List Nat) (s : State) : (beginCourse core slot xs s).mem = s.mem := by
  induction xs generalizing s with
  | nil => rfl
  | cons x xs ih =>
    simp only [beginCourse, ih]
    (repeat' split) <;> simp

@[simp] theorem courseAdvance_mem (clk : Nat) (s0 : State) (xs : List (Ctx × Fetched × SAct)) (s : State) :
    (courseAdvance clk s0 xs s).mem = s.mem := by
  induction xs generalizing s0 s with
  | nil => rfl
  | cons x xs ih => simp [courseAdvance, ih]

@[simp] theorem addStampoff_mem (s : State) (core slot d : Nat) : (addStampoff s core slot d).mem = s.mem := rfl

@[simp] theorem courseDone_mem (s : State) (core slot : Nat) (x : Course) (leave : Bool) :
    (courseDone s core slot x leave).mem = x.state.mem := by
  simp [courseDone]

@[simp] theorem countCourse_mem (s : State) (core slot : Nat) : (countCourse s core slot).mem = s.mem := rfl

@[simp] theorem courseEval_mem (core slot : Nat) (s : State) : (courseEval core slot s).1.mem = s.mem := by simp [courseEval]

theorem courseEval_course_mem_wf {core slot : Nat} {s : State} (hs : Memory.wf s.mem = true) :
    Memory.wf (courseEval core slot s).2.state.mem = true :=
  courseActs_mem_wf (by simp [hs])

@[simp] theorem execCourseIssue_wf {core : Nat} {s : State} (hs : Memory.wf s.mem = true) : NextWf (execCourseIssue core s) := by
  simp only [execCourseIssue]
  split
  · exact hs
  · split
    · split
      · simp [hs]
      · split
        · simp [hs]
        · split
          · simp [hs]
          · split <;> simp [hs, courseEval_course_mem_wf]
    · exact hs

/-! ## Barriers -/

@[simp] theorem withBar_mem (s : State) (b : Nat) (x : Bar) : (withBar s b x).mem = s.mem := rfl

@[simp] theorem barArriveBody_wf {num : BitVec 4} {t : State} (hs : Memory.wf t.mem = true) : ActWf (barArriveBody num t) := by
  simp [barArriveBody, hs]

@[simp] theorem barWaitBody_wf {num : BitVec 4} {t : State} (hs : Memory.wf t.mem = true) : ActWf (barWaitBody num t) := by
  simp [barWaitBody, hs]

@[simp] theorem execBarPhaseAdvance_wf {b : Nat} {s : State} (hs : Memory.wf s.mem = true) : NextWf (execBarPhaseAdvance b s) := by
  simp only [execBarPhaseAdvance]
  split <;> simp [hs]

@[simp] theorem bobOr_mem_wf {s : State} {pa bits : Nat} (hs : Memory.wf s.mem = true) : Memory.wf (bobOr s pa bits).mem = true := by
  simp [bobOr, hs, Memory.wf_memSetNat]

@[simp] theorem bobApply_mem_wf {s : State} {pa : Nat} {op : BobOp} (hs : Memory.wf s.mem = true) :
    Memory.wf (bobApply s pa op).mem = true := by
  simp only [bobApply]
  split
  · simp [hs, Memory.wf_memSetNat]
  · split <;> simp [hs]

@[simp] theorem bobInstr_wf {op : BobOp} {releases : Bool} {va : Word} {t : State} (hs : Memory.wf t.mem = true) :
    ActWf (bobInstr op releases va t) := by
  obtain ⟨x, t', hx⟩ : ∃ x t', translate t va .write = (x, t') := ⟨_, _, rfl⟩
  cases x <;> simp [bobInstr, hx, translate_ok_mem hx, hs]

@[simp] theorem bobWaitBody_wf {ra : BitVec 5} {t : State} (hs : Memory.wf t.mem = true) : ActWf (bobWaitBody ra t) := by
  obtain ⟨x, t', hx⟩ : ∃ x t', translate t (regRead t ra &&& ~~~1#64) .write = (x, t') := ⟨_, _, rfl⟩
  simp only [bobWaitBody, hx]
  cases x <;> simp [translate_ok_mem hx, hs]

@[simp] theorem domainAccess_mem_wf {s : State} {pa : Nat} {op : RemoteOp} (hs : Memory.wf s.mem = true) :
    Memory.wf (domainAccess s pa op).mem = true := by
  simp only [domainAccess]
  split <;> simp [hs, homeWrite_mem_wf, Memory.wf_memSetNat]

/-! ## Ports, layouts and completions -/

theorem pageOf_mem {s t : State} {va : Word} {kind : AccessKind} {p : Pin} (h : pageOf s va kind = .ok t p) : t.mem = s.mem := by
  unfold pageOf at h
  split at h
  · cases h
  · rename_i hx
    split at h <;> cases h <;> exact translate_ok_mem hx

theorem pinRange_mem {exec : Bool} {kind : AccessKind} {cap : Nat} {hi : Int} {n : Nat} {s t : State} {lo : Int} {pins pins' : List Pin}
    (h : pinRange exec kind cap hi n s lo pins = .ok t pins') : t.mem = s.mem := by
  induction n generalizing s lo pins with
  | zero => cases h
  | succ n ih =>
    unfold pinRange at h
    split at h
    · cases h; rfl
    · split at h
      · cases h
      · cases h
      · cases h
      · rename_i hp
        split at h
        · cases h
        · split at h
          · exact (ih h).trans (pageOf_mem hp)
          · split at h
            · cases h
            · exact (ih h).trans (pageOf_mem hp)

theorem pinLayout_mem {s t : State} {l : Layout} {kind : AccessKind} {pins : List Pin} {x : Layout × List Pin}
    (h : pinLayout s l kind pins = .ok t x) : t.mem = s.mem := by
  simp only [pinLayout] at h
  split at h
  · cases h; rfl
  · split at h
    · cases h
    · cases h
    · cases h
    · rename_i hp
      split at h
      · cases h; exact pageOf_mem hp
      · split at h
        · cases h
        · split at h
          · rename_i hr
            cases h
            exact (pinRange_mem hr).trans (pageOf_mem hp)
          · cases h
          · cases h
          · cases h

theorem recordRead_mem {s t : State} {va : Word} {n : Nat} {cls : BitVec 4} {who : Nat} {take : Dest → State → Option State} {bs : List Byte}
    (htake : ∀ d u v, take d u = some v → v.mem = u.mem) (h : recordRead s va n cls who take = .ok t bs) : t.mem = s.mem := by
  unfold recordRead at h
  split at h
  · cases h
  · rename_i hx
    split at h
    · cases h
    · split at h
      · cases h
      · rename_i hk
        split at h <;> cases h
        exact (htake _ _ _ hk).trans (translate_ok_mem hx)

theorem layoutSlot_mem {key : Nat × Nat} {pkg : Dest} {s t : State} (h : layoutSlot key pkg s = some t) : t.mem = s.mem := by
  unfold layoutSlot at h
  split at h
  · cases h; rfl
  · split at h <;> cases h; simp

theorem readLayouts_mem {cls : BitVec 4} {names : List (Nat × Bool)} {s t : State} {ls ls' : List Layout}
    (h : readLayouts cls names s ls = .ok t ls') : t.mem = s.mem := by
  induction names generalizing s ls with
  | nil => cases h; rfl
  | cons x more ih =>
    obtain ⟨i, wr⟩ := x
    simp only [readLayouts] at h
    split at h
    · cases h
    · split at h
      · cases h
      · cases h
      · cases h
      · rename_i hr
        split at h
        · cases h
        · rw [ih h, setCur_mem, recordRead_mem (fun _ _ _ hk => layoutSlot_mem hk) hr]

theorem pinLayouts_mem {xs : List ((Nat × Bool) × Layout)} {s t : State} {ls : List Layout} {pins : List Pin} {x : List Layout × List Pin}
    (h : pinLayouts xs s ls pins = .ok t x) : t.mem = s.mem := by
  induction xs generalizing s ls pins with
  | nil => cases h; rfl
  | cons y more ih =>
    obtain ⟨⟨i, wr⟩, l⟩ := y
    simp only [pinLayouts] at h
    split at h
    · cases h
    · cases h
    · cases h
    · rename_i hp
      exact (ih h).trans (pinLayout_mem hp)

theorem pinOthers_mem {s t : State} {e : Nat} {q : Quad} {pins pins' : List Pin} (h : pinOthers s e q pins = .ok t pins') :
    t.mem = s.mem := by
  simp only [pinOthers] at h
  split at h
  · cases h
  · cases h
  · cases h
  · rename_i s' ps hr
    have hs' : s'.mem = s.mem := by
      split at hr
      · cases hr; rfl
      · exact pinRange_mem hr
    split at h
    · exact (pinRange_mem h).trans hs'
    · cases h; exact hs'

theorem readBlock_mem {s t : State} {e : Nat} {q : Quad} {bs : List Byte} (h : readBlock s e q = .ok t bs) : t.mem = s.mem := by
  unfold readBlock at h
  split at h
  · refine recordRead_mem (fun d u v hk => ?_) h
    split at hk <;> cases hk
    simp
  · cases h; rfl

theorem gather_mem {s t : State} {e : Nat} {q : Quad} {x : List Layout × List Pin × List Byte} (h : gather s e q = .ok t x) :
    t.mem = s.mem := by
  simp only [gather] at h
  split at h
  · cases h
  · cases h
  · cases h
  · rename_i hb
    split at h
    · cases h
    · cases h
    · cases h
    · rename_i hl
      split at h
      · cases h
      · cases h
      · cases h
      · rename_i hp
        split at h
        · cases h
        · cases h
        · cases h
        · rename_i ho
          cases h
          rw [pinOthers_mem ho, pinLayouts_mem hp, readLayouts_mem hl, readBlock_mem hb]

@[simp] theorem advanceSeq_mem (s : State) (core e : Nat) : (advanceSeq s core e).mem = s.mem := by simp [advanceSeq]

@[simp] theorem accept_mem (s : State) (e : Nat) (q : Quad) (ls : List Layout) (ps : List Pin) (block : List Byte) :
    (accept s e q ls ps block).mem = s.mem := by
  simp [accept]

@[simp] theorem portGoBody_wf {rd : BitVec 5} {eng : BitVec 4} {t : State} (hs : Memory.wf t.mem = true) : ActWf (portGoBody rd eng t) := by
  simp only [portGoBody, actWf_ite]
  split
  · simp
  · split
    · simp
    · split
      · simp
      · split
        · simp
        · split
          · simp
          · split
            · simp
            · split
              · simp
              · simp
              · simp
              · rename_i hg
                simp [gather_mem hg, hs]

@[simp] theorem signalVf_mem (s : State) (part vector : Nat) : (signalVf s part vector).mem = s.mem := rfl

@[simp] theorem onAway_mem (s : State) (uid : Nat) (f : Away → Away) : (onAway s uid f).mem = s.mem := rfl

@[simp] theorem putRecord_mem (s : State) (c : Cmd) (r : Rec) (reserved : Bool) : (putRecord s c r reserved).mem = s.mem := by
  simp [putRecord]

@[simp] theorem complete_mem_wf {s : State} {c : Cmd} {status sub : BitVec 8} {detail count : Nat} (hs : Memory.wf s.mem = true) :
    Memory.wf (complete s c status sub detail count).mem = true := by
  simp only [complete]
  (repeat' split) <;> simp [hs]

@[simp] theorem haltOn_mem (s : State) (c : Cmd) (status : BitVec 8) : (haltOn s c status).mem = s.mem := by simp [haltOn]

@[simp] theorem cutCmd_mem_wf {s : State} {c : Cmd} (hs : Memory.wf s.mem = true) : Memory.wf (cutCmd s c).mem = true := by
  unfold cutCmd
  split <;> simp [hs]

@[simp] theorem cutCmds_mem_wf {s : State} {xs : List Cmd} (hs : Memory.wf s.mem = true) : Memory.wf (cutCmds s xs).mem = true := by
  induction xs generalizing s with
  | nil => exact hs
  | cons x xs ih => exact ih (by simp [hs])

@[simp] theorem cutQueue_mem_wf {s : State} {core slot e : Nat} {p : Cmd → Bool} (hs : Memory.wf s.mem = true) :
    Memory.wf (cutQueue s core slot e p).mem = true := by
  simp [cutQueue, hs]

@[simp] theorem storeRecord_mem (s : State) (va : Word) (pa : Nat) (leaf : Word) (bs : List Byte) (xs : Nat) :
    (storeRecord s va pa leaf bs xs).mem = s.mem := by
  induction xs with
  | zero => rfl
  | succ n ih => simp [storeRecord, ih]

theorem popped_wf {t : State} {rd : BitVec 5} {f : State → Rec → State} (hs : Memory.wf t.mem = true)
    (hf : ∀ u r, Memory.wf u.mem = true → Memory.wf (f u r).mem = true) : ActWf (popped t rd f) := by
  simp only [popped]
  split
  · simp [hs]
  · simp [hs, hf]

@[simp] theorem execEvqPop_wf {rd ra : BitVec 5} {s : State} (hs : Memory.wf s.mem = true) : NextWf (execEvqPop rd ra s) := by
  refine scalarWord_wf hs ?_
  obtain ⟨x, t, hx⟩ : ∃ x t, translate s (regRead s ra) .write = (x, t) := ⟨_, _, rfl⟩
  have hp := popped_wf (rd := rd) (f := fun t _ => t) hs fun _ _ hu => hu
  cases x with
  | fail c => simp [hx, hp]
  | ok pa leaf =>
    have ht : Memory.wf t.mem = true := by rw [translate_ok_mem hx]; exact hs
    have hq := popped_wf (rd := rd) (f := fun u r => storeRecord u (regRead s ra) pa leaf (recBytes r) 4) ht fun u r hu => by simp [hu]
    simp [hx, hp, hq]

@[simp] theorem evqWaitBody_wf {t : State} (hs : Memory.wf t.mem = true) : ActWf (evqWaitBody t) := by simp [evqWaitBody, hs]

@[simp] theorem setPosterUnit_mem (s : State) (p : Poster) (u : Unit) : (setPosterUnit s p u).mem = s.mem := by
  simp only [setPosterUnit]
  (repeat' split) <;> simp

@[simp] theorem takeHead_mem (s : State) (p : Poster) (e : Nat) (r : Run) : (takeHead s p e r).mem = s.mem := by simp [takeHead]

@[simp] theorem startCmd_wf {e : Nat} {row : CRow} {p : Poster} {q : Quad} {may : State → Cmd → Bool} {go : State → Cmd → State}
    {s : State} (hs : Memory.wf s.mem = true) (hgo : ∀ c, Memory.wf (go s c).mem = true) : NextWf (startCmd e row p q may go s) := by
  unfold startCmd
  split
  · exact hs
  · simp [hs, hgo]

@[simp] theorem setRun_mem (s : State) (r : Run) : (setRun s r).mem = s.mem := rfl

@[simp] theorem startRejected_mem (e : Nat) (p : Poster) (s : State) (c : Cmd) : (startRejected e p s c).mem = s.mem := by
  simp [startRejected]

/-! ## Copies and fills -/

theorem putBytes_mem_wf {pins : List Pin} {bs : List Byte} {va : Nat} {a : Walk} (hs : Memory.wf a.s.mem = true) :
    Memory.wf (putBytes pins bs va a).s.mem = true := by
  induction bs generalizing va a with
  | nil => exact hs
  | cons b bs ih =>
    unfold putBytes
    split
    · exact ih hs
    · split
      · exact ih hs
      · exact ih (writeBytes_mem_wf _ _ _ hs)

theorem putElem_mem_wf {pins : List Pin} {bit w v : Nat} {bad : Bool} {a : Walk} (hs : Memory.wf a.s.mem = true) :
    Memory.wf (putElem pins bit w v bad a).s.mem = true := by
  simp only [putElem]
  split <;> exact putBytes_mem_wf hs

@[simp] theorem refuseAll_mem (s : State) (xs : List Nat) : (refuseAll s xs).mem = s.mem := by
  induction xs generalizing s with
  | nil => rfl
  | cons x xs ih => simp [refuseAll, ih]

@[simp] theorem workedRun_mem (s : State) (r : Run) (ws : List (Nat × Lane × Lane × Bool)) (status : BitVec 8) (detail count : Nat) :
    (workedRun s r ws status detail count).mem = s.mem :=
  rfl

theorem askLines_mem {s t : State} {r : Run} {need : List (Nat × Bool)} (h : askLines s r need = some t) : t.mem = s.mem := by
  simp only [askLines] at h
  split at h
  · cases h
  · split at h
    · cases h; rfl
    · split at h <;> cases h <;> simp

@[simp] theorem freeLines_mem (s : State) (r : Run) : (freeLines s r).mem = s.mem := rfl

@[simp] theorem readElem_mem (s : State) (r : Run) (l : Layout) (i : Nat) : (readElem s r l i).mem = s.mem := by simp [readElem]

@[simp] theorem readPlane_mem (s : State) (r : Run) (l : Layout) (i : Nat) : (readPlane s r l i).mem = s.mem := by
  simp only [readPlane]
  split <;> simp

@[simp] theorem fillTile_mem (s : State) (r : Run) : (fillTile s r).mem = s.mem := by
  simp only [fillTile]
  (repeat' split) <;> simp

theorem storeElem_mem_wf {pins : List Pin} {l : Layout} {q : Quad} {i j : Nat} {v : Nat × Bool} {a : Walk} (hs : Memory.wf a.s.mem = true) :
    Memory.wf (storeElem pins l q i j v a).s.mem = true := by
  unfold storeElem
  split
  · exact hs
  · exact putElem_mem_wf hs

@[simp] theorem stopIf_s (bad : Bool) (i : Nat) (a : Walk) : (stopIf bad i a).s = a.s := by
  unfold stopIf
  split <;> rfl

theorem walkElem_mem_wf {s : State} {c : Cmd} {row : CRow} {dst : Layout} {i j : Nat} {a : Walk} (hs : Memory.wf a.s.mem = true) :
    Memory.wf (walkElem s c row dst i j a).s.mem = true := by
  simp only [walkElem]
  split
  · simp [storeElem_mem_wf, hs]
  · split <;> simp [storeElem_mem_wf, hs]
  · exact storeElem_mem_wf hs

@[simp] theorem writeElem_mem_wf {s : State} {r : Run} {row : CRow} {dst : Layout} {i : Nat} (hs : Memory.wf s.mem = true) :
    Memory.wf (writeElem s r row dst i).mem = true := by
  simp [writeElem, walkElem_mem_wf, hs]

@[simp] theorem hodElem_mem_wf {s : State} {r : Run} {row : CRow} (hs : Memory.wf s.mem = true) :
    Memory.wf (hodElem s r row).mem = true := by
  unfold hodElem
  split <;> simp [hs]

@[simp] theorem hodWork_mem_wf {s : State} {r : Run} {row : CRow} (hs : Memory.wf s.mem = true) :
    Memory.wf (hodWork s r row).mem = true := by
  simp only [hodWork]
  split
  · simp [hs]
  · split
    · exact hs
    · exact getD_mem_wf (fun t ht => by rw [askLines_mem ht]; exact hs) (by simp [hs])

@[simp] theorem imloadWork_mem (s : State) (r : Run) : (imloadWork s r).mem = s.mem := by
  simp only [imloadWork, mem_ite, setRun_mem]
  rw [getD_mem (s := s) (fun _ h => askLines_mem h) (by simp), ite_self]

@[simp] theorem hodServe_mem (s : State) (c : Cmd) : (hodServe s c).mem = s.mem := rfl

@[simp] theorem hodRun_mem_wf {s : State} {r : Run} (hs : Memory.wf s.mem = true) : Memory.wf (hodRun s r).mem = true := by
  simp [hodRun, hs]

@[simp] theorem hodGo_mem_wf {p : Poster} {row : CRow} {s : State} {c : Cmd} (hs : Memory.wf s.mem = true) :
    Memory.wf (hodGo p row s c).mem = true := by
  simp [hodGo, hs]

@[simp] theorem startHod_wf {row : CRow} {p : Poster} {q : Quad} {s : State} (hs : Memory.wf s.mem = true) :
    NextWf (startHod row p q s) := by
  simp [startHod, hs]

@[simp] theorem hodRejected_wf {p : Poster} {q : Quad} {s : State} (hs : Memory.wf s.mem = true) : NextWf (hodRejected p q s) := by
  simp [hodRejected, hs]

@[simp] theorem pushLines_mem (s : State) (xs : List (Nat × BitVec 512)) : (pushLines s xs).1.mem = s.mem := by
  induction xs generalizing s with
  | nil => rfl
  | cons x xs ih =>
    obtain ⟨c, line⟩ := x
    unfold pushLines
    split
    · rename_i t ht
      rw [ih, inletOffer_mem ht]
    · rfl

@[simp] theorem enterMore_mem (s : State) (r : Run) (x : Rec) (xs : List Rec) : (enterMore s r x xs).mem = s.mem := by simp [enterMore]

@[simp] theorem endCmd_mem_wf {s : State} {r : Run} (hs : Memory.wf s.mem = true) : Memory.wf (endCmd s r).mem = true := by
  simp [endCmd, hs]

/-! ## Traces and time -/

@[simp] theorem withTrace_mem (s : State) (p : Nat) (t : Trace) : (withTrace s p t).mem = s.mem := rfl

theorem putTrace_mem_wf {s t : State} {p rd : Nat} {bs : List Byte} (hs : Memory.wf s.mem = true) (h : putTrace s p rd bs = some t) :
    Memory.wf t.mem = true := by
  simp only [putTrace] at h
  split at h
  · cases h
  · split at h
    · cases h
    · rename_i s1 hb
      obtain ⟨u, hu, hw⟩ := Option.bind_eq_some_iff.mp hb
      have h1 := hubWrite_mem_wf _ _ _ _ _ (hubWrite_mem_wf _ _ _ _ _ hs hu) hw
      cases h
      simp [h1]

@[simp] theorem dropTrace_mem_wf {s : State} {p : Nat} (hs : Memory.wf s.mem = true) : Memory.wf (dropTrace s p).mem = true := by
  simp only [dropTrace, mem_ite, signalVf_mem, ite_self]
  exact getD_mem_wf (fun t ht => hubWrite_mem_wf _ _ _ _ _ (by exact hs) ht) hs

@[simp] theorem owedTrace_mem_wf {s : State} {p rd : Nat} (hs : Memory.wf s.mem = true) : Memory.wf (owedTrace s p rd).mem = true := by
  simp only [owedTrace]
  split
  · exact hs
  · split
    · rename_i hp
      simp [putTrace_mem_wf hs hp]
    · exact hs

@[simp] theorem placeTrace_mem_wf {s : State} {p : Nat} {bs : List Byte} (hs : Memory.wf s.mem = true) :
    Memory.wf (placeTrace s p bs).1.mem = true := by
  simp only [placeTrace]
  split
  · exact hs
  · split
    · simp [hs]
    · split
      · rename_i hp
        exact putTrace_mem_wf (by simp [hs]) hp
      · simp [hs]

@[simp] theorem traceWrite_mem (s : State) (p eng core : Nat) (bs : List Byte) : (traceWrite s p eng core bs).mem = s.mem := rfl

@[simp] theorem arriveTrace_mem_wf {s : State} {x : TraceIn} (hs : Memory.wf s.mem = true) : Memory.wf (arriveTrace s x).mem = true := by
  simp only [arriveTrace]
  split <;> simp [hs]

@[simp] theorem flushTrace_mem_wf {s : State} (hs : Memory.wf s.mem = true) : Memory.wf (flushTrace s).mem = true :=
  foldl_wf (fun _ _ ht => arriveTrace_mem_wf ht) hs

@[simp] theorem syncAll_mem (bs : List Byte) (xs : List (Nat × Part)) (s : State) : (syncAll bs xs s).mem = s.mem := by
  induction xs generalizing s with
  | nil => rfl
  | cons x xs ih => simp [syncAll, ih]

@[simp] theorem enterSync_mem (s : State) (st : Nat) (offset : Int) (before : Nat) : (enterSync s st offset before).mem = s.mem := by
  simp [enterSync]

@[simp] theorem discipline_mem (s : State) (offset : Int) : (discipline s offset).mem = s.mem := by simp [discipline]

@[simp] theorem loadTime_mem (s : State) (tns : Nat) : (loadTime s tns).mem = s.mem := by simp [loadTime]

@[simp] theorem tick_mem (s : State) : (tick s).mem = s.mem := by simp [tick]

@[simp] theorem sleepBody_wf {ra : BitVec 5} {t : State} (hs : Memory.wf t.mem = true) : ActWf (sleepBody ra t) := by simp [sleepBody, hs]

@[simp] theorem markGo_mem (p : Poster) (s : State) (c : Cmd) : (markGo p s c).mem = s.mem := by simp [markGo]

/-! ## Tiers and ropes -/

@[simp] theorem withItin_mem (s : State) (slot : Nat) (it : Itin) : (withItin s slot it).mem = s.mem := rfl

@[simp] theorem tierSend_mem (s : State) (it : Itin) (dst : Nat) (b : FlitBody) : (tierSend s it dst b).mem = s.mem := by
  unfold tierSend
  split <;> simp

@[simp] theorem execHopStart_wf {slot hop : Nat} {s : State} (hs : Memory.wf s.mem = true) : NextWf (execHopStart slot hop s) := by
  simp only [execHopStart]
  (repeat' split) <;> simp [hs]

@[simp] theorem moveBytes_mem_wf {s : State} {pins : List Pin} {dst src n : Nat} (hs : Memory.wf s.mem = true) :
    Memory.wf (moveBytes s pins dst src n).1.mem = true := by
  simp only [moveBytes]
  split <;> exact putBytes_mem_wf hs

@[simp] theorem startH2_mem_wf {s : State} {slot : Nat} {it : Itin} {i : Nat} {t : TStep} {l : Layout} (hs : Memory.wf s.mem = true) :
    Memory.wf (startH2 s slot it i t l).mem = true := by
  simp only [startH2]
  (repeat' split) <;> simp [hs]

@[simp] theorem progRecord_mem (s : State) (it : Itin) (i : Nat) : (progRecord s it i).mem = s.mem := by
  unfold progRecord
  split <;> simp

@[simp] theorem hopDone_mem (s : State) (slot : Nat) (it : Itin) (i h : Nat) (t : TStep) : (hopDone s slot it i h t).mem = s.mem := by
  simp [hopDone]

@[simp] theorem clearLine_mem (s : State) (pins : List Pin) (va : Nat) : (clearLine s pins va).mem = s.mem := by
  unfold clearLine
  split <;> simp

@[simp] theorem poisonAt_mem (s : State) (pins : List Pin) (vas : List Nat) : (poisonAt s pins vas).mem = s.mem := rfl

@[simp] theorem hopPiece_mem_wf {s : State} {slot : Nat} {it : Itin} {i h : Nat} {t : TStep} {landing : Bool} {total : Nat}
    (hs : Memory.wf s.mem = true) : Memory.wf (hopPiece s slot it i h t landing total).mem = true := by
  simp [hopPiece, apply_ite Prod.fst, putBytes_mem_wf, hs]

@[simp] theorem stagingHop_mem_wf {s : State} {slot : Nat} {it : Itin} {i h : Nat} {t : TStep} (hs : Memory.wf s.mem = true) :
    Memory.wf (stagingHop s slot it i h t).mem = true := by
  simp [stagingHop, hs]

@[simp] theorem runHop_mem_wf {s : State} {slot : Nat} {it : Itin} {i h : Nat} {t : TStep} (hs : Memory.wf s.mem = true) :
    Memory.wf (runHop s slot it i h t).mem = true := by
  simp only [runHop]
  (repeat' split) <;> simp [hs]

@[simp] theorem execHopComplete_wf {slot hop : Nat} {s : State} (hs : Memory.wf s.mem = true) : NextWf (execHopComplete slot hop s) := by
  unfold execHopComplete
  split
  · exact hs
  · split <;> simp [hs]

@[simp] theorem relate_mem (s : State) (slot h : Nat) : (relate s slot h).mem = s.mem := by
  simp only [relate]
  (repeat' split) <;> simp

@[simp] theorem reportConsumed_mem (s : State) (slot : Nat) : (reportConsumed s slot).mem = s.mem := by
  unfold reportConsumed
  split <;> simp

@[simp] theorem relates_mem (slot : Nat) (xs : List Nat) (s : State) : (relates slot xs s).mem = s.mem := by
  induction xs generalizing s with
  | nil => rfl
  | cons x xs ih => simp [relates, ih]

@[simp] theorem execLatenessRecompute_wf {slot : Nat} {s : State} (hs : Memory.wf s.mem = true) :
    NextWf (execLatenessRecompute slot s) := by
  unfold execLatenessRecompute
  split <;> simp [hs]

@[simp] theorem sendJoin_mem (s : State) (it : Itin) : (sendJoin s it).mem = s.mem := by simp [sendJoin]

@[simp] theorem tierGo_mem (p : Poster) (role : Nat) (s : State) (c : Cmd) : (tierGo p role s c).mem = s.mem := by
  simp only [tierGo]
  (repeat' split) <;> simp

@[simp] theorem tierRejected_wf {p : Poster} {q : Quad} {s : State} (hs : Memory.wf s.mem = true) : NextWf (tierRejected p q s) := by
  simp [tierRejected, hs]

@[simp] theorem stopGo_mem (p : Poster) (drain : Bool) (s : State) (c : Cmd) : (stopGo p drain s c).mem = s.mem := by
  simp only [stopGo]
  (repeat' split) <;> simp

@[simp] theorem tellLeave_mem (s : State) (slot : Nat) (it : Itin) : (tellLeave s slot it).mem = s.mem := by simp [tellLeave]

@[simp] theorem tierWork_mem (s0 : State) (r : Run) : (tierWork s0 r).mem = s0.mem := by
  simp only [tierWork]
  (repeat' split) <;> simp

@[simp] theorem execJoin_wf {k : Nat} {s : State} (hs : Memory.wf s.mem = true) : NextWf (execJoin k s) := by
  simp only [execJoin]
  (repeat' split) <;> simp [hs]

@[simp] theorem sendCopies_mem (s : State) (it : Itin) (i : Nat) (bs : List Byte) (bad : List Nat) (xs : List Subscriber) :
    (sendCopies s it i bs bad xs).mem = s.mem := by
  induction xs generalizing s with
  | nil => rfl
  | cons x xs ih => simp [sendCopies, ih]

@[simp] theorem execRopeSend_wf {slot : Nat} {s : State} (hs : Memory.wf s.mem = true) : NextWf (execRopeSend slot s) := by
  simp only [execRopeSend]
  (repeat' split) <;> simp [hs]

@[simp] theorem execConsumedReport_wf {k : Nat} {s : State} (hs : Memory.wf s.mem = true) : NextWf (execConsumedReport k s) := by
  refine onFlit_mem_wf hs fun t fl u ht hu => ?_
  (repeat' split at hu) <;> cases hu <;> simp [ht]

@[simp] theorem execMulticastLanding_wf {k : Nat} {s : State} (hs : Memory.wf s.mem = true) : NextWf (execMulticastLanding k s) := by
  refine onFlit_mem_wf hs fun t fl u ht hu => ?_
  (repeat' split at hu) <;> cases hu <;> simp [ht]

@[simp] theorem execSubscriberLeave_wf {slot pkg : Nat} {s : State} (hs : Memory.wf s.mem = true) :
    NextWf (execSubscriberLeave slot pkg s) := by
  unfold execSubscriberLeave
  split <;> simp [hs]

@[simp] theorem dropRemoteSubs_mem (gone : Nat → Bool) (s : State) : (dropRemoteSubs gone s).mem = s.mem := rfl

theorem tierFlit_mem {s t : State} {f : Flit} (h : tierFlit s f = some t) : t.mem = s.mem := by
  unfold tierFlit at h
  (repeat' split at h) <;> cases h <;> simp

@[simp] theorem oweLess_mem (s : State) (src : DepSrc) (core : Nat) (w : Nat × Nat) : (oweLess s src core w).mem = s.mem := by
  unfold oweLess
  split <;> simp

@[simp] theorem flightAcked_mem (s : State) (core n : Nat) (mine : MFlight → Bool) : (flightAcked s core n mine).mem = s.mem := by
  simp only [flightAcked]
  (repeat' split) <;> simp

@[simp] theorem settleDep_mem (h core : Nat) (s : State) (x : DepSrc × Nat) : (settleDep h core s x).mem = s.mem := by
  unfold settleDep
  split <;> simp

@[simp] theorem hopCounted_mem (t : State) (slot i : Nat) : (hopCounted t slot i).mem = t.mem := by
  simp only [hopCounted]
  (repeat' split) <;> simp

@[simp] theorem afterDeposit_mem (s t : State) (k : Nat) : (afterDeposit s t k).mem = t.mem := by
  unfold afterDeposit
  split
  · rfl
  · split
    · simp
    · simp only [mem_ite]
      rw [foldl_mem _ (fun t x => settleDep_mem _ _ t x)]
      simp
    · rw [mem_ite, foldl_mem _ (fun t x => settleDep_mem _ _ t x), ite_self]
    · rw [mem_ite, foldl_mem _ (fun t x => settleDep_mem _ _ t x), ite_self]
    · simp
    · rfl

/-! ## Collectives, puts and links -/

@[simp] theorem setColl_mem (s : State) (c : Coll) : (setColl s c).mem = s.mem := rfl

@[simp] theorem softFail_mem (s : State) (id : Nat) (status sub : BitVec 8) (detail : Nat) :
    (softFail s id status sub detail).mem = s.mem :=
  rfl

@[simp] theorem sendPiece_mem (s : State) (c : Coll) (p : Piece) : (sendPiece s c p).mem = s.mem := by simp [sendPiece]

@[simp] theorem sendPieces_mem (s : State) (c : Coll) (xs : List Piece) : (sendPieces s c xs).mem = s.mem := by
  induction xs generalizing s with
  | nil => rfl
  | cons x xs ih => simp [sendPieces, ih]

@[simp] theorem sendShare_mem_wf {s : State} {id q : Nat} {dst : Layout} (hs : Memory.wf s.mem = true) :
    Memory.wf (sendShare s id q dst).mem = true := by
  unfold sendShare
  split <;> simp [hs]

@[simp] theorem failColl_mem (s : State) (id : Nat) (status sub : BitVec 8) (detail : Nat) :
    (failColl s id status sub detail).mem = s.mem := by
  unfold failColl
  split <;> simp

@[simp] theorem sendShares_mem_wf {s : State} {id : Nat} {xs : List (Nat × Layout)} (hs : Memory.wf s.mem = true) :
    Memory.wf (sendShares s id xs).mem = true := by
  induction xs generalizing s with
  | nil => exact hs
  | cons x xs ih => exact ih (by simp [hs])

@[simp] theorem shareAll_mem_wf {s : State} {id : Nat} (hs : Memory.wf s.mem = true) : Memory.wf (shareAll s id).mem = true := by
  unfold shareAll
  split <;> simp [hs]

@[simp] theorem spendAnns_mem (c : Coll) (xs : List Nat) (s : State) : (spendAnns c xs s).mem = s.mem := by
  induction xs generalizing s with
  | nil => rfl
  | cons x xs ih => simp [spendAnns, ih]

@[simp] theorem hear_mem_wf {s : State} {c : Coll} {a : Announce} (hs : Memory.wf s.mem = true) : Memory.wf (hear s c a).mem = true := by
  simp [hear, hs]

@[simp] theorem hearAll_mem_wf {xs : List Flit} {s : State} (hs : Memory.wf s.mem = true) : Memory.wf (hearAll xs s).mem = true := by
  induction xs generalizing s with
  | nil => exact hs
  | cons x xs ih =>
    simp only [hearAll]
    (repeat' split) <;> exact ih (by simp [hs])

@[simp] theorem rehear_mem_wf {s : State} (hs : Memory.wf s.mem = true) : Memory.wf (rehear s).mem = true := by simp [rehear, hs]

@[simp] theorem pruneRank_mem (s : State) (id q : Nat) : (pruneRank s id q).mem = s.mem := by
  unfold pruneRank
  split <;> simp

@[simp] theorem announceTo_mem (c : Coll) (xs : List Nat) (s : State) : (announceTo c xs s).mem = s.mem := by
  induction xs generalizing s with
  | nil => rfl
  | cons x xs ih => simp [announceTo, ih]

@[simp] theorem takeRows_mem (s : State) (c : Coll) : (takeRows s c).mem = s.mem := by simp [takeRows]

@[simp] theorem dropRows_mem (s : State) (c : Coll) : (dropRows s c).mem = s.mem := by simp [dropRows]

@[simp] theorem advanceColl_mem_wf {s : State} {id : Nat} (hs : Memory.wf s.mem = true) : Memory.wf (advanceColl s id).mem = true := by
  simp only [advanceColl]
  (repeat' split) <;> simp [hs]

@[simp] theorem spliceGo_mem_wf {p : Poster} {s : State} {c : Cmd} (hs : Memory.wf s.mem = true) :
    Memory.wf (spliceGo p s c).mem = true := by
  unfold spliceGo
  split <;> simp [hs]

@[simp] theorem startSplice_wf {row : CRow} {p : Poster} {q : Quad} {s : State} (hs : Memory.wf s.mem = true) :
    NextWf (startSplice row p q s) := by
  simp [startSplice, hs]

@[simp] theorem spliceRejected_wf {p : Poster} {q : Quad} {s : State} (hs : Memory.wf s.mem = true) : NextWf (spliceRejected p q s) := by
  simp [spliceRejected, hs]

@[simp] theorem ackPiece_mem (s : State) (f : Flit) (p : Piece) (refused : Bool) : (ackPiece s f p refused).mem = s.mem := by
  simp [ackPiece]

@[simp] theorem landElems_mem (s : State) (f : Flit) (p : Piece) (b : List Byte) (reduce : Bool) (written : List Nat) :
    (landElems s f p b reduce written).1.mem = s.mem := by
  simp [landElems, apply_ite Prod.fst]

@[simp] theorem writeElems_mem (s : State) (c : Coll) (bad : List Nat) (xs : List (Nat × Nat)) (row : Option (Nat × Nat))
    (ack : Option (Nat × FlitBody)) : (writeElems s c bad xs row ack).mem = s.mem :=
  rfl

@[simp] theorem runJob_mem_wf {s : State} {id : Nat} (hs : Memory.wf s.mem = true) : Memory.wf (runJob s id).mem = true := by
  simp only [runJob]
  split
  · exact hs
  · split
    · exact hs
    · split
      · split
        · simp [putElem_mem_wf, hs]
        · simp [hs]
      · split <;> simp [hs]

@[simp] theorem keepContribs_mem (s : State) (c : Coll) (f : Flit) (p : Piece) : (keepContribs s c f p).mem = s.mem := by
  simp [keepContribs]

@[simp] theorem landKept_mem (s : State) (b : List Byte) (f : Flit) (vals : List (Nat × Nat)) (xs : List (Nat × Piece)) :
    (landKept s b f vals xs).mem = s.mem := by
  induction xs generalizing s with
  | nil => rfl
  | cons x xs ih =>
    obtain ⟨src, p⟩ := x
    simp only [landKept]
    rw [ih, landElems_mem]

@[simp] theorem keepForTile_mem (s : State) (c : Coll) (f : Flit) (p : Piece) : (keepForTile s c f p).mem = s.mem := by simp [keepForTile]

@[simp] theorem joinRow_mem (s : State) (c : Coll) (f : Flit) (p : Piece) : (joinRow s c f p).mem = s.mem := by
  simp only [joinRow]
  split
  · simp
  · split <;> simp

theorem landPiece_mem {s t : State} {f : Flit} {p : Piece} (h : landPiece s f p = some t) : t.mem = s.mem := by
  simp only [landPiece] at h
  (repeat' split at h) <;> cases h <;> simp

@[simp] theorem pushQueued_mem (s : State) (c : Coll) (tgt : Nat) : (pushQueued s c tgt).mem = s.mem := by
  unfold pushQueued
  split <;> simp

@[simp] theorem pieceAcked_mem (s : State) (id tgt : Nat) (refused : Bool) : (pieceAcked s id tgt refused).mem = s.mem := by
  simp only [pieceAcked]
  split <;> simp

@[simp] theorem execRemoteRowHandoff_wf {core sub : Nat} {s : State} (hs : Memory.wf s.mem = true) :
    NextWf (execRemoteRowHandoff core sub s) := by
  simp only [execRemoteRowHandoff]
  (repeat' split) <;> simp [hs]

@[simp] theorem execRemoteRowArrival_wf {k : Nat} {s : State} (hs : Memory.wf s.mem = true) : NextWf (execRemoteRowArrival k s) := by
  refine onFlit_mem_wf hs fun t fl u ht hu => ?_
  split at hu
  · dsimp only at hu
    (repeat' split at hu) <;> cases hu <;> simp [ht]
  · cases hu

theorem enterReport_mem {s t : State} {r : RemoteRow} (h : enterReport s r = some t) : t.mem = s.mem := by
  simp only [enterReport] at h
  (repeat' split at h) <;> cases h <;> simp

@[simp] theorem rowAcked_mem (s : State) (r : RemoteRow) : (rowAcked s r).mem = s.mem := by simp [rowAcked]

@[simp] theorem rowAnswer_mem (s : State) (f : Flit) (r : RemoteRow) (refused : Bool) : (rowAnswer s f r refused).mem = s.mem := by
  simp only [rowAnswer, mem_ite, rowAcked_mem]
  rw [getD_mem (s := s) (fun _ h => (enterReport_mem h).trans (by simp)) (by simp), ite_self]

theorem applySignal_mem_wf {s : State} {core va : Nat} {value : Word} {add : Bool} {r : State × BitVec 8} (hs : Memory.wf s.mem = true)
    (h : applySignal s core va value add = some r) : Memory.wf r.1.mem = true := by
  unfold applySignal at h
  split at h
  · cases h; exact hs
  · split at h
    · cases h; exact hs
    · split at h
      · cases h; simp [hs]
      · split at h
        · cases h
        · cases h; exact Memory.wf_memSetNat _ _ _ _ hs

@[simp] theorem execSignalApply_wf {k : Nat} {s : State} (hs : Memory.wf s.mem = true) : NextWf (execSignalApply k s) := by
  refine onFlit_mem_wf hs fun t fl u ht hu => ?_
  split at hu
  · obtain ⟨r, hr, rfl⟩ := Option.map_eq_some_iff.mp hu
    simp [applySignal_mem_wf ht hr]
  · cases hu

@[simp] theorem signalAcked_mem (s : State) (id : Nat) (cause : BitVec 8) : (signalAcked s id cause).mem = s.mem := by
  unfold signalAcked
  split <;> simp

@[simp] theorem execCollectiveAnnounce_wf {k : Nat} {s : State} (hs : Memory.wf s.mem = true) : NextWf (execCollectiveAnnounce k s) := by
  refine onFlit_mem_wf hs fun t fl u ht hu => ?_
  split at hu <;> cases hu
  simp [ht]

@[simp] theorem forgetAnn_mem (s : State) (group : List Byte) (collid rank tgt core : Nat) :
    (forgetAnn s group collid rank tgt core).mem = s.mem :=
  rfl

@[simp] theorem execMemberWithdraw_wf {k : Nat} {s : State} (hs : Memory.wf s.mem = true) : NextWf (execMemberWithdraw k s) := by
  refine onFlit_mem_wf hs fun t fl u ht hu => ?_
  split at hu
  · dsimp only at hu
    split at hu <;> cases hu <;> simp [ht]
  · cases hu

@[simp] theorem withdrawTo_mem (c : Coll) (xs : List Nat) (s : State) : (withdrawTo c xs s).mem = s.mem := by
  induction xs generalizing s with
  | nil => rfl
  | cons x xs ih => simp [withdrawTo, ih]

@[simp] theorem retractTo_mem (c : Coll) (xs : List Nat) (s : State) : (retractTo c xs s).mem = s.mem := by
  induction xs generalizing s with
  | nil => rfl
  | cons x xs ih => simp [retractTo, ih]

@[simp] theorem ackJobs_mem (core : Nat) (xs : List WJob) (s : State) : (ackJobs core xs s).mem = s.mem := by
  induction xs generalizing s with
  | nil => rfl
  | cons x xs ih =>
    simp only [ackJobs, ih]
    (repeat' split) <;> simp

@[simp] theorem ackKept_mem (xs : List (Nat × Piece)) (s : State) : (ackKept xs s).mem = s.mem := by
  induction xs generalizing s with
  | nil => rfl
  | cons x xs ih => simp [ackKept, ih]

@[simp] theorem removeColl_mem (s : State) (c : Coll) : (removeColl s c).mem = s.mem := by simp [removeColl]

@[simp] theorem withdrawColls_mem (s : State) (xs : List Coll) : (withdrawColls s xs).mem = s.mem := by
  induction xs generalizing s with
  | nil => rfl
  | cons x xs ih => simp [withdrawColls, ih]

theorem flitEffect_mem {s t : State} {f : Flit} (h : flitEffect s f = some t) : t.mem = s.mem := by
  unfold flitEffect at h
  split at h
  · exact landPiece_mem h
  · cases h; simp
  · cases h; simp
  · cases h; simp
  · cases h; simp
  · exact tierFlit_mem h

@[simp] theorem execFlitReceive_wf {k : Nat} {s : State} (hs : Memory.wf s.mem = true) : NextWf (execFlitReceive k s) :=
  onFlit_mem_wf hs fun t fl u ht hu => by rw [flitEffect_mem hu]; exact ht

@[simp] theorem execFlitReoffer_wf {k : Nat} {s : State} (hs : Memory.wf s.mem = true) : NextWf (execFlitReoffer k s) := by
  simp only [execFlitReoffer]
  split
  · exact hs
  · split
    · split <;> simp [hs]
    · exact getD_mem_wf (fun t ht => by rw [enterReport_mem ht]; exact hs) hs
    · exact hs

@[simp] theorem payloadSent_mem (s : State) (c : Coll) : (payloadSent s c).2.mem = s.mem := by
  unfold payloadSent
  split
  · rfl
  · split <;> rfl

@[simp] theorem pushAll_mem (s : State) (id : Nat) : (pushAll s id).mem = s.mem := by
  unfold pushAll
  split
  · rfl
  · refine foldl_mem _ (fun t q => ?_) _ s
    split <;> simp

@[simp] theorem spliceWork_mem_wf {s : State} {r : Run} (hs : Memory.wf s.mem = true) : Memory.wf (spliceWork s r).mem = true := by
  simp only [spliceWork]
  (repeat' split) <;> simp [hs]

@[simp] theorem withFport_mem (s : State) (p : Nat) (f : FPort) : (withFport s p f).mem = s.mem := rfl

@[simp] theorem giveUp_mem (s : State) (id : Nat) : (giveUp s id).mem = s.mem := by
  unfold giveUp
  split <;> simp

@[simp] theorem cutOff_mem_wf {s : State} {cs : List Coll} (hs : Memory.wf s.mem = true) : Memory.wf (cutOff s cs).mem = true := by
  induction cs generalizing s with
  | nil => exact hs
  | cons c cs ih =>
    simp only [cutOff]
    split
    · refine ih (shareAll_mem_wf ?_)
      rw [foldl_mem _ (fun t q => pruneRank_mem t _ q)]
      exact hs
    · split <;> exact ih (by simp [hs])

@[simp] theorem pathsGone_mem_wf {s : State} (hs : Memory.wf s.mem = true) : Memory.wf (pathsGone s).mem = true := by simp [pathsGone, hs]

@[simp] theorem portLost_mem_wf {s : State} {p : Nat} (hs : Memory.wf s.mem = true) : Memory.wf (portLost s p).mem = true := by
  simp [portLost, hs]

@[simp] theorem pathReport_mem_wf {s : State} {pkg : Nat} {up : Bool} (hs : Memory.wf s.mem = true) :
    Memory.wf (pathReport s pkg up).mem = true := by
  simp [pathReport, hs]

/-! ## Units and tasks -/

@[simp] theorem withNode_mem (s : State) (n : Nat × Nat) (x : Node) : (withNode s n x).mem = s.mem := rfl

@[simp] theorem putTask_mem_wf {s : State} {id : Nat} {t : Task} (hs : Memory.wf s.mem = true) : Memory.wf (putTask s id t).mem = true :=
  writeBytes_mem_wf _ _ _ hs

@[simp] theorem dropTask_mem_wf {s : State} {id : Nat} {t : Task} (hs : Memory.wf s.mem = true) : Memory.wf (dropTask s id t).mem = true :=
  writeBytes_mem_wf _ _ _ hs

@[simp] theorem nodesLive_mem (s : State) (xs : List (Nat × Nat)) : (nodesLive s xs).mem = s.mem := by
  induction xs generalizing s with
  | nil => rfl
  | cons x xs ih => simp [nodesLive, ih]

@[simp] theorem nodesEnd_mem (s : State) (good : Bool) (xs : List (Nat × Nat)) : (nodesEnd s good xs).mem = s.mem := by
  induction xs generalizing s with
  | nil => rfl
  | cons x xs ih => simp [nodesEnd, ih]

@[simp] theorem emitDecrs_mem (s : State) (p : Nat) (cancel : Bool) (core : Nat) (accs : List Nat) (uid src : Option Nat)
    (xs : List (Nat × Nat × Word × Nat × Nat)) : (emitDecrs s p cancel core accs uid src xs).mem = s.mem :=
  rfl

@[simp] theorem cancelSuccessors_mem (s : State) (p : Nat) (b : List Byte) : (cancelSuccessors s p b).mem = s.mem := rfl

@[simp] theorem taskEnd_mem_wf {s : State} {id : Nat} {status : BitVec 8} {arming : Bool} {from_ : Option (Nat × Nat)}
    (hs : Memory.wf s.mem = true) : Memory.wf (taskEnd s id status arming from_).mem = true := by
  simp only [taskEnd]
  (repeat' split) <;> simp [hs]

@[simp] theorem unitGone_mem (s : State) (core slot : Nat) : (unitGone s core slot).mem = s.mem := rfl

@[simp] theorem endUnit_mem_wf {s : State} {core slot : Nat} {status : BitVec 8} (hs : Memory.wf s.mem = true) :
    Memory.wf (endUnit s core slot status).mem = true := by
  simp [endUnit, hs]

@[simp] theorem cutAll_mem_wf {core slot : Nat} {xs : List Nat} {s : State} (hs : Memory.wf s.mem = true) :
    Memory.wf (cutAll core slot xs s).mem = true := by
  induction xs generalizing s with
  | nil => exact hs
  | cons x xs ih => exact ih (by simp [hs])

@[simp] theorem haltBody_wf {status : BitVec 8} {t : State} (hs : Memory.wf t.mem = true) : ActWf (haltBody status t) := by
  simp [haltBody, hs]

@[simp] theorem tskEndBody_wf {ra : BitVec 5} {t : State} (hs : Memory.wf t.mem = true) : ActWf (tskEndBody ra t) := by
  simp [tskEndBody, hs]

@[simp] theorem stopUnit_mem_wf {s : State} {core slot : Nat} (hs : Memory.wf s.mem = true) :
    Memory.wf (stopUnit s core slot).mem = true := by
  simp [stopUnit, hs]

@[simp] theorem execUnitEnd_wf {core slot : Nat} {s : State} (hs : Memory.wf s.mem = true) : NextWf (execUnitEnd core slot s) := by
  simp only [execUnitEnd]
  split <;> simp [hs]

@[simp] theorem cancelUnit_mem (s : State) (core slot : Nat) : (cancelUnit s core slot).mem = s.mem := rfl

@[simp] theorem endAway_mem_wf {s : State} {a : Away} {status : BitVec 8} (hs : Memory.wf s.mem = true) :
    Memory.wf (endAway s a status).mem = true := by
  simp [endAway, hs]

@[simp] theorem undoDispatch_mem_wf {s : State} {core slot : Nat} (hs : Memory.wf s.mem = true) :
    Memory.wf (undoDispatch s core slot).mem = true := by
  simp [undoDispatch, hs]

@[simp] theorem cancelTask_mem_wf {s : State} {pass : Bool} {id : Nat} (hs : Memory.wf s.mem = true) :
    Memory.wf (cancelTask s pass id).mem = true := by
  simp only [cancelTask]
  (repeat' split) <;> simp [hs]

@[simp] theorem cancelTasks_mem_wf {pass : Bool} {xs : List Nat} {s : State} (hs : Memory.wf s.mem = true) :
    Memory.wf (cancelTasks pass xs s).mem = true := by
  induction xs generalizing s with
  | nil => exact hs
  | cons x xs ih => exact ih (by simp [hs])

@[simp] theorem decrement_mem_wf {s : State} {d : Decr} (hs : Memory.wf s.mem = true) : Memory.wf (decrement s d).mem = true := by
  simp only [decrement]
  split <;> simp [writeBytes_mem_wf, hs]

@[simp] theorem cancelSuccessor_mem_wf {s : State} {d : Decr} (hs : Memory.wf s.mem = true) :
    Memory.wf (cancelSuccessor s d).mem = true := by
  unfold cancelSuccessor
  split <;> simp [writeBytes_mem_wf, hs]

@[simp] theorem execDepcntDecrement_wf {k : Nat} {s : State} (hs : Memory.wf s.mem = true) : NextWf (execDepcntDecrement k s) := by
  unfold execDepcntDecrement
  split <;> simp [hs]

@[simp] theorem armTask_mem_wf {s : State} {p va pa : Nat} {leaf : Word} {page : Nat × Nat} {x : List Byte} (hs : Memory.wf s.mem = true) :
    Memory.wf (armTask s p va pa leaf page x).mem = true := by
  simp [armTask, hs]

@[simp] theorem tskArmBody_wf {ra : BitVec 5} {t : State} (hs : Memory.wf t.mem = true) : ActWf (tskArmBody ra t) := by
  obtain ⟨x, t1, hx⟩ : ∃ x t1, translate t (regRead t ra) .write = (x, t1) := ⟨_, _, rfl⟩
  cases x <;> simp [tskArmBody, hx, translate_ok_mem hx, hs]

@[simp] theorem wakeTask_mem (s : State) (pa : Nat) : (wakeTask s pa).mem = s.mem := by
  simp only [wakeTask]
  (repeat' split) <;> simp

@[simp] theorem tskSigBody_wf {ra : BitVec 5} {t : State} (hs : Memory.wf t.mem = true) : ActWf (tskSigBody ra t) := by
  obtain ⟨x, t1, hx⟩ : ∃ x t1, translate t (BitVec.ofNat 64 ((regRead t ra).toNat / 4 * 4)) .write = (x, t1) := ⟨_, _, rfl⟩
  simp only [tskSigBody, hx]
  cases x <;> simp [translate_ok_mem hx, hs]

@[simp] theorem execTskRetry_wf {ra : BitVec 5} {s : State} (hs : Memory.wf s.mem = true) : NextWf (execTskRetry ra s) := by
  refine scalarWord_wf hs ?_
  obtain ⟨x, t, hx⟩ : ∃ x t, translate s (regRead s ra) .write = (x, t) := ⟨_, _, rfl⟩
  cases x with
  | fail c => simp [hx]
  | ok pa leaf =>
    cases ha : armedAt t pa <;> simp [hx, ha, translate_ok_mem hx, hs]

@[simp] theorem cancelNode_mem_wf {s : State} {n : Nat × Nat} (hs : Memory.wf s.mem = true) : Memory.wf (cancelNode s n).mem = true := by
  simp [cancelNode, hs]

@[simp] theorem hlCancelBody_wf {ra rb : BitVec 5} {t : State} (hs : Memory.wf t.mem = true) : ActWf (hlCancelBody ra rb t) := by
  unfold hlCancelBody
  split <;> simp [hs]

@[simp] theorem execHlRead_wf {rd ra rb : BitVec 5} {s : State} (hs : Memory.wf s.mem = true) : NextWf (execHlRead rd ra rb s) := by
  refine scalarWord_wf hs ?_
  dsimp only
  split <;> simp [hs]

/-! ## Contexts, dispatch and pre-emption -/

@[simp] theorem putPiece_mem_wf {s : State} {pa : Nat} {b : Byte} (hs : Memory.wf s.mem = true) :
    Memory.wf (putPiece s pa b).mem = true := by
  simp [putPiece, writeBytes_mem_wf, hs]

@[simp] theorem putVia_mem_wf {pins : List Pin} {bs : List Byte} {va : Nat} {s : State} (hs : Memory.wf s.mem = true) :
    Memory.wf (putVia pins bs va s).mem = true := by
  induction bs generalizing va s with
  | nil => exact hs
  | cons b bs ih =>
    refine ih ?_
    split <;> simp [hs]

@[simp] theorem performPiece_mem_wf {s : State} {pa : Nat} (hs : Memory.wf s.mem = true) : Memory.wf (performPiece s pa).mem = true :=
  foldl_wf (fun t _ ht => writeBytes_mem_wf t _ _ ht) hs

@[simp] theorem runEvent_mem (s : State) (core : Nat) (e : VecEvent) : (runEvent s core e).1.mem = s.mem := by
  cases e <;> simp [runEvent]

@[simp] theorem landShadow_mem (core b n : Nat) (s : State) (out : List PendWrite) (olds : List (Nat × Row)) :
    (landShadow core b n s out olds).1.mem = s.mem := by
  induction n generalizing s out olds with
  | zero => rfl
  | succ n ih =>
    simp only [landShadow]
    split
    · rfl
    · rename_i e _
      have hrun := runEvent_mem s core e
      split
      · rename_i t key lanes ht
        rw [ht] at hrun
        split <;> exact (ih _ _ _).trans hrun
      · rename_i t ht
        rw [ht] at hrun
        exact (ih _ _ _).trans hrun

@[simp] theorem takeShadow_mem (s : State) (core : Nat) : (takeShadow s core).mem = s.mem := by simp [takeShadow]

@[simp] theorem stopGroup_mem (s : State) (core slot : Nat) : (stopGroup s core slot).mem = s.mem := by simp [stopGroup]

@[simp] theorem contextError_mem (s : State) (core slot : Nat) : (contextError s core slot).mem = s.mem := rfl

@[simp] theorem saveUnit_mem_wf {s : State} {core slot : Nat} (hs : Memory.wf s.mem = true) :
    Memory.wf (saveUnit s core slot).mem = true := by
  simp only [saveUnit]
  (repeat' split) <;> simp [hs]

@[simp] theorem moveUnit_mem (s : State) (a : Away) (core slot : Nat) : (moveUnit s a core slot).mem = s.mem := by simp [moveUnit]

@[simp] theorem restoreUnit_mem (s : State) (a : Away) (core slot vbase : Nat) (imgs : List (List Byte)) (places : List (Nat × Nat × Nat)) :
    (restoreUnit s a core slot vbase imgs places).mem = s.mem := by
  unfold restoreUnit
  split <;> simp

@[simp] theorem restoreLost_mem_wf {s : State} {a : Away} {va : Nat} (hs : Memory.wf s.mem = true) :
    Memory.wf (restoreLost s a va).mem = true := by
  simp [restoreLost, hs]

@[simp] theorem returnUnit_mem_wf {s : State} {a : Away} {core slot vbase : Nat} {places : List (Nat × Nat × Nat)}
    (hs : Memory.wf s.mem = true) : Memory.wf (returnUnit s a core slot vbase places).mem = true := by
  unfold returnUnit
  split <;> simp [hs]

/-! ## Batches and commands at the gate -/

@[simp] theorem withQuad_mem (s : State) (q : Nat) (x : Quadrant) : (withQuad s q x).mem = s.mem := rfl

@[simp] theorem dispatchTask_mem_wf {s : State} {p id : Nat} {t : Task} {x : Place} (hs : Memory.wf s.mem = true) :
    Memory.wf (dispatchTask s p id t x).mem = true := by
  simp [dispatchTask, hs]

@[simp] theorem execDispatch_wf {core slot : Nat} {s : State} (hs : Memory.wf s.mem = true) : NextWf (execDispatch core slot s) := by
  simp only [execDispatch]
  (repeat' split) <;> simp [hs]

@[simp] theorem noteWaited_mem (s : State) (id : Nat) : (noteWaited s id).mem = s.mem := by
  unfold noteWaited
  split <;> simp

@[simp] theorem execResume_wf {core slot k : Nat} {s : State} (hs : Memory.wf s.mem = true) : NextWf (execResume core slot k s) := by
  simp only [execResume]
  (repeat' split) <;> simp [hs]

@[simp] theorem markHead_mem (s : State) (p : Nat) : (markHead s p).mem = s.mem := rfl

@[simp] theorem blockHead_mem (s : State) (part : Nat) : (blockHead s part).mem = s.mem := by
  simp only [blockHead]
  (repeat' split) <;> simp

@[simp] theorem schedTick_mem (s : State) : (schedTick s).mem = s.mem := by
  unfold schedTick
  split
  · rfl
  · exact foldl_mem _ (fun t e => by simp) _ s

@[simp] theorem askPreempt_mem (s : State) (core slot : Nat) : (askPreempt s core slot).mem = s.mem := by simp [askPreempt]

@[simp] theorem execPreemption_wf {core slot : Nat} {s : State} (hs : Memory.wf s.mem = true) : NextWf (execPreemption core slot s) := by
  simp [execPreemption, hs]

@[simp] theorem haltChan_mem (s : State) (c : Nat) (cause : BitVec 8) : (haltChan s c cause).mem = s.mem := rfl

@[simp] theorem armBatch_mem_wf {s : State} {c : Nat} (hs : Memory.wf s.mem = true) : Memory.wf (armBatch s c).mem = true := by
  simp only [armBatch]
  split <;> simp [hs]

@[simp] theorem closeBatch_mem_wf {s : State} {c cause : Nat} (hs : Memory.wf s.mem = true) :
    Memory.wf (closeBatch s c cause).mem = true := by
  simp only [closeBatch]
  split
  · exact hs
  · split
    · simp [hs]
    · split
      · simp [hs]
      · split
        · simp [hs]
        · exact armBatch_mem_wf (by simp [hs])

@[simp] theorem takeIn_mem_wf {c fuel : Nat} {s : State} (hs : Memory.wf s.mem = true) : Memory.wf (takeIn c fuel s).mem = true := by
  induction fuel generalizing s with
  | zero => exact hs
  | succ fuel ih =>
    simp only [takeIn]
    split
    · split
      · exact hs
      · split
        · simp [hs]
        · exact ih (by simp [hs])
    · exact hs

@[simp] theorem execRequestArrival_wf {inlet : Inlet} {line : BitVec 512} {s : State} (hs : Memory.wf s.mem = true) :
    NextWf (execRequestArrival inlet line s) := by
  unfold execRequestArrival
  split
  · split
    · rename_i ho
      simp [inletOffer_mem ho, hs]
    · exact hs
  · exact hs

@[simp] theorem execBatchOpen_wf {chan : Nat} {s : State} (hs : Memory.wf s.mem = true) : NextWf (execBatchOpen chan s) := by
  simp only [execBatchOpen]
  split <;> simp [hs]

@[simp] theorem execBatchDeadline_wf {chan : Nat} {s : State} (hs : Memory.wf s.mem = true) : NextWf (execBatchDeadline chan s) := by
  simp [execBatchDeadline, hs]

@[simp] theorem closeLate_mem_wf {s : State} (hs : Memory.wf s.mem = true) : Memory.wf (closeLate s).mem = true :=
  foldl_wf (fun t _ ht => by simp [ht]) hs

@[simp] theorem hostShort_mem (s : State) (fn chan : Nat) : (hostShort s fn chan).mem = s.mem := by simp [hostShort]

@[simp] theorem gatEnd_mem (p : Poster) (s : State) (c : Cmd) (status sub : BitVec 8) (detail count : Nat) :
    (gatEnd p s c status sub detail count).mem = s.mem := by
  simp [gatEnd]

@[simp] theorem gatOpenGo_mem (p : Poster) (s : State) (c : Cmd) : (gatOpenGo p s c).mem = s.mem := by
  simp only [gatOpenGo]
  (repeat' split) <;> simp

@[simp] theorem closeChan_mem (s : State) (c : Nat) : (closeChan s c).mem = s.mem := rfl

@[simp] theorem gatCloseGo_mem (p : Poster) (s : State) (c : Cmd) : (gatCloseGo p s c).mem = s.mem := by simp [gatCloseGo]

@[simp] theorem flushWork_mem_wf {s : State} {r : Run} (hs : Memory.wf s.mem = true) : Memory.wf (flushWork s r).mem = true := by
  simp only [flushWork]
  split <;> simp [hs]

@[simp] theorem gatFlushGo_mem_wf {p : Poster} {s : State} {c : Cmd} (hs : Memory.wf s.mem = true) :
    Memory.wf (gatFlushGo p s c).mem = true := by
  simp [gatFlushGo, hs]

@[simp] theorem gatRejected_wf {p : Poster} {q : Quad} {s : State} (hs : Memory.wf s.mem = true) : NextWf (gatRejected p q s) := by
  simp [gatRejected, hs]

@[simp] theorem trcRejected_wf {p : Poster} {q : Quad} {s : State} (hs : Memory.wf s.mem = true) : NextWf (trcRejected p q s) := by
  simp [trcRejected, hs]

@[simp] theorem commandWork_mem_wf {s : State} {r : Run} (hs : Memory.wf s.mem = true) : Memory.wf (commandWork s r).mem = true := by
  unfold commandWork
  split <;> simp [hs]

@[simp] theorem takeLines_mem_wf {s : State} {xs : List (Nat × BitVec 512)} (hs : Memory.wf s.mem = true) :
    Memory.wf (takeLines s xs).mem = true := by
  induction xs generalizing s with
  | nil => exact hs
  | cons x xs ih => exact ih (by simp [hs])

@[simp] theorem execCommandEnd_wf {k : Nat} {s : State} (hs : Memory.wf s.mem = true) : NextWf (execCommandEnd k s) := by
  simp only [execCommandEnd]
  (repeat' split) <;> simp [hs]

/-! ## Traps, checks, replay and migration -/

@[simp] theorem takePending_mem (s : State) (core slot : Nat) : (takePending s core slot).mem = s.mem := by
  simp only [takePending]
  split <;> simp

@[simp] theorem execTrapEntry_wf {core slot : Nat} {s : State} (hs : Memory.wf s.mem = true) : NextWf (execTrapEntry core slot s) := by
  simp [execTrapEntry, hs]

@[simp] theorem checkedAs_wf {core slot : Nat} {how : Compared} {s : State} {o : Host.Outcome State Fault Refusal}
    (hs : Memory.wf s.mem = true) (ho : NextWf o) : NextWf (checkedAs core slot how s o) := by
  simp only [checkedAs]
  split
  · split
    · simp [hs]
    · split
      · simpa using ho
      · exact ho
    · exact ho
  · exact ho

@[simp] theorem checkedWord_wf {core slot : Nat} {i : Instr} {s : State} {o : Host.Outcome State Fault Refusal}
    (hs : Memory.wf s.mem = true) (ho : NextWf o) : NextWf (checkedWord core slot i s o) :=
  checkedAs_wf hs ho

@[simp] theorem raiseCheck_mem (s : State) (core slot : Nat) : (raiseCheck s core slot).mem = s.mem := by
  simp only [raiseCheck]
  split <;> simp

@[simp] theorem groupBack_mem (s : State) : (groupBack s).mem = s.mem := by
  simp only [groupBack]
  split <;> simp

@[simp] theorem eretBody_wf {t : State} (hs : Memory.wf t.mem = true) : ActWf (eretBody t) := by
  simp only [eretBody]
  (repeat' split) <;> simp [hs]

@[simp] theorem retryWait_wf {i : Instr} {s : State} (hs : Memory.wf s.mem = true) : NextWf (retryWait i s) := by
  cases i with
  | wfe | knotWait | tokGive | tokTake | tokCfgClaim | tokCfgRelease | talloc | tfree | tsetfEmpty | tsetfFull | tsetfTarget | twait
  | engStart | fabBond | fabBondNw | fabDrain | barArrive | barWait | bobWait | portGo | evqWait | sleepuntil | tskArm | halt | tskEnd =>
    exact scalarWord_wf hs (by simp [hs])
  | _ => exact hs

@[simp] theorem withFocus_wf {f : Focus} {o : Host.Outcome State Fault Refusal} (ho : NextWf o) : NextWf (withFocus f o) := by
  cases o <;> simp_all [withFocus]

@[simp] theorem execScalarWaitResume_wf {core slot : Nat} {s : State} (hs : Memory.wf s.mem = true) :
    NextWf (execScalarWaitResume core slot s) := by
  simp only [execScalarWaitResume]
  split
  · exact hs
  · split
    · exact hs
    · split
      · exact hs
      · exact withFocus_wf (checkedWord_wf hs (retryWait_wf hs))

@[simp] theorem escalate_mem (s0 : State) (core slot n : Nat) (b0 : Sub) (block : Option Nat) (cause : BitVec 8) :
    (escalate s0 core slot n b0 block cause).mem = s0.mem :=
  rfl

@[simp] theorem replaySub_mem (s : State) (core slot n : Nat) (b : Sub) (block : Option Nat) (cause : BitVec 8) :
    (replaySub s core slot n b block cause).mem = s.mem := by
  simp [replaySub]

@[simp] theorem endReplay_mem (s : State) (core n : Nat) : (endReplay s core n).mem = s.mem := rfl

@[simp] theorem execSubArrayReplay_wf {core sub : Nat} {s : State} (hs : Memory.wf s.mem = true) :
    NextWf (execSubArrayReplay core sub s) := by
  simp only [execSubArrayReplay]
  (repeat' split) <;> simp [hs]

@[simp] theorem checkScalar_mem (s : State) (core slot : Nat) : (checkScalar s core slot).mem = s.mem := by simp [checkScalar]

@[simp] theorem checkEgress_mem (s : State) (core n : Nat) : (checkEgress s core n).mem = s.mem := by
  simp only [checkEgress]
  split <;> simp

@[simp] theorem applyUpset_mem (s : State) (xs : Upset) : (applyUpset s xs).mem = s.mem := by
  cases xs <;> simp [applyUpset]

@[simp] theorem askCores_mem (xs : List Nat) (s : State) : (askCores xs s).mem = s.mem := by
  induction xs generalizing s with
  | nil => rfl
  | cons c cs ih =>
    unfold askCores
    rw [ih]
    exact foldl_mem _ (fun t i => by simp) _ s

@[simp] theorem clearJournals_mem (xs : List Nat) (s : State) : (clearJournals xs s).mem = s.mem := by
  induction xs generalizing s with
  | nil => rfl
  | cons x xs ih => simp [clearJournals, ih]

@[simp] theorem signalPf_mem (s : State) (v : Nat) : (signalPf s v).mem = s.mem := rfl

@[simp] theorem sendNotices_mem (q cores : Nat) (xs : List Nat) (s : State) : (sendNotices q cores xs s).mem = s.mem := by
  induction xs generalizing s with
  | nil => rfl
  | cons x xs ih => simp [sendNotices, ih]

/-! ## Partitions and the mailbox -/

@[simp] theorem dropTlb_mem (f : TlbEntry → Bool) (s : State) : (dropTlb f s).mem = s.mem := rfl

@[simp] theorem execInvalidation_wf {part : Nat} {addr : Word} {s : State} (hs : Memory.wf s.mem = true) :
    NextWf (execInvalidation part addr s) := by
  simp [execInvalidation, writeBytes_mem_wf, hs]

@[simp] theorem execInvalidationDone_wf {part : Nat} {s : State} (hs : Memory.wf s.mem = true) : NextWf (execInvalidationDone part s) := by
  unfold execInvalidationDone
  split <;> simp [writeBytes_mem_wf, hs]

@[simp] theorem execPageMigration_wf {part : Nat} {va : Word} {frame : Nat} {s : State} (hs : Memory.wf s.mem = true) :
    NextWf (execPageMigration part va frame s) := by
  simp only [execPageMigration]
  split <;> simp [hs, Memory.wf_memSetNat]

@[simp] theorem moveTranslations_mem (m : Mig) (s : State) : (moveTranslations m s).mem = s.mem := rfl

theorem copyPage_wf {m : Mig} {mem : List Host.Cell} (h : Memory.wf mem = true) : Memory.wf (copyPage m mem) = true :=
  List.foldlRecOn (motive := fun m => Memory.wf m = true) _ _ (Memory.wf_filter _ _ h) fun _ hacc _ _ => Memory.wf_memSetByte _ _ _ hacc

theorem remapAt_wf {m : Mig} {root : Nat} {mem : List Host.Cell} {va : Nat} (h : Memory.wf mem = true) :
    Memory.wf (remapAt m root mem va) = true := by
  unfold remapAt
  split
  · exact Memory.wf_memSetNat _ _ _ _ h
  · exact h

theorem remapLeaf_wf {s : State} {m : Mig} (h : Memory.wf s.mem = true) : Memory.wf (remapLeaf s m) = true :=
  List.foldlRecOn (motive := fun m => Memory.wf m = true) _ _ h fun _ hacc _ _ => remapAt_wf hacc

@[simp] theorem execMigrationRemap_wf {k : Nat} {s : State} (hs : Memory.wf s.mem = true) : NextWf (execMigrationRemap k s) := by
  simp only [execMigrationRemap]
  split
  · exact hs
  · refine foldl_wf (fun t _ ht => homeWrite_mem_wf t _ _ _ ht) ?_
    rw [moveTranslations_mem]
    exact remapLeaf_wf (copyPage_wf hs)

@[simp] theorem withBox_mem (s : State) (n : Nat) (b : Mailbox) : (withBox s n b).mem = s.mem := rfl

@[simp] theorem endBox_mem (s : State) (n : Nat) (status : BitVec 8) (payload : List Byte) : (endBox s n status payload).mem = s.mem := rfl

theorem ringBox_mem_wf {n : Nat} {m : Window} {go : State → State} {s : State} (hs : Memory.wf s.mem = true)
    (hgo : ∀ b, Memory.wf (go (withBox s n b)).mem = true) : Memory.wf (ringBox n m go s).mem = true := by
  simp [ringBox, hs, hgo]

@[simp] theorem ringOp_wf {n op last : Nat} {m : Window} {go : State → State} {s : State} (hs : Memory.wf s.mem = true)
    (hgo : ∀ b, Memory.wf (go (withBox s n b)).mem = true) : NextWf (ringOp n op last m go s) := by
  simp [ringOp, ringBox_mem_wf, hs, hgo]

@[simp] theorem withStack_mem (s : State) (d : Nat) (x : Stack) : (withStack s d x).mem = s.mem := rfl

@[simp] theorem grantBars_mem (s : State) (old new : Part) : (grantBars s old new).mem = s.mem := rfl

@[simp] theorem stopSlots_mem (slots : List Nat) (s : State) : (stopSlots slots s).mem = s.mem := rfl

@[simp] theorem closeChans_mem (cs : List Nat) (s : State) : (closeChans cs s).mem = s.mem :=
  foldl_mem _ closeChan_mem _ s

@[simp] theorem grantKeys_mem (p : Part) (s : State) : (grantKeys p s).mem = s.mem := rfl

@[simp] theorem eraseKeys_mem_wf {pt : Part} {ks : List Nat} {s : State} (hs : Memory.wf s.mem = true) :
    Memory.wf (eraseKeys pt ks s).mem = true :=
  List.foldlRecOn (motive := fun m => Memory.wf m = true) _ _ hs fun _ hm _ _ =>
    List.foldlRecOn (motive := fun m => Memory.wf m = true) _ _ hm fun _ hm _ _ => by
      simp [hm, Memory.wf_memSetBytes]

@[simp] theorem forgetCores_mem (cores : List Nat) (s : State) : (forgetCores cores s).mem = s.mem := rfl

@[simp] theorem beginWithdraw_mem (part : Nat) (old new : Part) (s : State) : (beginWithdraw part old new s).mem = s.mem := by
  simp [beginWithdraw]

@[simp] theorem zeroLost_mem_wf {old new : List Win} {s : State} (hs : Memory.wf s.mem = true) : Memory.wf (zeroLost old new s).mem = true :=
  Memory.wf_filter _ _ hs

@[simp] theorem passCore_mem (n : Nat) (s : State) (c : Nat) : (passCore n s c).mem = s.mem := rfl

@[simp] theorem passQuads_mem (n : Nat) (quads : List Nat) (s : State) : (passQuads n quads s).mem = s.mem :=
  foldl_mem _ (fun t c => by simp) _ s

@[simp] theorem createGo_mem (m : Window) (s : State) : (createGo m s).mem = s.mem := by simp [createGo]

@[simp] theorem resizeGo_mem (m : Window) (s : State) : (resizeGo m s).mem = s.mem := by simp [resizeGo]

@[simp] theorem cancelNodes_mem_wf {xs : List (Nat × Nat)} {s : State} (hs : Memory.wf s.mem = true) :
    Memory.wf (cancelNodes xs s).mem = true := by
  induction xs generalizing s with
  | nil => exact hs
  | cons x xs ih => exact ih (by simp [hs])

@[simp] theorem destroyGo_mem_wf {m : Window} {s : State} (hs : Memory.wf s.mem = true) : Memory.wf (destroyGo m s).mem = true := by
  simp [destroyGo, hs]

@[simp] theorem freeRuns_mem (s : State) (n : Nat) : (freeRuns s n).mem = s.mem := by simp [freeRuns]

@[simp] theorem freePart_mem_wf {s : State} {n : Nat} (hs : Memory.wf s.mem = true) : Memory.wf (freePart s n).mem = true := by
  simp [freePart, hs]

@[simp] theorem resizeDone_mem_wf {s : State} {n : Nat} {old new : Part} (hs : Memory.wf s.mem = true) :
    Memory.wf (resizeDone s n old new).mem = true := by
  simp [resizeDone, hs]

@[simp] theorem mgmtTick_mem_wf {s : State} (hs : Memory.wf s.mem = true) : Memory.wf (mgmtTick s).mem = true := by
  simp only [mgmtTick]
  (repeat' split) <;> simp [hs]

@[simp] theorem preemptGo_mem (m : Window) (s : State) : (preemptGo m s).mem = s.mem := by simp [preemptGo]

@[simp] theorem linkupGo_mem (m : Window) (s : State) : (linkupGo m s).mem = s.mem := by simp [linkupGo]

@[simp] theorem attestGo_mem_wf {m : Window} {s : State} (hs : Memory.wf s.mem = true) : Memory.wf (attestGo m s).mem = true := by
  simp [attestGo, writeBytes_mem_wf, hs]

@[simp] theorem telemetryGo_mem (m : Window) (s : State) : (telemetryGo m s).mem = s.mem := by simp [telemetryGo]

@[simp] theorem scrubGo_mem (m : Window) (s : State) : (scrubGo m s).mem = s.mem := by simp [scrubGo]

@[simp] theorem hotRemove_mem (rs : List (Nat × Nat)) (s : State) : (hotRemove rs s).mem = s.mem := by
  unfold hotRemove
  rw [foldl_mem _ (fun t e => by simp)]
  simp

@[simp] theorem retainEnter_mem (s : State) (rs : List (Nat × Nat)) : (retainEnter s rs).mem = s.mem := by simp [retainEnter]

@[simp] theorem retainGo_mem_wf {m : Window} {s : State} (hs : Memory.wf s.mem = true) : Memory.wf (retainGo m s).mem = true := by
  simp [retainGo, Memory.wf_filter, hs]

@[simp] theorem retainTick_mem (s : State) : (retainTick s).mem = s.mem := by
  unfold retainTick
  split <;> simp

@[simp] theorem repairlogGo_mem (m : Window) (s : State) : (repairlogGo m s).mem = s.mem := by simp [repairlogGo]

@[simp] theorem recoverGo_mem (m : Window) (s : State) : (recoverGo m s).mem = s.mem := by simp [recoverGo]

@[simp] theorem coldStart_mem_wf {s : State} (hs : Memory.wf s.mem = true) : Memory.wf (coldStart s).mem = true :=
  Memory.wf_filter _ _ hs

@[simp] theorem execRecoverReset_wf {s : State} (hs : Memory.wf s.mem = true) : NextWf (execRecoverReset s) := by
  unfold execRecoverReset
  split <;> simp [hs]

@[simp] theorem hostTick_mem_wf {s : State} (hs : Memory.wf s.mem = true) : Memory.wf (hostTick s).mem = true := by simp [hostTick, hs]

/-! ## Issue -/

@[simp] theorem fetchLine_mem (s : State) (line : Nat) : (fetchLine s line).mem = s.mem := by simp [fetchLine]

/-! ## Every instruction -/

/-- Every row keeps the form: the rows of one form (an operation on registers, a load, a vector word, a command, a mailbox operation) by
the lemma of that form, the others by a lemma of their own. -/
theorem exec_wf {i : Instr} {s : State} (hs : Memory.wf s.mem = true) : NextWf (exec i s) := by
  cases i with
  | trap | hset | hins | jal | jalr | fence | bknotSet | bknotClr | bstatSet | bstatClr | getsr | putsr | rdtime | rdcyc | sleepuntil
  | talloc | tfree | tinfo | tsetfEmpty | tsetfFull | tsetfTarget | twait | portW | portGo | portCut | tskArm | tskSigDec | tskSigWake
  | tskEnd | hlCancel | hlCancelReset | knotSet | knotClr | knotWait | tokGive | tokTake | barArrive | barWait | bobArrive | bobExpect
  | bobWait | fabBond | fabBondNw | fabDrain | fabQuery | engStart | engBind | engFork | engStop | engStat | tokCfgClaim
  | tokCfgRelease | wfe | evqWait | halt | nop | brk | eret =>
    simp [execTrap, execHset, execHins, execJal, execJalr, execFence, execBknotSet, execBknotClr, execBstatSet, execBstatClr,
      execGetsr, execPutsr, execRdtime, execRdcyc, execSleepuntil, execTalloc, execTfree, execTinfo, execTsetfEmpty, execTsetfFull,
      execTsetfTarget, execTwait, execPortW, execPortGo, execPortCut, execTskArm, execTskSigDec, execTskSigWake, execTskEnd,
      execHlCancel, execHlCancelReset, execKnotSet, execKnotClr, execKnotWait, execTokGive, execTokTake, execBarArrive, execBarWait,
      execBobArrive, execBobExpect, execBobWait, execFabBond, execFabBondNw, execFabDrain, execFabQuery, execEngStart, execEngBind,
      execEngFork, execEngStop, execEngStat, execTokCfgClaim, execTokCfgRelease, execWfe, execEvqWait, execHalt, execNop, execBrk,
      execEret, hs]
  | add | sub | and | or | xor | andn | orn | sll | srl | sra | rol | ror | mul | mulh | mulhu | min | max | minu | maxu | slt | sltu
  | clmul | clmulh =>
    simp [execAdd, execSub, execAnd, execOr, execXor, execAndn, execOrn, execSll, execSrl, execSra, execRol, execRor, execMul,
      execMulh, execMulhu, execMin, execMax, execMinu, execMaxu, execSlt, execSltu, execClmul, execClmulh, hs]
  | div | divu | rem | remu =>
    simp [execDiv, execDivu, execRem, execRemu, hs]
  | clz | ctz | popc | brev | sextB | sextH | sextW | zextB | zextH | zextW | addi | andi | ori | xori | slti | sltiu | slli | srli
  | srai =>
    simp [execClz, execCtz, execPopc, execBrev, execSextB, execSextH, execSextW, execZextB, execZextH, execZextW, execAddi, execAndi,
      execOri, execXori, execSlti, execSltiu, execSlli, execSrli, execSrai, hs]
  | beq | bne | blt | bge | bltu | bgeu =>
    simp [execBeq, execBne, execBlt, execBge, execBltu, execBgeu, hs]
  | ldb | ldh | ldw | ldd | ldbu | ldhu | ldwu =>
    simp [execLdb, execLdh, execLdw, execLdd, execLdbu, execLdhu, execLdwu, hs]
  | stb | sth | stw | std =>
    simp [execStb, execSth, execStw, execStd, hs]
  | amoAdd | amoAnd | amoOr | amoXor | amoMin | amoMax | amoSwap | cas =>
    simp [execAmoAdd, execAmoAnd, execAmoOr, execAmoXor, execAmoMin, execAmoMax, execAmoSwap, execCas, hs]
  | shapeW | evqPop | tskRetry | hlRead | courseIssue | repStep | moduloSlot | rowLanding | wordRetirement | scalarWaitResume
  | requestSlotGrant | trapEntry | unitEnd | depcntDecrement | dispatch | preemption | resume | tileClearEnd | commandEnd | hopStart
  | hopComplete | latenessRecompute | join | ropeSend | consumedReport | multicastLanding | subscriberLeave | flitReceive
  | flitReoffer | collectiveAnnounce | memberWithdraw | remoteRowHandoff | remoteRowArrival | signalApply | barPhaseAdvance
  | requestArrival | batchOpen | batchDeadline | subArrayReplay | migrationRemap | invalidation | invalidationDone | recoverReset
  | illegal | fetch | pageMigration =>
    simp [hs]
  | vadd | vsub | vmul | vfma | vfms | vnfma | vmin | vmax | vabs | vneg | vscale | vrcp | vrsq | vexp2 | vlog2 | vtanh | vsigm
  | vsinpi | vcospi | vand | vor | vxor | vnot | vshl | vshr | vsra | vclmul | vclmulh | vpopc | vcmpeq | vcmplt | vcmple | vsel
  | vclass | vcvt | vrnd | vrsum | vrmax | vrmin | vrarg | vcsum | vmov | vbcastElem | vbcastRow0 | vtrn | vrot | vpackCat | vpackZip
  | vunpkLo | vunpkHi | vunpkEven | vunpkOdd | vperm | vldt | vstt | vshape | vloop | vbrAlways | vbrKset | vbrKclr | vbrLoop | vbrEnd
  | vmod | vknotSet | vknotClr | vknotAny | vknotAll | vwaitSet | vwaitClr | vwaitDrain | rep | vnop =>
    simp [execVadd, execVsub, execVmul, execVfma, execVfms, execVnfma, execVmin, execVmax, execVabs, execVneg, execVscale, execVrcp,
      execVrsq, execVexp2, execVlog2, execVtanh, execVsigm, execVsinpi, execVcospi, execVand, execVor, execVxor, execVnot, execVshl,
      execVshr, execVsra, execVclmul, execVclmulh, execVpopc, execVcmpeq, execVcmplt, execVcmple, execVsel, execVclass, execVcvt,
      execVrnd, execVrsum, execVrmax, execVrmin, execVrarg, execVcsum, execVmov, execVbcastElem, execVbcastRow0, execVtrn, execVrot,
      execVpackCat, execVpackZip, execVunpkLo, execVunpkHi, execVunpkEven, execVunpkOdd, execVperm, execVldt, execVstt, execVshape,
      execVloop, execVbrAlways, execVbrKset, execVbrKclr, execVbrLoop, execVbrEnd, execVmod, execVknotSet, execVknotClr, execVknotAny,
      execVknotAll, execVwaitSet, execVwaitClr, execVwaitDrain, execRep, execVnop, hs]
  | mldw | mswap | mmac | mepi | mepiRemote | mmark | mnop | mloop | mbrAlways | mbrKset | mbrKclr | mbrLoop | mbrEnd | mmod
  | mwaitSet | mwaitClr | mwaitDrain =>
    simp [execMldw, execMswap, execMmac, execMepi, execMepiRemote, execMmark, execMnop, execMloop, execMbrAlways, execMbrKset,
      execMbrKclr, execMbrLoop, execMbrEnd, execMmod, execMwaitSet, execMwaitClr, execMwaitDrain, hs]
  | hodCopyToTile | hodCopyToMemory | hodCopyMemory | hodFillTile | hodFillMemory =>
    simp [execHodCopyToTile, execHodCopyToMemory, execHodCopyMemory, execHodFillTile, execHodFillMemory, hs]
  | hodImload | tierRun | tierStop | tierStopDrain | tierRopeSource | tierRopeSubscriber | gatOpen | gatClose | gatCloseFlush
  | trcMark =>
    simp [execHodImload, execTierRun, execTierStop, execTierStopDrain, execTierRopeSource, execTierRopeSubscriber, execGatOpen,
      execGatClose, execGatCloseFlush, execTrcMark, hs]
  | splCollAllReduce | splCollReduceScatter | splCollAllGather | splCollBroadcast | splCollAllToAll | splCollTransposingAllToAll
  | splPut | splSigSet | splSigAdd =>
    simp [execSplCollAllReduce, execSplCollReduceScatter, execSplCollAllGather, execSplCollBroadcast, execSplCollAllToAll,
      execSplCollTransposingAllToAll, execSplPut, execSplSigSet, execSplSigAdd, hs]
  | loadResponse | blocking | deposit | heldDepositRelease | linkReplay | linkRetrain | portDown | linkFailure | quadTest
  | quadTestPass | quadTestFail | spareSubstitution | retentionPowerOff | pfevstatClear | pferrClear | evstatClear | registerWrite
  | coldReset | functionLevelReset | ptpSync | ppsEdge | dvfsChange | storeAcknowledgement | dividerFinish | referenceLost =>
    simp [execLoadResponse, execBlocking, execDeposit, execHeldDepositRelease, execLinkReplay, execLinkRetrain, execPortDown,
      execLinkFailure, execQuadTest, execQuadTestPass, execQuadTestFail, execSpareSubstitution, execRetentionPowerOff,
      execPfevstatClear, execPferrClear, execEvstatClear, execRegisterWrite, execColdReset, execFunctionLevelReset, execPtpSync,
      execPpsEdge, execDvfsChange, execStoreAcknowledgement, execDividerFinish, execReferenceLost, hs]
  | create | resize | destroy | preempt | linkup | attest | telemetry | scrub | retain | repairlog | recover =>
    simp [execCreate, execResize, execDestroy, execPreempt, execLinkup, execAttest, execTelemetry, execScrub, execRetain,
      execRepairlog, execRecover, hs]

/-! ## The schedule -/

/-- Memory of the state that the fetch of a scalar word carries, or of its fate's, stands in its canonical form. -/
def FetchWf : ScalarFetch → Prop
  | .word _ t => Memory.wf t.mem = true
  | .fate o => NextWf o
  | .hold => True

theorem scalarFetch_wf {s : State} (hs : Memory.wf s.mem = true) : FetchWf (scalarFetch s) := by
  obtain ⟨x, t, hx⟩ : ∃ x t, translate s (getUnit s).pc .fetch = (x, t) := ⟨_, _, rfl⟩
  have ht : Memory.wf t.mem = true := by rw [translate_ok_mem hx]; exact hs
  simp only [scalarFetch]
  split
  · exact execFetch_wf hs
  · split
    · trivial
    · rw [hx]
      cases x with
      | fail c => exact execFetch_wf ht
      | ok pa leaf =>
        dsimp only
        split
        · trivial
        · split
          · exact scalarDecodeFault_wf (by simp [ht])
          · split
            · exact execIllegal_wf (by simp [ht])
            · exact scalarDecodeFault_wf (by simp [ht])
            · simp [FetchWf, ht]

theorem issueSlot_wf {core slot : Nat} {s : State} {o : Host.Outcome State Fault Refusal} (hs : Memory.wf s.mem = true)
    (h : issueSlot core slot s = some o) : NextWf o := by
  have hf := scalarFetch_wf (s := takeIssue (focusOn s core slot 0)) hs
  simp only [issueSlot] at h
  split at h
  · split at h
    · cases h
    · rename_i o' ho
      rw [ho] at hf
      split at h <;> cases h
      exact checkedAs_wf hs hf
    · rename_i i t hi
      rw [hi] at hf
      split at h <;> cases h
      exact checkedWord_wf hf (exec_wf hf)
  · cases h

theorem skipSlot_mem_wf {core slot : Nat} {s : State} (hs : Memory.wf s.mem = true) : Memory.wf (skipSlot core slot s).mem = true := by
  unfold skipSlot
  split
  · split
    · exact hs
    · exact hs
    · split
      · rw [foldl_mem _ fun _ _ => setCore_mem _ _ _]
        exact hs
      · exact hs
  · exact hs

theorem issueFrom_wf {core : Nat} {slots : List Nat} {s : State} (hs : Memory.wf s.mem = true) : NextWf (issueFrom core slots s) := by
  induction slots generalizing s with
  | nil => exact hs
  | cons i is ih =>
    unfold issueFrom
    split
    · rename_i ho
      exact issueSlot_wf hs ho
    · exact ih (skipSlot_mem_wf hs)

@[simp] theorem turnScalar_wf {core : Nat} {s : State} (hs : Memory.wf s.mem = true) : NextWf (turnScalar core s) := by
  simp [turnScalar, issueFrom_wf, hs]

theorem streamWord_wf {n slot : Nat} {w : Fetched} {s : State} (hs : Memory.wf s.mem = true) : NextWf (streamWord n slot w s) := by
  cases w <;> simp [streamWord, exec_wf, hs]

@[simp] theorem turnVector_wf {core : Nat} {s : State} (hs : Memory.wf s.mem = true) : NextWf (turnVector core s) := by
  simp only [turnVector]
  split
  · exact hs
  · split <;> simp [streamWord_wf, hs]

@[simp] theorem turnMatrix_wf {core n : Nat} {s : State} (hs : Memory.wf s.mem = true) : NextWf (turnMatrix core n s) := by
  simp only [turnMatrix]
  split
  · exact hs
  · split <;> simp [streamWord_wf, hs]

@[simp] theorem turnEngine_wf {e core slot : Nat} {s : State} (hs : Memory.wf s.mem = true) : NextWf (turnEngine e core slot s) := by
  simp only [turnEngine]
  split
  · exact hs
  · split
    · exact exec_wf hs
    · split <;> simp [hs]

@[simp] theorem clockStep_mem_wf {s : State} (hs : Memory.wf s.mem = true) : Memory.wf (clockStep s).mem = true :=
  hostTick_mem_wf (by simp [hs])

theorem resumeDue_wf {s : State} {core : Nat} {k : Core} {o : Host.Outcome State Fault Refusal} (hs : Memory.wf s.mem = true)
    (h : resumeDue s core k = some o) : NextWf o := by
  obtain ⟨e, -, he⟩ := List.exists_of_findSome?_eq_some h
  have hr := execScalarWaitResume_wf (core := core) (slot := e.1) hs
  split at he
  · split at he
    · rename_i t ht
      rw [ht] at hr
      split at he <;> cases he
      exact hr
    · cases he
      exact hr
  · cases he

theorem dueOn_wf {s : State} {core : Nat} {k : Core} {o : Host.Outcome State Fault Refusal} (hs : Memory.wf s.mem = true)
    (h : dueOn s core k = some o) : NextWf o := by
  unfold dueOn at h
  split at h
  · cases h; exact execRowLanding_wf hs
  · split at h
    · cases h; exact execWordRetirement_wf hs
    · split at h
      · cases h; exact exec_wf (i := .dividerFinish _) hs
      · split at h
        · cases h; exact execTileClearEnd_wf hs
        · split at h
          · cases h; simp [hs]
          · cases h; simp [hs]
          · split at h
            · cases h; exact execSubArrayReplay_wf hs
            · exact resumeDue_wf hs h

theorem dueNow_wf {s : State} {o : Host.Outcome State Fault Refusal} (hs : Memory.wf s.mem = true) (h : dueNow s = some o) : NextWf o := by
  unfold dueNow at h
  split at h
  · rename_i hd
    obtain ⟨e, -, he⟩ := List.exists_of_findSome?_eq_some hd
    cases h
    exact dueOn_wf hs he
  · split at h
    · cases h
      split
      · exact exec_wf (i := .heldDepositRelease _) hs
      · exact exec_wf (i := .deposit _) hs
    · split at h
      · cases h; exact execBarPhaseAdvance_wf hs
      · split at h
        · cases h; exact execLatenessRecompute_wf hs
        · split at h
          · cases h; simp [hs]
          · cases h; exact execBatchOpen_wf hs
          · cases h

/-- A move that, made in a state whose memory is canonical, goes on to one whose memory is, if it goes on. -/
def MoveWf (m : State → Host.Outcome State Fault Refusal) : Prop :=
  ∀ s : State, Memory.wf s.mem = true → NextWf (m s)

/-- Moves of which each keeps memory in its canonical form. -/
def MovesWf (ms : List (State → Host.Outcome State Fault Refusal)) : Prop :=
  ∀ m ∈ ms, MoveWf m

@[simp] theorem movesWf_nil : MovesWf [] := by simp [MovesWf]

@[simp] theorem movesWf_cons (m : State → Host.Outcome State Fault Refusal) (ms : List (State → Host.Outcome State Fault Refusal)) :
    MovesWf (m :: ms) ↔ MoveWf m ∧ MovesWf ms := by simp [MovesWf]

@[simp] theorem movesWf_append (ms ns : List (State → Host.Outcome State Fault Refusal)) :
    MovesWf (ms ++ ns) ↔ MovesWf ms ∧ MovesWf ns := List.forall_mem_append

theorem movesWf_singleton {m : State → Host.Outcome State Fault Refusal} (hm : MoveWf m) : MovesWf [m] := by simp [hm]

theorem movesWf_pair {m n : State → Host.Outcome State Fault Refusal} (hm : MoveWf m) (hn : MoveWf n) : MovesWf [m, n] := by simp [hm, hn]

theorem movesWf_map {α : Type} {l : List α} {f : α → State → Host.Outcome State Fault Refusal} (hf : ∀ a, MoveWf (f a)) :
    MovesWf (l.map f) := List.forall_mem_map.mpr fun a _ => hf a

theorem movesWf_flatMap {α : Type} {l : List α} {f : α → List (State → Host.Outcome State Fault Refusal)}
    (hf : ∀ a ∈ l, MovesWf (f a)) : MovesWf (l.flatMap f) := by
  intro m hm
  obtain ⟨a, ha, hma⟩ := List.mem_flatMap.mp hm
  exact hf a ha m hma

theorem exec_moveWf (i : Instr) : MoveWf (exec i) := fun _ => exec_wf

theorem firstChange_wf {α : Type} [DecidableEq α] {f : State → α} {s : State} {ms : List (State → Host.Outcome State Fault Refusal)}
    {o : Host.Outcome State Fault Refusal} (hs : Memory.wf s.mem = true) (hms : MovesWf ms) (h : firstChange f s ms = some o) : NextWf o := by
  induction ms with
  | nil => cases h
  | cons m ms ih =>
    unfold firstChange at h
    split at h
    · cases h
      exact hms m List.mem_cons_self s hs
    · exact ih (fun m' hm' => hms m' (List.mem_cons_of_mem _ hm')) h

theorem beforeCourse_wf {core : Nat} {s : State} {o : Host.Outcome State Fault Refusal} (hs : Memory.wf s.mem = true)
    (h : beforeCourse core s = some o) : NextWf o := by
  obtain ⟨n, -, hn⟩ := List.exists_of_findSome?_eq_some h
  have ht := turnMatrix_wf (core := core) (n := n) hs
  dsimp only at hn
  split at hn
  · split at hn <;> cases hn
    exact ht
  · cases hn

@[simp] theorem placedVector_wf {core : Nat} {s : State} (hs : Memory.wf s.mem = true) : NextWf (placedVector core s) := by
  simp [placedVector, hs]

@[simp] theorem turnBelow_wf {core slot : Nat} {s : State} (hs : Memory.wf s.mem = true) : NextWf (turnBelow core slot s) := by
  simp [turnBelow, hs]

theorem streamsBefore_wf (core place : Nat) : MovesWf (streamsBefore core place) := by
  simp only [streamsBefore, movesWf_append, and_assoc]
  refine ⟨?_, ?_, ?_, ?_⟩
  · split
    · exact movesWf_nil
    · exact movesWf_singleton fun _ => placedVector_wf
  · exact movesWf_map fun n _ => turnMatrix_wf
  · exact movesWf_map fun i _ => execScalarWaitResume_wf
  · split
    · exact movesWf_nil
    · exact movesWf_singleton fun _ => turnBelow_wf

theorem bondMoves_wf (s : State) (core : Nat) : MovesWf (bondMoves s core) := by
  refine (movesWf_append _ _).mpr ⟨movesWf_map fun i _ => execScalarWaitResume_wf, ?_⟩
  split
  · exact movesWf_singleton fun _ => turnScalar_wf
  · exact movesWf_nil

theorem rivalOf_wf {core place : Nat} {s : State} {o r : Host.Outcome State Fault Refusal} (hs : Memory.wf s.mem = true)
    (h : rivalOf core place s o = some r) : NextWf r := by
  unfold rivalOf at h
  split at h
  · rename_i hr
    cases h
    split at hr
    · exact firstChange_wf hs (streamsBefore_wf _ _) hr
    · cases hr
  · split at h
    · split at h
      · exact beforeCourse_wf hs h
      · cases h
    · split at h
      · cases h
      · split at h
        · rename_i hr
          cases h
          split at hr
          · obtain ⟨i, -, hi⟩ := List.exists_of_findSome?_eq_some hr
            exact firstChange_wf hs (movesWf_singleton fun _ => execScalarWaitResume_wf) hi
          · cases hr
        · split at h
          · obtain ⟨c, -, hc⟩ := List.exists_of_findSome?_eq_some h
            exact firstChange_wf hs (bondMoves_wf _ _) hc
          · cases h

@[simp] theorem inOrder_wf {back : List Turn} {core place : Nat} {s : State} {o : Host.Outcome State Fault Refusal}
    (hs : Memory.wf s.mem = true) (ho : NextWf o) : NextWf (inOrder back core place s o) := by
  unfold inOrder
  split
  · rename_i t hr
    have ht : NextWf (.next t) := rivalOf_wf hs hr
    exact ht
  · rename_i hr
    exact rivalOf_wf hs hr
  · exact ho

@[simp] theorem orderedScalar_wf {back : List Turn} {core : Nat} {s : State} (hs : Memory.wf s.mem = true) :
    NextWf (orderedScalar back core s) :=
  inOrder_wf hs (turnScalar_wf hs)

@[simp] theorem orderedResume_wf {back : List Turn} {core slot : Nat} {s : State} (hs : Memory.wf s.mem = true) :
    NextWf (orderedResume back core slot s) :=
  inOrder_wf hs (execScalarWaitResume_wf hs)

@[simp] theorem armOwed_wf {c : Nat} {s : State} (hs : Memory.wf s.mem = true) : NextWf (armOwed c s) := by
  simp [armOwed, hs]

@[simp] theorem occur_wf {t : Turn} {i : Instr} {s : State} (hs : Memory.wf s.mem = true) : NextWf (occur t i s) := by
  unfold occur
  split
  · exact orderedResume_wf hs
  · exact armOwed_wf hs
  · exact exec_wf hs

@[simp] theorem readEarly_mem (s : State) (r : Reader) (pa : Nat) : (readEarly s r pa).mem = s.mem := by
  simp only [readEarly]
  (repeat' split) <;> simp

theorem turnStep_wf {t : Turn} {s : State} (hs : Memory.wf s.mem = true) : NextWf (turnStep t s) := by
  unfold turnStep
  split <;> simp [hs]

theorem firstMove_wf {s : State} {ms : List (State → Host.Outcome State Fault Refusal)} {o : Host.Outcome State Fault Refusal}
    (hs : Memory.wf s.mem = true) (hms : MovesWf ms) (h : firstMove s ms = some o) : NextWf o := by
  induction ms with
  | nil => cases h
  | cons m ms ih =>
    have hm := hms m List.mem_cons_self s hs
    have hms' : MovesWf ms := fun m' hm' => hms m' (List.mem_cons_of_mem _ hm')
    unfold firstMove at h
    split at h
    · rename_i t ht
      rw [ht] at hm
      split at h
      · exact ih hms' h
      · cases h
        exact hm
    · cases h
      exact hm

theorem orderedEngines_wf (s : State) (c i : Nat) : MovesWf ((span 0 5).filterMap fun e =>
    if (queueAt s { core := c, slot := i } e).isEmpty then none else some (turnEngine e c i)) := by
  intro m hm
  obtain ⟨e, -, he⟩ := List.mem_filterMap.mp hm
  split at he
  · cases he
  · cases he
    exact fun _ => turnEngine_wf

theorem coreMoves_wf (s : State) (c : Nat) (k : Core) : MovesWf (coreMoves s c k) := by
  simp only [coreMoves, movesWf_append, movesWf_cons, movesWf_nil, and_true, and_assoc]
  refine ⟨?_, ?_, ?_, ?_, ?_, ?_, ?_, ?_, ?_, ?_, ?_⟩
  · exact movesWf_map fun i => exec_moveWf (.unitEnd c i)
  · exact movesWf_map fun i => exec_moveWf (.preemption c i)
  · exact movesWf_map fun i => exec_moveWf (.trapEntry c i)
  · exact movesWf_map fun i _ => orderedResume_wf
  · exact movesWf_map fun j => exec_moveWf (.requestSlotGrant c j)
  · exact movesWf_flatMap fun j _ => movesWf_pair (exec_moveWf (.loadResponse c j)) (exec_moveWf (.storeAcknowledgement c j))
  · exact movesWf_map fun n => exec_moveWf (.remoteRowHandoff c n)
  · exact movesWf_flatMap fun i _ => orderedEngines_wf s c i
  · exact fun _ hs => inOrder_wf hs (turnVector_wf hs)
  · exact movesWf_map fun n _ hs => inOrder_wf hs (turnMatrix_wf hs)
  · exact fun _ => orderedScalar_wf

theorem hopMoves_wf (i : Nat) : MovesWf ((span 0 3).flatMap (fun h => [execHopStart i h, execHopComplete i h]) ++ [execRopeSend i]) := by
  simp only [movesWf_append, movesWf_cons, movesWf_nil, and_true]
  refine ⟨movesWf_flatMap fun h _ => ?_, exec_moveWf (.ropeSend i)⟩
  exact movesWf_pair (exec_moveWf (.hopStart i h)) (exec_moveWf (.hopComplete i h))

theorem flitMoves_wf (k : Nat) : MovesWf [execFlitReceive k, execRemoteRowArrival k, execSignalApply k, execCollectiveAnnounce k,
    execMemberWithdraw k, execJoin k, execConsumedReport k, execMulticastLanding k] := by
  simp only [movesWf_cons, movesWf_nil, and_true]
  exact ⟨exec_moveWf (.flitReceive k), exec_moveWf (.remoteRowArrival k), exec_moveWf (.signalApply k), exec_moveWf (.collectiveAnnounce k),
    exec_moveWf (.memberWithdraw k), exec_moveWf (.join k), exec_moveWf (.consumedReport k), exec_moveWf (.multicastLanding k)⟩

theorem partMoves_wf (s : State) : MovesWf (partMoves s) := by
  unfold partMoves
  iterate 17 refine (movesWf_append _ _).mpr ⟨?_, ?_⟩
  · exact movesWf_flatMap fun k _ => movesWf_pair (exec_moveWf (.deposit k)) (exec_moveWf (.heldDepositRelease k))
  · exact movesWf_map fun k => exec_moveWf (.commandEnd k)
  · exact movesWf_flatMap fun a _ => movesWf_map fun e _ => turnEngine_wf
  · exact movesWf_flatMap fun i _ => hopMoves_wf i
  · exact movesWf_flatMap fun k _ => flitMoves_wf k
  · exact movesWf_map fun k => exec_moveWf (.flitReoffer k)
  · exact movesWf_map fun k => exec_moveWf (.join k)
  · exact movesWf_map fun k => exec_moveWf (.depcntDecrement k)
  · exact movesWf_flatMap fun c _ => movesWf_pair (fun _ => armOwed_wf) (exec_moveWf (.batchOpen c))
  · exact movesWf_flatMap fun p _ => movesWf_pair (exec_moveWf (.blocking p)) (exec_moveWf (.invalidationDone p))
  · refine movesWf_flatMap fun q _ => (movesWf_append _ _).mpr ⟨movesWf_singleton (exec_moveWf (.quadTestPass q)), ?_⟩
    split
    · exact movesWf_singleton (exec_moveWf (.quadTest q))
    · exact movesWf_nil
  · exact movesWf_map fun k => exec_moveWf (.quadTest (k.1 / 4))
  · exact movesWf_flatMap fun e _ => movesWf_map fun i => exec_moveWf (.spareSubstitution (4 * e.1 + i))
  · exact movesWf_map fun d => exec_moveWf (.retentionPowerOff d)
  · exact movesWf_singleton (exec_moveWf .recoverReset)
  · split
    · exact movesWf_singleton (exec_moveWf (.pageMigration _ _ _))
    · exact movesWf_nil
  · exact movesWf_map fun k => exec_moveWf (.migrationRemap k)
  · split
    · exact movesWf_singleton (exec_moveWf (.dispatch _ _))
    · exact movesWf_singleton (exec_moveWf (.resume _ _ _))
    · exact movesWf_nil

/-! ## One step -/

theorem freeStep_wf {s : State} {o : Host.Outcome State Fault Refusal} (hs : Memory.wf s.mem = true) (h : freeStep s = o) : NextWf o := by
  have hms : MovesWf (partMoves s ++ s.cores.flatMap fun e => coreMoves s e.1 e.2) :=
    (movesWf_append _ _).mpr ⟨partMoves_wf s, movesWf_flatMap fun e _ => coreMoves_wf s e.1 e.2⟩
  unfold freeStep at h
  cases hf : firstMove s (partMoves s ++ s.cores.flatMap fun e => coreMoves s e.1 e.2) with
  | none =>
    rw [hf] at h
    cases h
    exact clockStep_mem_wf hs
  | some r =>
    rw [hf] at h
    cases h
    exact firstMove_wf hs hms hf

theorem machineStep_wf {s : State} {o : Host.Outcome State Fault Refusal} (hs : Memory.wf s.mem = true) (h : machineStep s = o) :
    NextWf o := by
  unfold machineStep at h
  split at h
  · rename_i hd
    cases h
    exact dueNow_wf hs hd
  · split at h
    · cases h
      exact turnStep_wf hs
    · exact freeStep_wf hs h

end Sys2Proof.Machine
end

section
open Sys2Proof Sys2Proof.Machine Sys2Proof.Safety

/-- Settles O58: what falls due, every turn and every move of the free schedule keeps memory in the form, which is the model's own
representation of a memory (log 4). -/
theorem memoryStaysCanonical : Obligations.MemoryStaysCanonical := by
  unfold Obligations.MemoryStaysCanonical
  intro s t hs h
  exact machineStep_wf hs h

end

section
/-! SUPPORT. An invalidation whose record stands on a page under migration (R237, R242): the record's STATUS is a write like any other and
waits at its home for the remap. -/
namespace Sys2Proof.Machine

/-- Bytes written to a page under migration wait at their home (R237). -/
theorem writeBytes_onMigrating {s : State} {pa : Nat} (bs : List Byte) (h : onMigrating s pa = true) :
    writeBytes s pa bs = { s with heldw := s.heldw ++ [{ pa := pa, bytes := bs, trace := none }] } := by
  simp [writeBytes, homeWrite, h]

/-- Whether an invalidation record breaks its layout (R242). -/
def invalMalformed (s : State) (a : Nat) : Bool :=
  let r := memBytes s.mem a 16
  a % 16 ≠ 0 || fieldNat r 0 8 % 65536 ≠ 0 || 2 ^ 55 ≤ fieldNat r 0 8 || fieldNat r 13 3 ≠ 0

theorem execInvalidation_malformed {s : State} {p : Nat} {addr : Word} (hp : mapHas s.parts p = true)
    (hbad : invalMalformed s addr.toNat = true) : execInvalidation p addr s = .next (writeBytes s (addr.toNat + 12) [2]) := by
  simp only [invalMalformed] at hbad
  simp only [execInvalidation, hp, hbad, Bool.not_true, Bool.false_eq_true, if_false, if_true]

/-- A malformed record on a page under migration: STATUS 2 waits at its home, and nothing else changes. -/
theorem execInvalidation_malformed_onMigrating {s : State} {p : Nat} {addr : Word} (hp : mapHas s.parts p = true)
    (hbad : invalMalformed s addr.toNat = true) (hm : onMigrating s (addr.toNat + 12) = true) :
    execInvalidation p addr s = .next { s with heldw := s.heldw ++ [{ pa := addr.toNat + 12, bytes := [2], trace := none }] } := by
  rw [execInvalidation_malformed hp hbad, writeBytes_onMigrating _ hm]

/-- Partition 0 with two windows of 512 MiB, whose tables from 0x10000 on map a page at 0 onto the first; an invalidation record at 0x9000
has a reserved byte that is not zero, and STATUS 0. -/
def recordPlaced : State :=
  { State.reset with
    parts := [(0, { placedPart with root := 0x10000, wins := placedPart.wins ++ [{ base := 0x20000000, len := 0x20000000, tier := 1 }] })]
    mem := memSetNat (memSetNat (memSetNat (memSetByte [] 0x900D 1) 0x10000 8 (2 ^ 36 + 2)) 0x20000 8 (2 ^ 36 + 3)) 0x30000 8 placedLeaf.toNat }

/-- That state once PAGE_MIGRATION has begun to move the record's page to the second window. -/
def recordMigrating : State :=
  match execPageMigration 0 0 0x2000 recordPlaced with
  | .next t => t
  | _ => recordPlaced

/-- The record is malformed, its page is under migration, and its STATUS is still 0. -/
theorem recordMigrating_facts : mapHas recordMigrating.parts 0 = true ∧ invalMalformed recordMigrating (0x9000#64).toNat = true
    ∧ onMigrating recordMigrating ((0x9000#64).toNat + 12) = true ∧ memByte recordMigrating.mem ((0x9000#64).toNat + 12) = 0 := by decide +kernel

end Sys2Proof.Machine
end

section
open Sys2Proof Sys2Proof.Machine Sys2Proof.Safety

/-- Refutes O52: its last clause has STATUS 2 in memory as soon as a malformed invalidation record is met, but where PAGE_MIGRATION is moving
the record's page that write waits at its home for the remap (R237), and STATUS still reads 0. -/
theorem not_quadsAndPages : ¬ Obligations.QuadsAndPages := by
  unfold Obligations.QuadsAndPages
  rintro ⟨-, -, -, invalidations⟩
  obtain ⟨-, malformed, -⟩ := invalidations recordMigrating 0 0x9000#64
  obtain ⟨hp, hbad, hm, hstatus⟩ := recordMigrating_facts
  obtain ⟨t, ht, written, -⟩ := malformed hp (by simpa [invalMalformed, or_assoc] using hbad)
  rw [exec_invalidation, execInvalidation_malformed_onMigrating hp hbad hm, Host.Outcome.next.injEq] at ht
  subst ht
  exact absurd (written.symm.trans hstatus) (by decide)

end

section
/-! SUPPORT. The vector stream after the check of a source row (R63): what a reserved code makes of it, and what finishing the words that
have landed leaves of it. -/
namespace Sys2Proof.Machine

@[simp] theorem giveToken_vec (k : Core) (uid : Nat) (give : BitVec 4) : (giveToken k uid give).vec = k.vec := by
  unfold giveToken
  dsimp only
  split <;> rfl

theorem foldl_giveToken_vec (fs : List VFlight) (k : Core) : (fs.foldl (fun c f => giveToken c f.uid f.give) k).vec = k.vec := by
  induction fs generalizing k with
  | nil => rfl
  | cons f fs ih => exact (ih _).trans (giveToken_vec _ _ _)

theorem settle_vector_running {k : Core} (h : k.vec.strm.mode ≠ .stopping) : settle k 8 = k := by
  simp [settle, h]

/-- The end of words that have landed leaves a stream that is not STOPPING as it is (R88, R93). -/
theorem finishVector_strm {s : State} {c : Nat} (h : (getCore s c).vec.strm.mode ≠ .stopping) :
    (getCore (finishVector s c) c).vec.strm = (getCore s c).vec.strm := by
  simp only [finishVector, getCore_setCore_same]
  rw [settle_vector_running (by simpa only [foldl_giveToken_vec] using h)]
  simp only [foldl_giveToken_vec]

/-- A fault of the vector stream of the unit in a slot replaces the sequencer's stream by that unit's, which is at reset where the unit does
not own the sequencer (R84, R362). -/
theorem streamFault_vector_strm (s : State) (c slot : Nat) (cause : BitVec 8) (eval : Word) :
    let m := strmOf (getCore s c) (unitAt s c slot).uid 8
    (getCore (streamFault s c slot 8 cause eval) c).vec.strm =
      { m with cause := cause, mode := if m.mode = .stopping then .stopping else .faulted } := by
  by_cases h : cause = cCHECK <;> simp [streamFault, h, unitAt, strmOf, vecOwner, withStrm]

theorem checkRow_reserved_strm {s : State} {c : Nat} {f : VFlight} (hr : readsReserved (getCore s c) f f.checked = true) :
    let m := strmOf (getCore s c) (unitAt s c f.slot).uid 8
    (getCore (checkRow s c f) c).vec.strm = { m with cause := cOPERAND, mode := if m.mode = .stopping then .stopping else .faulted } := by
  have e := streamFault_vector_strm (setCore s c (withFlight (getCore s c) { f with last := f.checked })) c f.slot cOPERAND (pcEval f.pc)
  simp only [unitAt, getCore_setCore_same] at e
  simp only [checkRow, hr, if_true]
  exact e

theorem execRowLanding_check {s : State} {c : Nat} {f : VFlight} (hshadow : nextShadow (getCore s c) s.clk = none)
    (hrow : nextLanding (getCore s c) s.clk = none) (hcheck : nextCheck (getCore s c) s.clk = some f) :
    execRowLanding c s = .next (finishVector (checkRow s c f) c) := by
  simp only [execRowLanding, hshadow, hrow, hcheck]

/-- The reserved code in a source row of a word: the sequencer's stream becomes that of the unit which the word's slot holds, FAULTED with
OPERAND. It is the stream that issued the word where that unit owns the sequencer. -/
theorem rowLanding_reserved_strm {s t : State} {c : Nat} {f : VFlight} (hshadow : nextShadow (getCore s c) s.clk = none)
    (hrow : nextLanding (getCore s c) s.clk = none) (hcheck : nextCheck (getCore s c) s.clk = some f)
    (hr : readsReserved (getCore s c) f f.checked = true)
    (hrun : (strmOf (getCore s c) (unitAt s c f.slot).uid 8).mode ≠ .stopping) (ht : exec (.rowLanding c) s = .next t) :
    (getCore t c).vec.strm = { strmOf (getCore s c) (unitAt s c f.slot).uid 8 with cause := cOPERAND, mode := .faulted } := by
  rw [exec_rowLanding, execRowLanding_check hshadow hrow hcheck, Host.Outcome.next.injEq] at ht
  have e := checkRow_reserved_strm hr
  simp only [if_neg hrun] at e
  rw [← ht, finishVector_strm (by simp [e]), e]

/-- A VUNPK.LO of one lane of T2 elements of row 0, whose row is still to be checked. -/
def unpackWord : VFlight :=
  { id := 0, uid := 1, slot := 0, op := .unpkLo, typ := .t2, src := none, a := { level := 2, base := 0, shift := 0 }
    b := { level := 3, base := 0, shift := 0 }, c := { level := 3, base := 0, shift := 0 }, dst := { level := 2, base := 1, shift := 0 }
    rnd := 0, sat := false, rows := 1, lanes := 1, issue := 0, next := 0, give := 0xF, pc := 0, knot := 0, handle := 0, gen := 0, trow := 0
    tseg := 0, tile := Tile.reset, last := 1, checked := 0 }

/-- A core whose list of units names slot 0 twice: first empty, then with the unit that owns the vector sequencer. Its forked stream has
passed word 0, which is in flight, and row 0 holds the reserved code. -/
def slotTwice : Core :=
  { Core.reset with
    units := [(0, Unit.reset), (0, { Unit.reset with live := true, uid := 1 })]
    vec := { Vec.reset with owner := some 1, strm := { Strm.reset with mode := .forked, pc := 1 }, flights := [unpackWord] }
    vrows := [(0, 2)] }

def slotTwiceState : State := { State.reset with cores := [(0, slotTwice)] }

/-- The word's row is the next to be checked. -/
theorem slotTwice_checks : nextShadow (getCore slotTwiceState 0) slotTwiceState.clk = none
    ∧ nextLanding (getCore slotTwiceState 0) slotTwiceState.clk = none
    ∧ nextCheck (getCore slotTwiceState 0) slotTwiceState.clk = some unpackWord
    ∧ readsReserved (getCore slotTwiceState 0) unpackWord unpackWord.checked = true := by decide +kernel

/-- The slot's unit by its instance number is not the unit that the slot reads as. -/
theorem slotTwice_slot : vecSlot (getCore slotTwiceState 0) = some unpackWord.slot
    ∧ (getCore slotTwiceState 0).vec.strm = { Strm.reset with mode := .forked, pc := 1 }
    ∧ strmOf (getCore slotTwiceState 0) (unitAt slotTwiceState 0 unpackWord.slot).uid 8 = Strm.reset := by decide +kernel

end Sys2Proof.Machine
end

section
open Sys2Proof Sys2Proof.Machine Sys2Proof.Safety

/-- Refutes O47: its last clause takes the stream that a reserved code faults to be the sequencer's, of any state in which the sequencer's
owner is found in the word's slot; but it asks no form of the list of units, and where that list names the slot twice the slot reads as
another unit, whose stream is at reset (R84): the fault leaves that stream in the sequencer, word number and all. -/
theorem not_rowsLand : ¬ Obligations.RowsLand := by
  unfold Obligations.RowsLand
  intro h
  obtain ⟨-, -, checks⟩ := h slotTwiceState 0 unpackWord
  obtain ⟨hshadow, hrow, hcheck, hreserved⟩ := slotTwice_checks
  obtain ⟨hslot, hstrm, hreset⟩ := slotTwice_slot
  obtain ⟨-, faults⟩ := checks hshadow hrow hcheck
  obtain ⟨t, ht, -, -, -, -, faulted, -⟩ := faults hreserved hslot (by rw [hstrm])
  have left := rowLanding_reserved_strm hshadow hrow hcheck hreserved (by rw [hreset]; decide) ht
  rw [hreset] at left
  rw [hstrm] at faulted
  exact absurd (congrArg Strm.pc (faulted.symm.trans left)) (by decide)

end
